-- ==== Sys2Proof/Word.lean ====
section
/-!
DEFINITION. Word.lean: the word types of the U6400 and the sparse maps its state is built from. A register,
a lane value or a field of an encoded instruction is a bit vector (R7, R9, R43); a count, a size or an address
that has been computed is a natural number.
-/
namespace Sys2Proof

/-- A register of the device, a 64-bit operand, a packet parameter (R9). -/
abbrev Word := BitVec 64

/-- One 32-bit value of one lane (R43). -/
abbrev Lane := BitVec 32

/-- One bit for each of the 32 lanes of a tray, lane 0 lowest. -/
abbrev Mask := BitVec 32

/-- One byte. -/
abbrev Byte := BitVec 8

/-- A sparse map from natural numbers: entries in strictly rising order of their keys. -/
abbrev SMap (α : Type) := List (Nat × α)

/-- The entry at a key, if there is one. -/
def SMap.find? {α : Type} : SMap α → Nat → Option α
  | [], _ => none
  | (k, v) :: m, key => if k = key then some v else SMap.find? m key

/-- The entry at a key, or the value an unlisted key stands for. -/
def SMap.get {α : Type} (m : SMap α) (key : Nat) (dflt : α) : α :=
  match SMap.find? m key with
  | some v => v
  | none => dflt

/-- Put a value at a key, in its place in the order. -/
def SMap.put {α : Type} : SMap α → Nat → α → SMap α
  | [], key, v => [(key, v)]
  | (k, w) :: m, key, v =>
    if k = key then (key, v) :: m
    else if key < k then (key, v) :: (k, w) :: m
    else (k, w) :: SMap.put m key v

/-- Remove every entry at a key. -/
def SMap.del {α : Type} : SMap α → Nat → SMap α
  | [], _ => []
  | (k, w) :: m, key => if k = key then SMap.del m key else (k, w) :: SMap.del m key

/-- Put a value at a key of a map whose unlisted keys stand for `dflt`: writing `dflt` removes the entry. -/
def SMap.store {α : Type} [DecidableEq α] (m : SMap α) (key : Nat) (dflt v : α) : SMap α :=
  if v = dflt then SMap.del m key else SMap.put m key v

/-- Change the entry at a key, if there is one. -/
def SMap.update {α : Type} : SMap α → Nat → (α → α) → SMap α
  | [], _, _ => []
  | (k, w) :: m, key, f => if k = key then (k, f w) :: m else (k, w) :: SMap.update m key f

/-- Keys strictly rise from `lo`. -/
def SMap.risingFrom {α : Type} : Nat → SMap α → Bool
  | _, [] => true
  | lo, (k, _) :: m => decide (lo ≤ k) && SMap.risingFrom (k + 1) m

/-- The canonical order of a sparse map: keys strictly rise. -/
def SMap.wf {α : Type} (m : SMap α) : Bool := SMap.risingFrom 0 m

/-- The numbers of the lanes, 0 to 31. -/
def laneNumbers : List Nat := List.range 32

/-- Is the bit of a lane set? -/
def Mask.has (m : Mask) (lane : Nat) : Bool := m.getLsbD lane

/-- The mask of the lanes that satisfy a test. -/
def Mask.ofFn (f : Nat → Bool) : Mask :=
  laneNumbers.foldl (fun acc l => if f l then acc ||| BitVec.ofNat 32 (2 ^ l) else acc) 0

/-- The lanes of a mask, in ascending order. -/
def Mask.lanes (m : Mask) : List Nat := laneNumbers.filter (fun l => m.getLsbD l)

/-- The lowest lane of a mask. -/
def Mask.lowest (m : Mask) : Option Nat := (Mask.lanes m).head?

/-- A value of `n` bits read as a two's-complement number. -/
def signedOf (n v : Nat) : Int := if v < 2 ^ (n - 1) then (v : Int) else (v : Int) - (2 ^ n : Nat)

/-- The low `n` bits of an integer. -/
def truncTo (n : Nat) (v : Int) : Nat := (v % (2 ^ n : Nat)).toNat

/-- The field of `len` bits that starts at bit `lo` of a natural number. -/
def bits (v lo len : Nat) : Nat := (v >>> lo) % 2 ^ len

end Sys2Proof
end

