-- ==== Sys2Proof/Syntax.lean ====
section
/-!
DEFINITION. Syntax.lean: the commands of the U6400, one constructor of `Instr` for each row of the opcode table, and
the operand records they carry.
-/
namespace Sys2Proof

/-- What the 36/32 code says of the words an action reads: clean, corrected, or uncorrectable (R215). -/
inductive Ecc where
  | clean | corrected | uncorrectable
deriving DecidableEq, Repr

/-- A tray instruction as a core's tray fetches and issues it: the fields of R42 but CLASS and OPCODE, which the
command's name gives, the 64-bit literal that follows the word (R46, R146), and what the code says of the register
file words (R59) and of the unit's own words (R105, R164, R185) that the instruction reads. -/
structure TrayOp where
  core : Fin 192
  slot : Fin 64
  pneg : Bool
  pred : Fin 8
  dst : BitVec 8
  srcA : BitVec 8
  srcB : BitVec 8
  srcC : BitVec 8
  keep : BitVec 3
  low : BitVec 13
  lit : BitVec 64
  rfEcc : Ecc := .clean
  unitEcc : Ecc := .clean
deriving DecidableEq, Repr

/-- Bits [47:0] of the instruction word. -/
def TrayOp.body (o : TrayOp) : BitVec 48 := o.dst ++ o.srcA ++ o.srcB ++ o.srcC ++ o.keep ++ o.low

/-- A field of the instruction word, from bit `lo`, `len` bits wide, of bits [47:0]. -/
def TrayOp.fld (o : TrayOp) (lo len : Nat) : Nat := bits o.body.toNat lo len

/-- The name of a node: queue, buffer sequence, index. -/
structure NodeRef where
  queue : Nat
  seq : Nat
  node : Nat
deriving DecidableEq, Repr

/-- What the code says of the words that an access finds (R185, R215): where the word lay, and whether it was corrected
or uncorrectable. -/
inductive LineEcc where
  | clean
  | l1Corrected | l1Uncorrectable | l1Tag
  | l2Corrected | l2Uncorrectable | l2Tag
  | hbmCorrected | hbmUncorrectable
  | flitPoisoned | flitControl
deriving DecidableEq, Repr

/-- A host request as its message carries it (R347): tag, address, LEN, SLOTS, NEAR, SIZE64, whether a reserved field is
non-zero, and its data slots. -/
structure HostReq where
  rtag : BitVec 16
  addr : BitVec 48
  len : BitVec 8 := 0
  slots : BitVec 5 := 0
  near : Bool := false
  size64 : Bool := false
  rsv : Bool := false
  data : BitVec 2048 := 0
deriving DecidableEq, Repr

/-- What a core has done for a queue in a sampling window (R291, R371): tray instructions issued, array cycles by operand
width, vector engine busy cycles, local SRAM words. -/
structure CoreAct where
  core : Fin 192
  insns : Nat := 0
  array8 : Nat := 0
  array4 : Nat := 0
  array2 : Nat := 0
  vec : Nat := 0
  sramWords : Nat := 0
deriving DecidableEq, Repr

/-- A queue's activity in a sampling window (R291, R371). -/
structure QueueAct where
  queue : Fin 1024
  cores : List CoreAct := []
  l2 : Nat := 0
  hbm : Nat := 0
  esrelBytes : Nat := 0
  ucieBytes : Nat := 0
  trayCycles : Nat := 0
deriving DecidableEq, Repr

/-- A packet of the fabric: the fields of R322, its payload with the code words of it that are poisoned (R324), and the
virtual-channel level it travels at (R320). -/
structure EPkt where
  op : BitVec 5 := 0
  evt : BitVec 2 := 0
  size64 : Bool := false
  dwin : BitVec 6 := 0
  resend : Bool := false
  jobset : BitVec 16 := 0
  dst : BitVec 16 := 0
  src : BitVec 16 := 0
  doff : BitVec 48 := 0
  len : BitVec 9 := 0
  hops : BitVec 6 := 0
  seq : BitVec 32 := 0
  ackDelta : BitVec 10 := 0
  status : BitVec 8 := 0
  epoch : BitVec 8 := 0
  evoff : BitVec 48 := 0
  evwin : BitVec 6 := 0
  evalue : BitVec 64 := 0
  incarn : BitVec 16 := 0
  operand : BitVec 64 := 0
  compare : BitVec 64 := 0
  payload : BitVec 2048 := 0
  poison : BitVec 8 := 0
  level : BitVec 2 := 0
deriving DecidableEq, Repr

/-- What a DISCOVER packet carries (R314). -/
structure Discovery where
  serial : BitVec 64
  link : BitVec 6
  id : BitVec 16
  assigned : Bool
  incarn : BitVec 16
deriving DecidableEq, Repr

/-- A frame of the management chain as it arrives (R421): its fields, with ACK and ERR as the master or the stages before this
one have left them. -/
structure Frame where
  addr : BitVec 8
  cmd : BitVec 4 := 0
  arg : BitVec 32 := 0
  hcrc : BitVec 8 := 0
  data : BitVec 64 := 0
  dcrc : BitVec 8 := 0
  ack : Bool := false
  err : Bool := false
deriving DecidableEq, Repr

/-- What a boot finds (R399 to R401): the strap as sampled, the HBM that training finds populated, the channels that fail
training, whether RESET_N is still low when the rails are up, and the milliseconds it takes. -/
structure BootInput where
  strap : BitVec 2 := 0
  capacity : BitVec 48 := 0
  failed : List (Fin 128) := []
  pinLow : Bool := false
  ms : BitVec 32 := 0
deriving DecidableEq, Repr

/-- A packet of the host as it arrives (R264): TAG, LEN, QUEUE, whether a reserved header bit is set, and its parameters P0
to P30 as far as it has them. -/
structure Pkt where
  tag : BitVec 16
  len : BitVec 3 := 0
  queue : BitVec 10 := 0
  rsv : Bool := false
  params : List (BitVec 64) := []
deriving DecidableEq, Repr

/-- The commands, one for each row of the opcode table, in its order. -/
inductive Instr where
  /-- ADD (R47): SIMTI instruction that writes A + B per lane, wrapping. -/
  | add (o : TrayOp)
  /-- SUB (R47): SIMTI instruction that writes A − B per lane, wrapping. -/
  | sub (o : TrayOp)
  /-- MUL (R47): SIMTI instruction that writes the low 32 bits of A × B. -/
  | mul (o : TrayOp)
  /-- MULHI (R47): SIMTI instruction that writes the high 32 bits of A × B, signed or unsigned. -/
  | mulhi (o : TrayOp)
  /-- MULWIDE (R47): SIMTI instruction that writes the 64-bit product A × B into a register pair. -/
  | mulwide (o : TrayOp)
  /-- AND (R47): SIMTI instruction that writes A AND B. -/
  | and (o : TrayOp)
  /-- OR (R47): SIMTI instruction that writes A OR B. -/
  | or (o : TrayOp)
  /-- XOR (R47): SIMTI instruction that writes A XOR B. -/
  | xor (o : TrayOp)
  /-- NOT (R47): SIMTI instruction that writes NOT A. -/
  | not (o : TrayOp)
  /-- SHL (R47): SIMTI instruction that shifts A left by B modulo the width. -/
  | shl (o : TrayOp)
  /-- SHRA (R47): SIMTI instruction that shifts A right arithmetically by B. -/
  | shra (o : TrayOp)
  /-- SHRL (R47): SIMTI instruction that shifts A right logically by B. -/
  | shrl (o : TrayOp)
  /-- MIN (R47): SIMTI instruction that writes the smaller of A and B. -/
  | min (o : TrayOp)
  /-- MAX (R47): SIMTI instruction that writes the larger of A and B. -/
  | max (o : TrayOp)
  /-- SETP (R47): SIMTI instruction that writes the comparison A CMP B to a predicate. -/
  | setp (o : TrayOp)
  /-- SEL (R47): SIMTI instruction that selects A or B by a predicate. -/
  | sel (o : TrayOp)
  /-- MOV (R47): SIMTI instruction that copies B, a register or the literal, to DST. -/
  | mov (o : TrayOp)
  /-- EXT8 (R47): SIMTI instruction that extends bits [7:0] of A. -/
  | ext8 (o : TrayOp)
  /-- EXT16 (R47): SIMTI instruction that extends bits [15:0] of A. -/
  | ext16 (o : TrayOp)
  /-- EXT64 (R47): SIMTI instruction that extends A to 64 bits into a register pair. -/
  | ext64 (o : TrayOp)
  /-- POPC (R47): SIMTI instruction that counts the one bits of A. -/
  | popc (o : TrayOp)
  /-- CLZ (R47): SIMTI instruction that counts the leading zero bits of A. -/
  | clz (o : TrayOp)
  /-- FADD (R48): SIMTF instruction that writes A + B in FP32 or FP64. -/
  | fadd (o : TrayOp)
  /-- FSUB (R48): SIMTF instruction that writes A − B. -/
  | fsub (o : TrayOp)
  /-- FMUL (R48): SIMTF instruction that writes A × B. -/
  | fmul (o : TrayOp)
  /-- FFMA (R48): SIMTF instruction that writes A × B + C with one rounding. -/
  | ffma (o : TrayOp)
  /-- FMIN (R48): SIMTF instruction that writes the minimum as VMIN does. -/
  | fmin (o : TrayOp)
  /-- FMAX (R48): SIMTF instruction that writes the maximum as VMAX does. -/
  | fmax (o : TrayOp)
  /-- FABS (R48): SIMTF instruction that writes |A|. -/
  | fabs (o : TrayOp)
  /-- FNEG (R48): SIMTF instruction that writes −A. -/
  | fneg (o : TrayOp)
  /-- FSETP (R48): SIMTF instruction that writes a floating-point comparison to a predicate. -/
  | fsetp (o : TrayOp)
  /-- CVT (R48): SIMTF instruction that converts A between integer and float formats. -/
  | cvt (o : TrayOp)
  /-- RCP (R48): SIMTF instruction that writes 1 / A in FP32. -/
  | rcp (o : TrayOp)
  /-- RSQ (R48): SIMTF instruction that writes 1 / √A in FP32. -/
  | rsq (o : TrayOp)
  /-- EX2 (R48): SIMTF instruction that writes 2^A in FP32. -/
  | ex2 (o : TrayOp)
  /-- LG2 (R48): SIMTF instruction that writes log2 A in FP32. -/
  | lg2 (o : TrayOp)
  /-- BR (R60): Uniform branch; faults if the active lanes disagree. -/
  | br (o : TrayOp)
  /-- BRD (R60): Branch that may diverge, splitting the running path with a reconvergence address. -/
  | brd (o : TrayOp)
  /-- YIELD (R62): Ends the path's turn or places a single-path tray in yield hold. -/
  | yield (o : TrayOp)
  /-- EXIT (R49): Ends the lanes whose predicate is true. -/
  | exit (o : TrayOp)
  /-- PLOP (R49): Writes a predicate as a logic function of two predicates. -/
  | plop (o : TrayOp)
  /-- VOTE (R49): Writes ANY, ALL or a BALLOT mask over the counted lanes. -/
  | vote (o : TrayOp)
  /-- LD (R50): Window load of 1–16 B per lane, zero-extended. -/
  | ld (o : TrayOp)
  /-- LDS (R50): Window load of 1 or 2 B per lane, sign-extended. -/
  | lds (o : TrayOp)
  /-- ST (R50): Window store of 1–16 B per lane. -/
  | st (o : TrayOp)
  /-- SLD (R74): Scratchpad load, checked against the sheet's allocation. -/
  | sld (o : TrayOp)
  /-- SLDS (R74): Scratchpad load of 1 or 2 B, sign-extended. -/
  | slds (o : TrayOp)
  /-- SST (R74): Scratchpad store, checked against the sheet's allocation. -/
  | sst (o : TrayOp)
  /-- LDRES (R243): Reserved load that sets a per-lane reservation and starts a reservation hold. -/
  | ldres (o : TrayOp)
  /-- STC (R71): Store-conditional that succeeds for lanes still holding their reservation. -/
  | stc (o : TrayOp)
  /-- DMAPOST (R202): Posts a mover descriptor from eight registers to the block's DMA mover. -/
  | dmapost (o : TrayOp)
  /-- RPOST (R325): Posts a remote operation descriptor from sixteen registers to the Esrel port. -/
  | rpost (o : TrayOp)
  /-- ATOM_ADD (R69): Non-fetching atomic add, combined per address. -/
  | atomAdd (o : TrayOp)
  /-- ATOM_FETCHADD (R69): Atomic add that returns each lane's earlier value in lane order. -/
  | atomFetchadd (o : TrayOp)
  /-- ATOM_SMIN (R69): Non-fetching signed minimum atomic. -/
  | atomSmin (o : TrayOp)
  /-- ATOM_SMIN_FETCH (R69): Fetching signed minimum atomic. -/
  | atomSminFetch (o : TrayOp)
  /-- ATOM_SMAX (R69): Non-fetching signed maximum atomic. -/
  | atomSmax (o : TrayOp)
  /-- ATOM_SMAX_FETCH (R69): Fetching signed maximum atomic. -/
  | atomSmaxFetch (o : TrayOp)
  /-- ATOM_UMIN (R69): Non-fetching unsigned minimum atomic. -/
  | atomUmin (o : TrayOp)
  /-- ATOM_UMIN_FETCH (R69): Fetching unsigned minimum atomic. -/
  | atomUminFetch (o : TrayOp)
  /-- ATOM_UMAX (R69): Non-fetching unsigned maximum atomic. -/
  | atomUmax (o : TrayOp)
  /-- ATOM_UMAX_FETCH (R69): Fetching unsigned maximum atomic. -/
  | atomUmaxFetch (o : TrayOp)
  /-- ATOM_AND (R69): Non-fetching atomic AND. -/
  | atomAnd (o : TrayOp)
  /-- ATOM_AND_FETCH (R69): Fetching atomic AND. -/
  | atomAndFetch (o : TrayOp)
  /-- ATOM_OR (R69): Non-fetching atomic OR. -/
  | atomOr (o : TrayOp)
  /-- ATOM_OR_FETCH (R69): Fetching atomic OR. -/
  | atomOrFetch (o : TrayOp)
  /-- ATOM_XOR (R69): Non-fetching atomic XOR. -/
  | atomXor (o : TrayOp)
  /-- ATOM_XOR_FETCH (R69): Fetching atomic XOR. -/
  | atomXorFetch (o : TrayOp)
  /-- ATOM_FADD (R69): FP32 atomic add applied lane by lane in ascending order. -/
  | atomFadd (o : TrayOp)
  /-- FETCHFADD (R69): Fetching FP32 atomic add applied in lane order. -/
  | fetchfadd (o : TrayOp)
  /-- ATOM_SWAP (R70): Atomic exchange applied lane after lane. -/
  | atomSwap (o : TrayOp)
  /-- ATOM_CAS (R70): Compare-and-swap applied lane after lane. -/
  | atomCas (o : TrayOp)
  /-- LOCKTRY (R65): Writes the lock value into a zero word for the first lane that finds it free. -/
  | locktry (o : TrayOp)
  /-- LOAD_DATA_RETURN (R229): Data of an outstanding window load, reserved load or fetching atomic arrives at the core. -/
  | loadDataReturn (core : Fin 192) (k : Nat) (ecc : LineEcc)
  /-- STORE_ACCEPTED (R189): A store is acknowledged by its target, freeing store-queue space and letting fences and retirement proceed. -/
  | storeAccepted (core : Fin 192) (k : Nat)
  /-- TRAY_DEMOTE_TIMEOUT (R54): An active tray ineligible for 64 cycles while a pending tray is ready is demoted. -/
  | trayDemoteTimeout (core : Fin 192) (slot : Fin 64)
  /-- YIELD_HOLD_END (R56): A tray's 16-cycle yield hold expires and it becomes eligible again. -/
  | yieldHoldEnd (core : Fin 192) (slot : Fin 64)
  /-- TRAY_PROMOTE (R55): A ready pending tray is promoted into a free active slot. -/
  | trayPromote (core : Fin 192) (slot : Fin 64)
  /-- TRAY_RETIRE (R41): A tray whose lanes have exited and whose accesses are accepted retires, freeing its sheet when last. -/
  | trayRetire (core : Fin 192) (slot : Fin 64)
  /-- SHEET_PLACE (R39): The front end places a waiting sheet on a core that has room. -/
  | sheetPlace (launch : Nat) (spots : List (Nat × Nat))
  /-- TRAY_HALT (R76): HALT command stops a tray at its next instruction boundary. -/
  | trayHalt (core : Fin 192) (slot : Fin 64)
  /-- TRAY_STEP (R77): STEP command issues one instruction of a halted tray and halts it again. -/
  | trayStep (core : Fin 192) (slot : Fin 64)
  /-- TRAY_RESUME (R77): RESUME command makes a halted tray eligible again. -/
  | trayResume (core : Fin 192) (slot : Fin 64)
  /-- STEP_COMPLETE (R77): The stepped instruction completes, the tray halts and STEP_DONE is set. -/
  | stepComplete (core : Fin 192) (slot : Fin 64)
  /-- MMA (R86): Full-tile outer-product matrix instruction. -/
  | mma (o : TrayOp)
  /-- SMMA (R96): Short-product matrix instruction reduced by the adder tree. -/
  | smma (o : TrayOp)
  /-- FLD (R98): Loads fragment registers from a scratchpad panel. -/
  | fld (o : TrayOp)
  /-- RHLD (R93): Loads one row-hold row from scratchpad. -/
  | rhld (o : TrayOp)
  /-- RHCLR (R82): Invalidates the masked row-hold rows. -/
  | rhclr (o : TrayOp)
  /-- TRD (R92): Reads part of a READY tile-queue entry into registers. -/
  | trd (o : TrayOp)
  /-- TQDROP (R91): Releases a tile-queue entry. -/
  | tqdrop (o : TrayOp)
  /-- ACLR (R90): Discards the owner's open tile in an accumulator set. -/
  | aclr (o : TrayOp)
  /-- ACCUMULATOR_DRAIN_END (R91): A committed tile's drain ends, the entry becomes READY and the set FREE. -/
  | accumulatorDrainEnd (core : Fin 192) (set : Fin 2)
  /-- SUGAR_CYCLE (R100): The array runs a dummy cycle in an unoccupied cycle within the effective tail. -/
  | sugarCycle (core : Fin 192)
  /-- VCVT (R156): Vector instruction that converts a stream at the sink. -/
  | vcvt (o : TrayOp)
  /-- VADD (R152): Vector elementwise addition. -/
  | vadd (o : TrayOp)
  /-- VSUB (R152): Vector elementwise subtraction. -/
  | vsub (o : TrayOp)
  /-- VMUL (R152): Vector elementwise multiplication. -/
  | vmul (o : TrayOp)
  /-- VFMA (R152): Vector fused multiply-add with one rounding. -/
  | vfma (o : TrayOp)
  /-- VMIN (R152): Vector elementwise minimum. -/
  | vmin (o : TrayOp)
  /-- VMAX (R152): Vector elementwise maximum. -/
  | vmax (o : TrayOp)
  /-- VABS (R152): Vector elementwise absolute value. -/
  | vabs (o : TrayOp)
  /-- VNEG (R152): Vector elementwise negation. -/
  | vneg (o : TrayOp)
  /-- VDIV (R152): Vector correctly rounded division. -/
  | vdiv (o : TrayOp)
  /-- VSQRT (R152): Vector correctly rounded square root. -/
  | vsqrt (o : TrayOp)
  /-- VCMP (R152): Vector comparison giving 1 or 0. -/
  | vcmp (o : TrayOp)
  /-- VSEL (R152): Vector selection by a third operand. -/
  | vsel (o : TrayOp)
  /-- VAND (R152): Vector int32 bitwise AND. -/
  | vand (o : TrayOp)
  /-- VOR (R152): Vector int32 bitwise OR. -/
  | vor (o : TrayOp)
  /-- VXOR (R152): Vector int32 bitwise XOR. -/
  | vxor (o : TrayOp)
  /-- VSHL (R152): Vector int32 shift left. -/
  | vshl (o : TrayOp)
  /-- VSHRA (R152): Vector int32 arithmetic shift right. -/
  | vshra (o : TrayOp)
  /-- VSHRL (R152): Vector int32 logical shift right. -/
  | vshrl (o : TrayOp)
  /-- VRSUM (R154): Row sum reduction in fixed order. -/
  | vrsum (o : TrayOp)
  /-- VRMIN (R154): Row minimum reduction. -/
  | vrmin (o : TrayOp)
  /-- VRMAX (R154): Row maximum reduction. -/
  | vrmax (o : TrayOp)
  /-- TSCALE (R162): Applies the scale step to a tile or int32 stream. -/
  | tscale (o : TrayOp)
  /-- TCOPY (R162): Copies tile values exactly into a stream. -/
  | tcopy (o : TrayOp)
  /-- VLDT (R164): Loads or invalidates a function or derivative table. -/
  | vldt (o : TrayOp)
  /-- VFUN (R165): Evaluates a forward function by table. -/
  | vfun (o : TrayOp)
  /-- VDER (R166): Evaluates a derivative by table or cross mode. -/
  | vder (o : TrayOp)
  /-- EXPMAX (R128): Computes and merges shared exponents of a slicing group. -/
  | expmax (o : TrayOp)
  /-- SLICE (R129): Aligns a piece and writes its signed 8-bit slice planes. -/
  | slice (o : TrayOp)
  /-- RECOMB (R134): Adds one pass into a recombination region in position order. -/
  | recomb (o : TrayOp)
  /-- RCLOSE (R134): Closes a chunk into the running output and converts it when last. -/
  | rclose (o : TrayOp)
  /-- VE_INSTRUCTION_START (R149): The instruction at the head of the engine queue starts once its sources are available. -/
  | veInstructionStart (core : Fin 192)
  /-- VE_INSTRUCTION_COMPLETE (R151): A vector instruction or chain completes, freeing queue entries and writing results. -/
  | veInstructionComplete (core : Fin 192)
  /-- MOVER_DESCRIPTOR_START (R171): The mover starts the next descriptor and checks its cells and extents. -/
  | moverDescriptorStart (block : Fin 24)
  /-- MOVER_DESCRIPTOR_COMPLETE (R173): A descriptor's writes complete and its counters are incremented. -/
  | moverDescriptorComplete (block : Fin 24)
  /-- MOVER_POISONED_LINE (R173): A window line returns poisoned and ends the descriptor with a fault. -/
  | moverPoisonedLine (block : Fin 24) (tile : Nat)
  /-- VICTIM_OFFER (R195): An evicted L1 line is offered to its home slice, which accepts or declines it. -/
  | victimOffer (core : Fin 192) (line : Nat)
  /-- VICTIM_BUDGET_INTERVAL (R196): A 1,024-cycle interval ends and the slice's clean-victim budget renews. -/
  | victimBudgetInterval (slice : Fin 24)
  /-- L2_FILL (R194): A fill from HBM arrives and is allocated in the home slice. -/
  | l2Fill (line : Nat) (context : Fin 64) (lru : Bool) (ecc : LineEcc) (recalled : Option Nat)
  /-- RELOAD_DATA_ARRIVE (R217): Reload data arrives and waiting requests are answered. -/
  | reloadDataArrive (line : Nat) (ok : Bool) (data : BitVec 1024)
  /-- RELOAD_TIMEOUT (R217): A reload not done in 500 µs poisons the line. -/
  | reloadTimeout (line : Nat)
  /-- CHANNEL_OFFLINE (R207): OFFLINE command drains a channel. -/
  | channelOffline (ch : Fin 128)
  /-- CHANNEL_ONLINE (R207): ONLINE command scrubs an offline channel back into service. -/
  | channelOnline (ch : Fin 128)
  /-- CHANNEL_TEST (R207): TEST command gives an offline channel to its traffic generator. -/
  | channelTest (ch : Fin 128)
  /-- CHANNEL_RETRAIN (R207): RETRAIN command retrains an ONLINE channel. -/
  | channelRetrain (ch : Fin 128)
  /-- CHANNEL_DRAIN_END (R206): Requests in flight on a draining channel complete and it goes OFFLINE. -/
  | channelDrainEnd (ch : Fin 128)
  /-- CHANNEL_SCRUB_DONE (R208): Training and poison scrub complete and the channel goes ONLINE. -/
  | channelScrubDone (ch : Fin 128) (pass : Bool)
  /-- RETRAIN_DUE (R209): A channel's periodic retrain comes due. -/
  | retrainDue (ch : Fin 128)
  /-- EARLY_RETRAIN_TRIGGER (R209): Corrected words in a 1 ms window exceed the threshold and start a retrain. -/
  | earlyRetrainTrigger (ch : Fin 128)
  /-- RETRAIN_DONE (R209): A channel retrain passes or fails, with a third failure draining the channel. -/
  | retrainDone (ch : Fin 128) (pass : Bool)
  /-- TG_START (R210): START starts a traffic-generator run on a channel in TEST. -/
  | tgStart (ch : Fin 128) (pattern : Fin 4) (order : Bool) (lines : BitVec 32)
  /-- TG_RUN_END (R210): A traffic-generator run ends and reports mismatches. -/
  | tgRunEnd (mismatches : Nat) (first : BitVec 32)
  /-- HM_PART_CTRL_WRITE (R214): A partition setting is checked and taken into effect at the next epoch. -/
  | hmPartCtrlWrite (kernel : Bool) (n : Fin 16) (v : Word)
  /-- RD_SHARED (R223): Read request for a shared copy served by the home. -/
  | rdShared (core : Fin 192) (line : Nat)
  /-- RD_OWN (R222): Read request for ownership served by the home. -/
  | rdOwn (core : Fin 192) (line : Nat)
  /-- RD_ONCE (R230): Non-allocating read served by the current holder. -/
  | rdOnce (core : Fin 192) (line : Nat)
  /-- UPGRADE (R226): Request to upgrade an S or F copy to M. -/
  | upgrade (core : Fin 192) (line : Nat)
  /-- CLAIM (R222): Whole-line write claim that invalidates other copies without data. -/
  | claim (core : Fin 192) (line : Nat)
  /-- WR_THRU (R222): Write-through request sent to the home. -/
  | wrThru (core : Fin 192) (line : Nat)
  /-- WR_INV (R230): Non-caching write that invalidates every holder at the home. -/
  | wrInv (addr : BitVec 48) (bytes : Fin 129) (data : BitVec 1024) (policy : Fin 4)
  /-- ATOMIC (R231): Atomic request executed at the home slice or near-memory unit. -/
  | atomic (core : Fin 192) (k : Nat)
  /-- SNP_FWD_S (R222): Snoop forwarding data to a requester and leaving the holder shared. -/
  | snpFwdS (core : Fin 192) (line : Nat)
  /-- SNP_FWD_O (R222): Snoop forwarding data and ownership to a requester. -/
  | snpFwdO (core : Fin 192) (line : Nat)
  /-- SNP_FWD_ONCE (R222): Snoop forwarding data once while the holder keeps its state. -/
  | snpFwdOnce (core : Fin 192) (line : Nat)
  /-- SNP_INV (R222): Snoop invalidating an L1 copy. -/
  | snpInv (core : Fin 192) (line : Nat)
  /-- COHERENCE_RESPONSE (R228): A grant, acknowledgement or data message arrives and is sunk by its requester. -/
  | coherenceResponse (core : Fin 192) (line : Nat)
  /-- SNOOP_TIMEOUT (R233): A snoop unanswered for L2_AGENT_TIMEOUT marks its agent dead. -/
  | snoopTimeout (core : Fin 192) (line : Nat)
  /-- RESERVATION_HOLD_EXPIRE (R243): A reservation hold ends 64 cycles after its LDRES and held snoops proceed. -/
  | reservationHoldExpire (core : Fin 192) (slot : Fin 64)
  /-- FENCE (R239): Acquire, release or full fence at a scope. -/
  | fence (o : TrayOp)
  /-- CINC (R250): Adds an amount to a sync counter as a release. -/
  | cinc (o : TrayOp)
  /-- CWAIT (R250): Waits until a sync counter reaches a target. -/
  | cwait (o : TrayOp)
  /-- CREAD (R247): Reads a sync counter into a register. -/
  | cread (o : TrayOp)
  /-- CSET (R250): Replaces a sync counter's value. -/
  | cset (o : TrayOp)
  /-- BAR (R252): Arrives at a sheet, block or device barrier. -/
  | bar (o : TrayOp)
  /-- EWAIT (R255): Waits until an event word reaches a target. -/
  | ewait (o : TrayOp)
  /-- ESIG (R255): Signals an event word as a release. -/
  | esig (o : TrayOp)
  /-- RALIGN (R262): Makes the tray a waiter on one side of a realign pair. -/
  | ralign (o : TrayOp)
  /-- RFTEST (R256): Writes and clears the tray's sticky remote-failure flag. -/
  | rftest (o : TrayOp)
  /-- WAIT_TIMEOUT_EXPIRE (R260): A wait's timeout expires, writing a record and failing or releasing the tray. -/
  | waitTimeoutExpire (core : Fin 192) (slot : Fin 64) (path : Nat)
  /-- REALIGN_DUE (R262): A realign pair falls due and rebases both counters if both sides wait. -/
  | realignDue (pair : Fin 16)
  /-- LEND_THRESHOLD (R261): A wait lasting PM_LEND_THRESH marks its tray long-waiting. -/
  | lendThreshold (core : Fin 192) (slot : Fin 64) (path : Nat)
  /-- SUBMIT (R272): Packet that copies and checks a command buffer into a queue. -/
  | submit (p : Pkt)
  /-- QUEUE_CREATE (R268): Kernel packet that creates a queue in a context. -/
  | queueCreate (p : Pkt)
  /-- QUEUE_DESTROY (R288): Kernel packet that destroys a queue with its work. -/
  | queueDestroy (p : Pkt)
  /-- QUEUE_DISABLE (R270): Kernel packet that stops a queue starting nodes. -/
  | queueDisable (p : Pkt)
  /-- QUEUE_ENABLE (R270): Kernel packet that returns a disabled queue to ACTIVE. -/
  | queueEnable (p : Pkt)
  /-- QUEUE_RESET (R270): Kernel packet that returns a guilty queue to ACTIVE. -/
  | queueReset (p : Pkt)
  /-- CONTEXT_CREATE (R268): Kernel packet that creates a context. -/
  | contextCreate (p : Pkt)
  /-- CONTEXT_DESTROY (R271): Kernel packet that destroys a context and its queues and resources. -/
  | contextDestroy (p : Pkt)
  /-- REG_READ_PACKET (R266): Packet that returns a register's value. -/
  | regReadPacket (p : Pkt)
  /-- REG_WRITE_PACKET (R266): Packet that writes a register on receipt. -/
  | regWritePacket (p : Pkt)
  /-- QUEUE_QUERY (R266): Packet that returns a queue's status, completed sequence and slowdown. -/
  | queueQuery (p : Pkt)
  /-- FALLBACK_READ (R285): Packet that removes and returns the oldest fallback record. -/
  | fallbackRead (p : Pkt)
  /-- ECHO (R266): Packet that returns its parameters unchanged. -/
  | echo (p : Pkt)
  /-- LAUNCH (R279): Node that starts a kernel launch. -/
  | launch (r : NodeRef)
  /-- COPY (R277): Node that copies between windows through the block movers. -/
  | copy (r : NodeRef)
  /-- FILL (R276): Node that fills a destination with a pattern. -/
  | fill (r : NodeRef)
  /-- EVENT_SIGNAL (R304): Node that signals an event word. -/
  | eventSignal (r : NodeRef)
  /-- EVENT_WAIT (R276): Node that completes when an event word reaches a target. -/
  | eventWait (r : NodeRef)
  /-- PRELOAD (R197): Node that fetches and locks an extent into a lock group. -/
  | preload (r : NodeRef)
  /-- UNLOCK (R201): Node that releases a lock group. -/
  | unlock (r : NodeRef)
  /-- UNLOCK_RELEASE_DONE (R201): Every slice has released the group, which becomes FREE and admits a held PRELOAD. -/
  | unlockReleaseDone (group : Fin 16)
  /-- REALIGN_SET (R262): Node that sets or clears a realign pair. -/
  | realignSet (r : NodeRef)
  /-- TIMESTAMP (R276): Node whose result is machine time at completion. -/
  | timestamp (r : NodeRef)
  /-- REG_READ_NODE (R276): Node whose result is a register value. -/
  | regReadNode (r : NodeRef)
  /-- REG_WRITE_NODE (R276): Node that writes a register in dependency order. -/
  | regWriteNode (r : NodeRef)
  /-- SET_SEED (R276): Node that sets the queue's SEED. -/
  | setSeed (r : NodeRef)
  /-- CKPT_COPY (R396): Node that copies a checkpoint locally or to another member, with optional CRC. -/
  | ckptCopy (r : NodeRef)
  /-- RANGE_CREATE (R297): RANGE_WRITE operation that adds a range and its memory object. -/
  | rangeCreate (r : NodeRef)
  /-- RANGE_DESTROY (R297): RANGE_WRITE operation that sets DYING and drops the creator's reference. -/
  | rangeDestroy (r : NodeRef)
  /-- SET_RELOAD (R297): RANGE_WRITE operation that registers a reload source. -/
  | setReload (r : NodeRef)
  /-- HEAP (R306): RANGE_WRITE operation that creates a heap of a context. -/
  | heap (r : NodeRef)
  /-- RANGE_EVENT (R297): RANGE_WRITE operation that registers an event object. -/
  | rangeEvent (r : NodeRef)
  /-- PARTITION_ASSIGN (R276): Node that assigns a context to a bandwidth partition. -/
  | partitionAssign (r : NodeRef)
  /-- POWER_POLICY (R378): Node that writes cap, clock mode and lend point. -/
  | powerPolicy (r : NodeRef)
  /-- REGION_SHUTDOWN (R19): REGION_CONTROL operation that saves a region's sheets and gates its cores. -/
  | regionShutdown (r : NodeRef)
  /-- REGION_ENABLE (R19): REGION_CONTROL operation that ungates, zeroes and calibrates a region. -/
  | regionEnable (r : NodeRef)
  /-- REGION_SHUTDOWN_DONE (R18): A region reaches OFF and a held enable takes effect. -/
  | regionShutdownDone (region : Fin 4)
  /-- REGION_ENABLE_DONE (R19): An enabled region reaches ON and sheets may be placed there. -/
  | regionEnableDone (region : Fin 4)
  /-- NODE_START (R278): A ready node starts once its predecessors and buffer order allow. -/
  | nodeStart (r : NodeRef)
  /-- NODE_COMPLETE (R284): A node completes: record, event, dependents, queue event. -/
  | nodeComplete (r : NodeRef)
  /-- QUEUE_ABORT_DONE (R287): A resetting queue's abort completes and it becomes GUILTY. -/
  | queueAbortDone (queue : Fin 1024)
  /-- ENGINE_ABORT_REPORT (R288): An engine reports its abort during a queue destroy. -/
  | engineAbortReport (r : NodeRef)
  /-- ABORT_REPORT_TIMEOUT (R288): An engine silent for 1 ms after abort is a chip-level fault. -/
  | abortReportTimeout (r : NodeRef)
  /-- CONTEXT_DESTROY_DONE (R271): A context's destruction completes and its number becomes free. -/
  | contextDestroyDone (context : Fin 64)
  /-- NODE_WATCHDOG_EXPIRE (R286): A node's watchdog expires, completing it WATCHDOG. -/
  | nodeWatchdogExpire (r : NodeRef)
  /-- TIMED_LAUNCH_DUE (R280): A timed launch's START_AT arrives and its sheets may be placed. -/
  | timedLaunchDue (r : NodeRef)
  /-- PREEMPT_TIMEOUT (R289): A launch waiting past PREEMPT forces lower-priority sheets off. -/
  | preemptTimeout (r : NodeRef) (victims : List (Nat × Nat))
  /-- SLICE_TIMEOUT (R289): An equal-priority slice expires and forces a switch. -/
  | sliceTimeout (r : NodeRef) (victims : List (Nat × Nat))
  /-- CONTEXT_SWITCH_FORCED (R290): Sheets are saved at safe points and others restored. -/
  | contextSwitchForced (r : NodeRef) (spots : List (Nat × Nat))
  /-- OBJECT_TEARDOWN (R302): The front end tears down an object whose COUNT reached zero. -/
  | objectTeardown (object : Fin 65536)
  /-- MAILBOX_ALLOC (R308): Front end serves an ALLOC request and fills a DYNAMIC window. -/
  | mailboxAlloc (launch : Nat) (slot : Fin 64)
  /-- MAILBOX_FREE (R308): Front end serves a FREE request and empties a window. -/
  | mailboxFree (launch : Nat) (slot : Fin 64)
  /-- LINK_DISABLE (R312): LINK_CONTROL operation that disables a link. -/
  | linkDisable (r : NodeRef)
  /-- LINK_ENABLE (R312): LINK_CONTROL operation that starts link training. -/
  | linkEnable (r : NodeRef)
  /-- LINK_RETRAIN (R312): LINK_CONTROL operation that retrains an UP link. -/
  | linkRetrain (r : NodeRef)
  /-- ACK_PEER (R315): LINK_CONTROL operation that clears HELD and records the peer. -/
  | ackPeer (r : NodeRef)
  /-- SET_ID (R316): LINK_CONTROL operation that assigns the device ID. -/
  | setId (r : NodeRef)
  /-- ROUTE_LOAD (R313): LINK_CONTROL operation that loads route entries. -/
  | routeLoad (r : NodeRef)
  /-- FRAME_RECEIVE (R310): A link frame is decoded, acknowledged or NAKed. -/
  | frameReceive (link : Fin 48) (seq : BitVec 12) (corrected : Fin 17) (lane0 lane1 : BitVec 16) (bad : Bool) (ack : BitVec 12) (nak : Option (BitVec 12))
  /-- LINK_ACK_TIMEOUT (R311): No acknowledgement for 10 µs sends the link to recovery. -/
  | linkAckTimeout (link : Fin 48)
  /-- LANE_RETRAIN_TRIGGER (R311): A lane loses lock or exceeds its threshold and retrains. -/
  | laneRetrainTrigger (link : Fin 48) (lane : Fin 2) (lock : Bool)
  /-- LANE_RETRAIN_DONE (R311): A lane retrain passes or fails. -/
  | laneRetrainDone (link : Fin 48) (pass : Bool)
  /-- LANE_RETRY_TIMER (R311): A failed lane is retried each second. -/
  | laneRetryTimer (link : Fin 48)
  /-- LINK_TRAINING_DONE (R312): Link training or retraining passes or fails. -/
  | linkTrainingDone (link : Fin 48) (lanes : BitVec 2) (d : Discovery)
  /-- LINK_RETRY_TIMER (R312): A FAILED link is retried each second. -/
  | linkRetryTimer (link : Fin 48)
  /-- LINK_DRAIN_END (R312): A DISABLING link's drain ends and it is DISABLED. -/
  | linkDrainEnd (link : Fin 48)
  /-- DISCOVER_TIMER (R314): Every 100 ms an UP link sends DISCOVER. -/
  | discoverTimer (link : Fin 48)
  /-- DISCOVER (R314): A DISCOVER packet is received and peer data recorded. -/
  | discover (link : Fin 48) (d : Discovery)
  /-- PACKET_AGE_TIMEOUT (R321): A packet waiting 50 µs is dropped. -/
  | packetAgeTimeout (link : Fin 48) (k : Nat)
  /-- PUT (R331): Arriving PUT packet written at the target. -/
  | put (link : Fin 49) (p : EPkt)
  /-- GET (R331): Arriving GET packet read at the target. -/
  | get (link : Fin 49) (p : EPkt)
  /-- SIGNAL (R331): Arriving SIGNAL packet signals an event word. -/
  | signal (link : Fin 49) (p : EPkt)
  /-- BSIGNAL (R340): Job-set fan-out signal performed and forwarded. -/
  | bsignal (link : Fin 48) (p : EPkt)
  /-- ABORT (R339): Arriving job-set ABORT packet aborts the slot and is forwarded. -/
  | abort (link : Fin 48) (p : EPkt)
  /-- ESREL_ADD (R323): Arriving remote atomic add. -/
  | esrelAdd (link : Fin 49) (p : EPkt)
  /-- ESREL_SMIN (R323): Arriving remote signed minimum. -/
  | esrelSmin (link : Fin 49) (p : EPkt)
  /-- ESREL_SMAX (R323): Arriving remote signed maximum. -/
  | esrelSmax (link : Fin 49) (p : EPkt)
  /-- ESREL_UMIN (R323): Arriving remote unsigned minimum. -/
  | esrelUmin (link : Fin 49) (p : EPkt)
  /-- ESREL_UMAX (R323): Arriving remote unsigned maximum. -/
  | esrelUmax (link : Fin 49) (p : EPkt)
  /-- ESREL_AND (R323): Arriving remote AND. -/
  | esrelAnd (link : Fin 49) (p : EPkt)
  /-- ESREL_OR (R323): Arriving remote OR. -/
  | esrelOr (link : Fin 49) (p : EPkt)
  /-- ESREL_XOR (R323): Arriving remote XOR. -/
  | esrelXor (link : Fin 49) (p : EPkt)
  /-- SWAP (R323): Arriving remote exchange. -/
  | swap (link : Fin 49) (p : EPkt)
  /-- CAS (R323): Arriving remote compare-and-swap. -/
  | cas (link : Fin 49) (p : EPkt)
  /-- FETCHADD (R323): Arriving remote fetch-add. -/
  | fetchadd (link : Fin 49) (p : EPkt)
  /-- RSP (R327): Response arrives at the source port, completing or failing an operation. -/
  | rsp (link : Fin 49) (p : EPkt)
  /-- RESEND_TIMER (R335): An unanswered packet is resent after RESEND. -/
  | resendTimer (k : Nat)
  /-- GIVEUP_TIMER (R335): A packet unanswered past GIVEUP fails with DELIVERY_FAILURE. -/
  | giveupTimer (k : Nat)
  /-- TSYNC_PERIOD (R341): A fabric-synced device sends TSYNC_REQ upstream each period. -/
  | tsyncPeriod
  /-- TSYNC_REQ (R341): Upstream answers a time-sync request. -/
  | tsyncReq (link : Fin 48) (t1 : Word)
  /-- TSYNC_RSP (R341): A time-sync response yields a servo sample. -/
  | tsyncRsp (link : Fin 48) (t2 t3 : Word) (dist : BitVec 4) (locked : Bool)
  /-- JOIN (R336): JOB_SET operation that makes a slot ACTIVE. -/
  | join (r : NodeRef)
  /-- LEAVE (R336): JOB_SET operation that frees a slot after its operations. -/
  | leave (r : NodeRef)
  /-- EXPORT (R336): JOB_SET operation that creates an export. -/
  | jsExport (r : NodeRef)
  /-- UNEXPORT (R336): JOB_SET operation that invalidates an export. -/
  | unexport (r : NodeRef)
  /-- JOB_SET_ABORT (R336): JOB_SET operation that raises the abort. -/
  | jobSetAbort (r : NodeRef)
  /-- CLEAR (R337): JOB_SET operation that reactivates an ABORTED slot with a new epoch. -/
  | clear (r : NodeRef)
  /-- HREAD (R352): Host read of device memory. -/
  | hread (q : HostReq)
  /-- HWRITE (R352): Host write of device memory. -/
  | hwrite (q : HostReq)
  /-- HATOMIC_FETCHADD (R352): Host fetch-add, including object-table COUNT adds. -/
  | hatomicFetchadd (q : HostReq)
  /-- HATOMIC_SWAP (R352): Host atomic exchange. -/
  | hatomicSwap (q : HostReq)
  /-- HATOMIC_CAS (R352): Host compare-and-swap. -/
  | hatomicCas (q : HostReq)
  /-- HATOMIC_SIGNAL (R352): Host event signal. -/
  | hatomicSignal (q : HostReq)
  /-- DCPL (R355): Host completion of a device request arrives. -/
  | dcpl (rtag : BitVec 16) (status : BitVec 8) (slots : BitVec 5) (rsv : Bool) (data : BitVec 2048)
  /-- CREDIT (R349): Credit-return message arrives. -/
  | credit (zpkt dreq slots : BitVec 16) (rsv : Bool)
  /-- UC_CPL_TIMEOUT_EXPIRE (R355): A device request without completion fails. -/
  | ucCplTimeoutExpire (rtag : BitVec 16)
  /-- FLIT_RECEIVE (R358): A UCIe flit is checked and replayed on CRC failure. -/
  | flitReceive (ok : Bool)
  /-- SIDEBAND_RETRAIN_REQUEST (R356): Partner retrain request on the sideband starts a retrain. -/
  | sidebandRetrainRequest
  /-- UC_TRAINING_DONE (R356): UCIe training or retraining passes or fails. -/
  | ucTrainingDone (pass streaming qualified : Bool) (half : BitVec 4) (partner : BitVec 40)
  /-- UC_DISABLING_END (R356): DISABLING ends and the port is DISABLED. -/
  | ucDisablingEnd
  /-- UC_RETRY_TIMER (R356): A FAILED port retries training each second. -/
  | ucRetryTimer
  /-- UC_DISABLE (R357): UC_LINK_CTRL command that disables the port. -/
  | ucDisable
  /-- UC_ENABLE (R357): UC_LINK_CTRL command that starts training. -/
  | ucEnable
  /-- UC_RETRAIN (R357): UC_LINK_CTRL command that retrains the port. -/
  | ucRetrain
  /-- POWER_EPOCH_BOUNDARY (R363): Every 10 µs the power manager sets the next point and duty. -/
  | powerEpochBoundary
  /-- POWER_SAMPLE (R364): A 1 µs rail sample may apply the down rule. -/
  | powerSample (total r0 r1 r2 r3 : BitVec 32)
  /-- DROOP_DETECT (R368): A droop detector fires and the region's next cycle is stretched. -/
  | droopDetect (detector : Fin 96)
  /-- SENSOR_READ (R373): Thermal sensors are read every 10 µs. -/
  | sensorRead (sensor : Fin 64) (reading : BitVec 12)
  /-- HOT_HOLD_EXPIRE (R376): HOT_N's 1 ms minimum assertion ends. -/
  | hotHoldExpire
  /-- THERM_ALERT_ASSERT (R375): THERM_ALERT_N low for 2 µs applies ALERT_CAP. -/
  | thermAlertAssert (ns : Nat)
  /-- THERM_ALERT_DEASSERT (R375): THERM_ALERT_N high for 2 µs removes ALERT_CAP. -/
  | thermAlertDeassert (ns : Nat)
  /-- AVS_COMMAND_FAIL (R443): A core regulator fails to acknowledge or reports a fault. -/
  | avsCommandFail (region : Fin 4) (requested sensed : BitVec 12) (fault : Bool) (covers : Fin 71)
  /-- RAIL_OUT_OF_RANGE (R444): A main rail out of range for 1 µs resets the device. -/
  | railOutOfRange (ns : Nat)
  /-- SAMPLING_WINDOW_BOUNDARY (R437): Each 1 ms window updates last-window registers and DB_SAMPLE_SEQ. -/
  | samplingWindowBoundary (measured : BitVec 32) (v0 v1 v2 v3 : BitVec 12) (acts : List QueueAct)
  /-- CORE_SILENT (R386): A core silent to its block is taken offline. -/
  | coreSilent (core : Fin 192)
  /-- FE_MISMATCH (R388): Front-end lock-step mismatch restarts both from the journal. -/
  | feMismatch (held : List NodeRef)
  /-- FE_RESTART_DONE (R388): Front-end restart ends. -/
  | feRestartDone (fail0 fail1 : Bool)
  /-- RECOVERY_OVERRUN (R391): Recovery reported past FE_RECOVERY_LIMIT sets OVERRUN. -/
  | recoveryOverrun
  /-- OVERRUN_CLEAR (R391): OVERRUN clears after recovery is zero for 1 µs. -/
  | overrunClear
  /-- POWER_ON_RESET (R398): Rails reach range and reset is released, starting boot. -/
  | powerOnReset (i : BootInput)
  /-- RESET_N (R398): RESET_N low for 2 µs resets the device. -/
  | resetN (ns : Nat)
  /-- STAGE (R414): FW_UPDATE operation that writes and verifies an image. -/
  | stage (r : NodeRef)
  /-- SWITCH (R416): FW_UPDATE operation that restarts a processor on the other slot. -/
  | switch (r : NodeRef)
  /-- IMAGE_READY_TIMEOUT (R417): A switched image not ready in its pause is reverted. -/
  | imageReadyTimeout
  /-- COMMIT_SVN (R414): FW_UPDATE operation that blows SVN fuses. -/
  | commitSvn (r : NodeRef)
  /-- REVOKE (R414): FW_UPDATE operation that blows a key-slot fuse. -/
  | revoke (r : NodeRef)
  /-- ATTEST (R406): FW_UPDATE operation that signs an attestation report. -/
  | attest (r : NodeRef)
  /-- STORE_SETTINGS (R410): Commits a snapshot of the persistent registers. -/
  | storeSettings (r : NodeRef)
  /-- REVERT (R410): Writes committed values back into persistent registers. -/
  | revert (r : NodeRef)
  /-- SETTINGS_COMMIT_DONE (R411): A bank commit reads back valid. -/
  | settingsCommitDone
  /-- CALIBRATION_DUE (R418): A region's periodic calibration comes due. -/
  | calibrationDue (region : Fin 4)
  /-- CALIBRATION_START (R418): PM_CAL_CTRL.START begins calibration. -/
  | calibrationStart (kernel : Bool) (regions : BitVec 4)
  /-- NOP (R422): Chain frame with no action. -/
  | nop (f : Frame)
  /-- ENUMERATE (R423): Chain frame that assigns chain addresses. -/
  | enumerate (f : Frame)
  /-- CHAIN_READ (R422): Chain frame starting a register read and returning the previous one. -/
  | chainRead (ecc : Ecc) (f : Frame)
  /-- CHAIN_WRITE (R422): Chain frame writing a register. -/
  | chainWrite (recent : Bool) (f : Frame)
  /-- CHAIN_STATUS (R422): Chain frame returning MC_STATUS. -/
  | chainStatus (f : Frame)
  /-- CHAIN_FREEZE (R425): Chain frame that ices the device. -/
  | chainFreeze (f : Frame)
  /-- CHAIN_RESET (R398): Chain frame that resets the device. -/
  | chainReset (i : BootInput) (f : Frame)
  /-- PARK (R422): Chain frame that quiesces the device for rail removal. -/
  | park (f : Frame)
  /-- IMAGE (R422): Chain frame writing image bytes to the recovery buffer. -/
  | image (f : Frame)
  /-- IMAGE_DONE (R422): Chain frame staging the recovery buffer. -/
  | imageDone (f : Frame)
  /-- FREEZE_N (R425): FREEZE_N low for 2 µs ices the device. -/
  | freezeN (ns : Nat)
  /-- EXTEST (R433): TAP boundary-scan test instruction. -/
  | extest
  /-- IDCODE (R433): TAP instruction returning IDCODE. -/
  | idcode
  /-- SAMPLE_PRELOAD (R433): TAP boundary-scan sample instruction. -/
  | samplePreload
  /-- TAP_FREEZE (R433): TAP instruction icing the device. -/
  | tapFreeze
  /-- SCAN_SEL (R432): Selects a readout segment, unit and offset. -/
  | scanSel (v : Word) (recent : Bool)
  /-- SCAN_DATA (R432): Returns the selected word and advances OFFSET. -/
  | scanData (ecc : Ecc)
  /-- BYPASS (R433): TAP bypass instruction. -/
  | bypass
  /-- TIME_PPS_EDGE (R33): TIME_PPS edge accepted as a discipline sample or counted as glitch. -/
  | timePpsEdge (low high : Nat)
  /-- MT_SAMPLE_MISSED (R30): No sample for 1.1 periods moves LOCKED to HOLDOVER. -/
  | mtSampleMissed
  /-- MT_HOLDOVER_EXPIRE (R30): Holdover past MT_HOLDOVER_LIMIT moves to FAULT. -/
  | mtHoldoverExpire
  /-- MT_SET (R29): Loads the machine-time count. -/
  | mtSet (kernel : Bool) (v : Word)
  /-- MT_STEP (R29): Adds a signed step to machine time. -/
  | mtStep (kernel : Bool) (v : Word)
  /-- MT_CTRL_WRITE (R32): Changes the discipline source or enable. -/
  | mtCtrlWrite (kernel : Bool) (v : Word)
  /-- MT_UPSTREAM_WRITE (R32): Changes the fabric sync link. -/
  | mtUpstreamWrite (kernel : Bool) (v : Word)
  /-- MT_FREQ_TRIM_WRITE (R32): Sets the frequency trim and rate. -/
  | mtFreqTrimWrite (kernel : Bool) (v : Word)
  /-- PM_CAP_WRITE (R362): Sets the power cap, checked against LIQUID. -/
  | pmCapWrite (kernel : Bool) (v : Word)
  /-- PM_CLK_MODE_WRITE (R26): Sets fixed-frequency mode and point. -/
  | pmClkModeWrite (kernel : Bool) (v : Word)
  /-- RC_FIELD_READ (R12): A read that returns and clears an RC field. -/
  | rcFieldRead (off : BitVec 32)
  /-- REGISTER_WRITE (R11): Write to a register with no row of its own, by access code. -/
  | registerWrite (kernel : Bool) (off : BitVec 32) (v : Word)
  /-- INSTRUCTION_COMPLETION (R89): A fixed-latency instruction (SIMT result, scratchpad load, FLD, RHLD, TRD, MMA or SMMA accumulators final) completes and writes its result, clearing its scoreboard or in-flight state. -/
  | instructionCompletion (core : Fin 192) (slot : Fin 64) (k : Nat)
  /-- HOST_EVENT_POLL (R305): Every 2 µs the front end re-reads a host-window event word watched by an EVENT_WAIT node. -/
  | hostEventPoll (r : NodeRef)
  /-- LANE_REPAIR (R356): A UCIe lane repair with a module's redundant lanes sends the ACTIVE port to RETRAINING. -/
  | laneRepair (lanes : BitVec 8)
  /-- VDD_IO_LOSS (R444): VDD_IO falls below its range, which resets everything and places the chain stage in passive bypass. -/
  | vddIoLoss
  /-- RESET_N_RELEASE (R398): RESET_N rises after a held reset, STRAP_BOOT is sampled and the boot sequence starts. -/
  | resetNRelease (i : BootInput)
  /-- CALIBRATION_DONE (R418): A region's live calibration ends, its BUSY bit clears and its items return to use. -/
  | calibrationDone (region : Fin 4) (monitors : Nat) (sensors : List (Fin 64)) (detectors : List (Fin 96))
  /-- DOMAIN_RESET_DONE (R234): The domain-fatal reset completes its last step, after which host requests and arriving Esrel operations are no longer answered TARGET_RESET. -/
  | domainResetDone
deriving DecidableEq, Repr

end Sys2Proof
end

