-- ==== Sys2Proof/Decode.lean ====
section
/-!
DEFINITION. Decode.lean: what the words of the opcode table spell, and the tray instruction words of R42 to R50, R65, R67, R82,
R152, R202, R239, R247 and R325: their decoder, total on any word, and their encoder.
-/
namespace Sys2Proof

/-- The command that a word spells by the table's bits. The table gives no row any bits, so no word spells a command. -/
def decodeTableWord (_nbits _w : Nat) : Option Instr := none

/-- OPCODE of CLASS 0 (SIMTI). -/
def decodeSimti (op : BitVec 8) (o : TrayOp) : Option Instr :=
  match op with
  | 0x00#8 => some (.add o)
  | 0x01#8 => some (.sub o)
  | 0x02#8 => some (.mul o)
  | 0x03#8 => some (.mulhi o)
  | 0x04#8 => some (.mulwide o)
  | 0x08#8 => some (.and o)
  | 0x09#8 => some (.or o)
  | 0x0a#8 => some (.xor o)
  | 0x0b#8 => some (.not o)
  | 0x0c#8 => some (.shl o)
  | 0x0d#8 => some (.shra o)
  | 0x0e#8 => some (.shrl o)
  | 0x10#8 => some (.min o)
  | 0x11#8 => some (.max o)
  | 0x12#8 => some (.setp o)
  | 0x13#8 => some (.sel o)
  | 0x14#8 => some (.mov o)
  | 0x18#8 => some (.ext8 o)
  | 0x19#8 => some (.ext16 o)
  | 0x1a#8 => some (.ext64 o)
  | 0x1b#8 => some (.popc o)
  | 0x1c#8 => some (.clz o)
  | _ => none

/-- OPCODE of CLASS 1 (SIMTF). -/
def decodeSimtf (op : BitVec 8) (o : TrayOp) : Option Instr :=
  match op with
  | 0x00#8 => some (.fadd o)
  | 0x01#8 => some (.fsub o)
  | 0x02#8 => some (.fmul o)
  | 0x03#8 => some (.ffma o)
  | 0x04#8 => some (.fmin o)
  | 0x05#8 => some (.fmax o)
  | 0x06#8 => some (.fabs o)
  | 0x07#8 => some (.fneg o)
  | 0x08#8 => some (.fsetp o)
  | 0x10#8 => some (.cvt o)
  | 0x20#8 => some (.rcp o)
  | 0x21#8 => some (.rsq o)
  | 0x22#8 => some (.ex2 o)
  | 0x23#8 => some (.lg2 o)
  | _ => none

/-- OPCODE of CLASS 2 (CTRL). -/
def decodeCtrl (op : BitVec 8) (o : TrayOp) : Option Instr :=
  match op with
  | 0x00#8 => some (.br o)
  | 0x01#8 => some (.brd o)
  | 0x02#8 => some (.yield o)
  | 0x03#8 => some (.exit o)
  | 0x04#8 => some (.plop o)
  | 0x05#8 => some (.vote o)
  | _ => none

/-- OPCODE of CLASS 3 (MEM). -/
def decodeMem (op : BitVec 8) (o : TrayOp) : Option Instr :=
  match op with
  | 0x00#8 => some (.ld o)
  | 0x01#8 => some (.lds o)
  | 0x02#8 => some (.st o)
  | 0x03#8 => some (.sld o)
  | 0x04#8 => some (.slds o)
  | 0x05#8 => some (.sst o)
  | 0x06#8 => some (.ldres o)
  | 0x07#8 => some (.stc o)
  | 0x30#8 => some (.dmapost o)
  | 0x31#8 => some (.rpost o)
  | _ => none

/-- OPCODE of CLASS 4 (ATOM). -/
def decodeAtom (op : BitVec 8) (o : TrayOp) : Option Instr :=
  match op with
  | 0x00#8 => some (.atomAdd o)
  | 0x01#8 => some (.atomFetchadd o)
  | 0x02#8 => some (.atomSmin o)
  | 0x03#8 => some (.atomSminFetch o)
  | 0x04#8 => some (.atomSmax o)
  | 0x05#8 => some (.atomSmaxFetch o)
  | 0x06#8 => some (.atomUmin o)
  | 0x07#8 => some (.atomUminFetch o)
  | 0x08#8 => some (.atomUmax o)
  | 0x09#8 => some (.atomUmaxFetch o)
  | 0x0a#8 => some (.atomAnd o)
  | 0x0b#8 => some (.atomAndFetch o)
  | 0x0c#8 => some (.atomOr o)
  | 0x0d#8 => some (.atomOrFetch o)
  | 0x0e#8 => some (.atomXor o)
  | 0x0f#8 => some (.atomXorFetch o)
  | 0x10#8 => some (.atomFadd o)
  | 0x11#8 => some (.fetchfadd o)
  | 0x13#8 => some (.atomSwap o)
  | 0x15#8 => some (.atomCas o)
  | 0x17#8 => some (.locktry o)
  | _ => none

/-- OPCODE of CLASS 5 (SYNC). -/
def decodeSync (op : BitVec 8) (o : TrayOp) : Option Instr :=
  match op with
  | 0x00#8 => some (.fence o)
  | 0x01#8 => some (.cinc o)
  | 0x02#8 => some (.cwait o)
  | 0x03#8 => some (.cread o)
  | 0x04#8 => some (.cset o)
  | 0x05#8 => some (.bar o)
  | 0x06#8 => some (.ewait o)
  | 0x07#8 => some (.esig o)
  | 0x08#8 => some (.ralign o)
  | 0x09#8 => some (.rftest o)
  | _ => none

/-- OPCODE of CLASS 6 (MOP). -/
def decodeMop (op : BitVec 8) (o : TrayOp) : Option Instr :=
  match op with
  | 0x00#8 => some (.mma o)
  | 0x01#8 => some (.smma o)
  | 0x02#8 => some (.fld o)
  | 0x03#8 => some (.rhld o)
  | 0x04#8 => some (.rhclr o)
  | 0x05#8 => some (.trd o)
  | 0x06#8 => some (.tqdrop o)
  | 0x07#8 => some (.aclr o)
  | _ => none

/-- OPCODE of CLASS 7 (VEC). -/
def decodeVec (op : BitVec 8) (o : TrayOp) : Option Instr :=
  match op with
  | 0x00#8 => some (.vcvt o)
  | 0x01#8 => some (.vadd o)
  | 0x02#8 => some (.vsub o)
  | 0x03#8 => some (.vmul o)
  | 0x04#8 => some (.vfma o)
  | 0x05#8 => some (.vmin o)
  | 0x06#8 => some (.vmax o)
  | 0x07#8 => some (.vabs o)
  | 0x08#8 => some (.vneg o)
  | 0x09#8 => some (.vdiv o)
  | 0x0a#8 => some (.vsqrt o)
  | 0x0b#8 => some (.vcmp o)
  | 0x0c#8 => some (.vsel o)
  | 0x10#8 => some (.vand o)
  | 0x11#8 => some (.vor o)
  | 0x12#8 => some (.vxor o)
  | 0x13#8 => some (.vshl o)
  | 0x14#8 => some (.vshra o)
  | 0x15#8 => some (.vshrl o)
  | 0x20#8 => some (.vrsum o)
  | 0x21#8 => some (.vrmin o)
  | 0x22#8 => some (.vrmax o)
  | 0x30#8 => some (.tscale o)
  | 0x31#8 => some (.tcopy o)
  | 0x40#8 => some (.vldt o)
  | 0x41#8 => some (.vfun o)
  | 0x42#8 => some (.vder o)
  | 0x50#8 => some (.expmax o)
  | 0x51#8 => some (.slice o)
  | 0x52#8 => some (.recomb o)
  | 0x53#8 => some (.rclose o)
  | _ => none

/-- The instruction of a CLASS and an OPCODE; none for a reserved one (R44). -/
def trayInstr (cls : BitVec 4) (op : BitVec 8) (o : TrayOp) : Option Instr :=
  match cls with
  | 0#4 => decodeSimti op o
  | 1#4 => decodeSimtf op o
  | 2#4 => decodeCtrl op o
  | 3#4 => decodeMem op o
  | 4#4 => decodeAtom op o
  | 5#4 => decodeSync op o
  | 6#4 => decodeMop op o
  | 7#4 => decodeVec op o
  | _ => none

/-- The common fields of a tray instruction word (R42); where it issues, its literal and what the code says of its operands
come from `at_`. -/
def trayFields (at_ : TrayOp) (w : BitVec 64) : TrayOp :=
  { at_ with
    pneg := w.getLsbD 51, pred := ⟨(w.extractLsb' 48 3).toNat, (w.extractLsb' 48 3).isLt⟩, dst := w.extractLsb' 40 8, srcA := w.extractLsb' 32 8
    srcB := w.extractLsb' 24 8, srcC := w.extractLsb' 16 8, keep := w.extractLsb' 13 3, low := w.extractLsb' 0 13 }

/-- The decoder: the instruction that a 64-bit word is, at a place. -/
def decodeTray (at_ : TrayOp) (w : BitVec 64) : Option Instr :=
  trayInstr (w.extractLsb' 60 4) (w.extractLsb' 52 8) (trayFields at_ w)

/-- CLASS, OPCODE and operands of a tray instruction; none for a command that no tray issues. -/
def trayCode (i : Instr) : Option (BitVec 4 × BitVec 8 × TrayOp) :=
  match i with
  | .add o => some (0#4, 0x00#8, o)
  | .sub o => some (0#4, 0x01#8, o)
  | .mul o => some (0#4, 0x02#8, o)
  | .mulhi o => some (0#4, 0x03#8, o)
  | .mulwide o => some (0#4, 0x04#8, o)
  | .and o => some (0#4, 0x08#8, o)
  | .or o => some (0#4, 0x09#8, o)
  | .xor o => some (0#4, 0x0a#8, o)
  | .not o => some (0#4, 0x0b#8, o)
  | .shl o => some (0#4, 0x0c#8, o)
  | .shra o => some (0#4, 0x0d#8, o)
  | .shrl o => some (0#4, 0x0e#8, o)
  | .min o => some (0#4, 0x10#8, o)
  | .max o => some (0#4, 0x11#8, o)
  | .setp o => some (0#4, 0x12#8, o)
  | .sel o => some (0#4, 0x13#8, o)
  | .mov o => some (0#4, 0x14#8, o)
  | .ext8 o => some (0#4, 0x18#8, o)
  | .ext16 o => some (0#4, 0x19#8, o)
  | .ext64 o => some (0#4, 0x1a#8, o)
  | .popc o => some (0#4, 0x1b#8, o)
  | .clz o => some (0#4, 0x1c#8, o)
  | .fadd o => some (1#4, 0x00#8, o)
  | .fsub o => some (1#4, 0x01#8, o)
  | .fmul o => some (1#4, 0x02#8, o)
  | .ffma o => some (1#4, 0x03#8, o)
  | .fmin o => some (1#4, 0x04#8, o)
  | .fmax o => some (1#4, 0x05#8, o)
  | .fabs o => some (1#4, 0x06#8, o)
  | .fneg o => some (1#4, 0x07#8, o)
  | .fsetp o => some (1#4, 0x08#8, o)
  | .cvt o => some (1#4, 0x10#8, o)
  | .rcp o => some (1#4, 0x20#8, o)
  | .rsq o => some (1#4, 0x21#8, o)
  | .ex2 o => some (1#4, 0x22#8, o)
  | .lg2 o => some (1#4, 0x23#8, o)
  | .br o => some (2#4, 0x00#8, o)
  | .brd o => some (2#4, 0x01#8, o)
  | .yield o => some (2#4, 0x02#8, o)
  | .exit o => some (2#4, 0x03#8, o)
  | .plop o => some (2#4, 0x04#8, o)
  | .vote o => some (2#4, 0x05#8, o)
  | .ld o => some (3#4, 0x00#8, o)
  | .lds o => some (3#4, 0x01#8, o)
  | .st o => some (3#4, 0x02#8, o)
  | .sld o => some (3#4, 0x03#8, o)
  | .slds o => some (3#4, 0x04#8, o)
  | .sst o => some (3#4, 0x05#8, o)
  | .ldres o => some (3#4, 0x06#8, o)
  | .stc o => some (3#4, 0x07#8, o)
  | .dmapost o => some (3#4, 0x30#8, o)
  | .rpost o => some (3#4, 0x31#8, o)
  | .atomAdd o => some (4#4, 0x00#8, o)
  | .atomFetchadd o => some (4#4, 0x01#8, o)
  | .atomSmin o => some (4#4, 0x02#8, o)
  | .atomSminFetch o => some (4#4, 0x03#8, o)
  | .atomSmax o => some (4#4, 0x04#8, o)
  | .atomSmaxFetch o => some (4#4, 0x05#8, o)
  | .atomUmin o => some (4#4, 0x06#8, o)
  | .atomUminFetch o => some (4#4, 0x07#8, o)
  | .atomUmax o => some (4#4, 0x08#8, o)
  | .atomUmaxFetch o => some (4#4, 0x09#8, o)
  | .atomAnd o => some (4#4, 0x0a#8, o)
  | .atomAndFetch o => some (4#4, 0x0b#8, o)
  | .atomOr o => some (4#4, 0x0c#8, o)
  | .atomOrFetch o => some (4#4, 0x0d#8, o)
  | .atomXor o => some (4#4, 0x0e#8, o)
  | .atomXorFetch o => some (4#4, 0x0f#8, o)
  | .atomFadd o => some (4#4, 0x10#8, o)
  | .fetchfadd o => some (4#4, 0x11#8, o)
  | .atomSwap o => some (4#4, 0x13#8, o)
  | .atomCas o => some (4#4, 0x15#8, o)
  | .locktry o => some (4#4, 0x17#8, o)
  | .fence o => some (5#4, 0x00#8, o)
  | .cinc o => some (5#4, 0x01#8, o)
  | .cwait o => some (5#4, 0x02#8, o)
  | .cread o => some (5#4, 0x03#8, o)
  | .cset o => some (5#4, 0x04#8, o)
  | .bar o => some (5#4, 0x05#8, o)
  | .ewait o => some (5#4, 0x06#8, o)
  | .esig o => some (5#4, 0x07#8, o)
  | .ralign o => some (5#4, 0x08#8, o)
  | .rftest o => some (5#4, 0x09#8, o)
  | .mma o => some (6#4, 0x00#8, o)
  | .smma o => some (6#4, 0x01#8, o)
  | .fld o => some (6#4, 0x02#8, o)
  | .rhld o => some (6#4, 0x03#8, o)
  | .rhclr o => some (6#4, 0x04#8, o)
  | .trd o => some (6#4, 0x05#8, o)
  | .tqdrop o => some (6#4, 0x06#8, o)
  | .aclr o => some (6#4, 0x07#8, o)
  | .vcvt o => some (7#4, 0x00#8, o)
  | .vadd o => some (7#4, 0x01#8, o)
  | .vsub o => some (7#4, 0x02#8, o)
  | .vmul o => some (7#4, 0x03#8, o)
  | .vfma o => some (7#4, 0x04#8, o)
  | .vmin o => some (7#4, 0x05#8, o)
  | .vmax o => some (7#4, 0x06#8, o)
  | .vabs o => some (7#4, 0x07#8, o)
  | .vneg o => some (7#4, 0x08#8, o)
  | .vdiv o => some (7#4, 0x09#8, o)
  | .vsqrt o => some (7#4, 0x0a#8, o)
  | .vcmp o => some (7#4, 0x0b#8, o)
  | .vsel o => some (7#4, 0x0c#8, o)
  | .vand o => some (7#4, 0x10#8, o)
  | .vor o => some (7#4, 0x11#8, o)
  | .vxor o => some (7#4, 0x12#8, o)
  | .vshl o => some (7#4, 0x13#8, o)
  | .vshra o => some (7#4, 0x14#8, o)
  | .vshrl o => some (7#4, 0x15#8, o)
  | .vrsum o => some (7#4, 0x20#8, o)
  | .vrmin o => some (7#4, 0x21#8, o)
  | .vrmax o => some (7#4, 0x22#8, o)
  | .tscale o => some (7#4, 0x30#8, o)
  | .tcopy o => some (7#4, 0x31#8, o)
  | .vldt o => some (7#4, 0x40#8, o)
  | .vfun o => some (7#4, 0x41#8, o)
  | .vder o => some (7#4, 0x42#8, o)
  | .expmax o => some (7#4, 0x50#8, o)
  | .slice o => some (7#4, 0x51#8, o)
  | .recomb o => some (7#4, 0x52#8, o)
  | .rclose o => some (7#4, 0x53#8, o)
  | _ => none

/-- The encoder: the word of R42 for a CLASS, an OPCODE and operands. -/
def trayWord (cls : BitVec 4) (op : BitVec 8) (o : TrayOp) : BitVec 64 :=
  cls ++ op ++ BitVec.ofBool o.pneg ++ BitVec.ofNat 3 o.pred.val ++ o.body

/-- The word of a tray instruction. -/
def encodeTray (i : Instr) : Option (BitVec 64) := (trayCode i).map (fun c => trayWord c.1 c.2.1 c.2.2)

end Sys2Proof
end

