-- ==== Sys2Proof/Config.lean ====
section
/-!
DEFINITION. Config.lean: the values the manual leaves open. Each is a constant without a body, so that no proof
can lean on a value of it; the assumption log's entries 1 to 9 name them.
-/
namespace Sys2Proof

/-- Which of the results that R48 allows (error of at most one unit in the last place, a fixed function of the
input) a special function gives: an index into the list of the allowed results. `fn` is the SIMTF opcode. -/
opaque Config.specialPick (fn : Nat) (x : BitVec 32) : Nat

/-- What a lane register of a newly placed tray holds before anything has written it: the manual states no value.
`seed` is the number of the placement. -/
opaque Config.freeLane (seed reg lane : Nat) : BitVec 32

/-- What a predicate register of a newly placed tray holds before anything has written it. -/
opaque Config.freePred (seed p : Nat) : BitVec 32

/-- What MTIME_HI reads in a lane that has not yet read MTIME_LO (R43). -/
opaque Config.freeMtimeHi (seed lane : Nat) : BitVec 32

/-- Where two lanes of one store write the same byte, R235 lets either value stand: the pieces of the store are
written in rising order of this key. -/
opaque Config.storeOrder (serial piece : Nat) : Nat

/-- Which lanes of an access through a local-SRAM window have been performed before one beyond the bound ends it
(R452 leaves it open). -/
opaque Config.sramDone (serial lane : Nat) : Bool

/-- The ENERGY word of a completion record (R283, R372): the manual gives no rule by which the nodes of a queue share a
window's figure, and the record is written before the figure of the window then open is known. -/
opaque Config.nodeEnergy (queue seq node time : Nat) : BitVec 64

/-- The bytes of memory after a domain reset left them undefined (R234): by the number of the reset and the address. -/
opaque Config.freeByte (reset addr : Nat) : BitVec 8

/-- The cause that the record of a job-set abort names when a containment raised it (R387): R383 lists no code for it. -/
opaque Config.containCause (slot : Nat) : BitVec 64

/-- Which of the two neighbours a register takes when a formula gives a value between two steps of it and the manual states
no rounding: trims and the reported offset (R35), caps (R374), energies (R371) and slowdowns (R291). -/
opaque Config.roundUp (num : Int) (den : Nat) : Bool

/-- What MT_FREQ_TRIM holds after the servo when the formula of R35 gives a value outside its 32 bits. -/
opaque Config.trimOutside (v : Int) : BitVec 32

/-- What a register that counts clock cycles shows at a read (IDLE_ACTIVE, DUAL_SAME, BUSY of the vector engine, WAIT, LENT):
the model keeps no cycles. `read` is the number of the read. -/
opaque Config.cycles (read off lo : Nat) : Nat

/-- How many of a slice's directory sets are full (L2_DIR_STATUS): the manual states no map from a line to its directory set. -/
opaque Config.dirFull (slice read : Nat) : Nat

/-- What a sync counter of a region's core holds after a shutdown has lost its value (R19). -/
opaque Config.lostCounter (region time core index : Nat) : BitVec 32

/-- A word of a scan segment whose layout the manual does not state (R430), by the freeze and its place. -/
opaque Config.scanWord (incarn time seg unit off : Nat) : BitVec 64

/-- SHA-384, the verification of the two signatures of an image, and the hashes fused in a key slot (R402, R403): standard
algorithms and manufactured values that the manual names and does not restate. -/
opaque Config.sha384 (m : List (BitVec 8)) : BitVec 384
opaque Config.ecdsaOk (key msg sig : List (BitVec 8)) : Bool
opaque Config.lmsOk (key msg sig : List (BitVec 8)) : Bool
opaque Config.fusedHash (slot : Nat) (lms : Bool) : BitVec 384

/-- The reason of R415, less one, that an image whose body does not match its digest is refused with: R415 lists none. -/
opaque Config.digestReason : Nat

/-- The signatures of an attestation report by the device's keys (R405, R406), by middle tree and leaf, and the certificate
chain of the identity sectors. -/
opaque Config.ecdsaSign (msg : List (BitVec 8)) : List (BitVec 8)
opaque Config.hssSign (middle leaf : Nat) (msg : List (BitVec 8)) : List (BitVec 8)
opaque Config.certs : List (BitVec 8)

/-- SHA-384 of a settings bank, whose byte layout the manual does not give (R406, R409). -/
opaque Config.bankDigest (bank : List Nat) : BitVec 384

/-- The cause in the FRONT_END record of a switched image that did not start (R417): R383 lists no code for it. -/
opaque Config.switchCause : BitVec 64

end Sys2Proof
end

