-- ==== Sys2Proof/Machine/Regs.lean ====
section
/-!
DEFINITION. Machine/Regs.lean: every register map of the manual (R9 to R11): its unit, its INDEX under R10 in
reading order, its copies, and its fields with their places, access codes and reset values. A field whose reset
value the manual gives as X or Fused resets to zero here (log entry 2).
-/
namespace Sys2Proof.Machine

/-- The access codes of R11. -/
inductive Acc where
  | ro | rw | w1c | w1s | rc | wo | krw
deriving DecidableEq, Repr

/-- A field of a register: the register's unit and INDEX, the field's place, and the whole register's reset value. -/
structure Fld where
  unit : Nat
  index : Nat
  lo : Nat
  len : Nat
  rst : Nat
deriving DecidableEq, Repr

/-- A field in the register table. -/
structure FieldDef where
  lo : Nat
  len : Nat
  acc : Acc
deriving DecidableEq, Repr

/-- A register map: `copies` registers of consecutive INDEX values from `index` on. -/
structure RegDef where
  index : Nat
  copies : Nat
  rst : Nat
  fields : List FieldDef
deriving DecidableEq, Repr

def Fld.FE_CARVEOUT_BASE_BASE : Fld := { unit := 0, index := 0, lo := 0, len := 48, rst := 0 }
def Fld.FE_CARVEOUT_SIZE_BYTES : Fld := { unit := 0, index := 1, lo := 0, len := 48, rst := 2147483648 }
def Fld.MT_NOW_COUNT : Fld := { unit := 14, index := 0, lo := 0, len := 64, rst := 0 }
def Fld.MT_CTRL_SOURCE : Fld := { unit := 14, index := 1, lo := 0, len := 2, rst := 0 }
def Fld.MT_CTRL_ENABLE : Fld := { unit := 14, index := 1, lo := 2, len := 1, rst := 0 }
def Fld.MT_STATUS_STATE : Fld := { unit := 14, index := 2, lo := 0, len := 3, rst := 32 }
def Fld.MT_STATUS_USING_FABRIC : Fld := { unit := 14, index := 2, lo := 3, len := 1, rst := 32 }
def Fld.MT_STATUS_FAULT_SEEN : Fld := { unit := 14, index := 2, lo := 4, len := 1, rst := 32 }
def Fld.MT_STATUS_STEPPABLE : Fld := { unit := 14, index := 2, lo := 5, len := 1, rst := 32 }
def Fld.MT_STATUS_LAST_OFFSET : Fld := { unit := 14, index := 2, lo := 32, len := 32, rst := 32 }
def Fld.MT_SET_VALUE : Fld := { unit := 14, index := 3, lo := 0, len := 64, rst := 0 }
def Fld.MT_STEP_OFFSET : Fld := { unit := 14, index := 4, lo := 0, len := 64, rst := 0 }
def Fld.MT_RATE_RATE : Fld := { unit := 14, index := 5, lo := 0, len := 32, rst := 0 }
def Fld.MT_FREQ_TRIM_TRIM : Fld := { unit := 14, index := 6, lo := 0, len := 32, rst := 0 }
def Fld.MT_PPS_CAPTURE_COUNT : Fld := { unit := 14, index := 7, lo := 0, len := 64, rst := 0 }
def Fld.MT_PPS_GLITCH_COUNT : Fld := { unit := 14, index := 8, lo := 0, len := 32, rst := 0 }
def Fld.MT_UPSTREAM_LINK : Fld := { unit := 14, index := 9, lo := 0, len := 6, rst := 0 }
def Fld.MT_UPSTREAM_VALID : Fld := { unit := 14, index := 9, lo := 6, len := 1, rst := 0 }
def Fld.MT_SYNC_PERIOD_PERIOD : Fld := { unit := 14, index := 10, lo := 0, len := 32, rst := 1000000 }
def Fld.MT_HOLDOVER_LIMIT_LIMIT : Fld := { unit := 14, index := 11, lo := 0, len := 64, rst := 10000000000 }
def Fld.DB_TRAY_CTRL_SLOT : Fld := { unit := 13, index := 0, lo := 0, len := 6, rst := 0 }
def Fld.DB_TRAY_CTRL_CMD : Fld := { unit := 13, index := 0, lo := 8, len := 2, rst := 0 }
def Fld.DB_TRAY_HALTED_HALTED : Fld := { unit := 13, index := 1, lo := 0, len := 64, rst := 0 }
def Fld.DB_TRAY_STATUS_STEP_DONE : Fld := { unit := 13, index := 2, lo := 0, len := 1, rst := 0 }
def Fld.DB_TRAY_STATUS_NO_EFFECT : Fld := { unit := 13, index := 2, lo := 1, len := 1, rst := 0 }
def Fld.DB_TRAY_STATUS_PATHS : Fld := { unit := 13, index := 2, lo := 8, len := 6, rst := 0 }
def Fld.DB_TRAY_STATUS_PC : Fld := { unit := 13, index := 2, lo := 16, len := 32, rst := 0 }
def Fld.DB_TRAY_MASK_RUNNING : Fld := { unit := 13, index := 3, lo := 0, len := 32, rst := 0 }
def Fld.DB_TRAY_MASK_LIVE : Fld := { unit := 13, index := 3, lo := 32, len := 32, rst := 0 }
def Fld.CO_PATH_SWITCH_SC_FAIL : Fld := { unit := 2, index := 0, lo := 0, len := 16, rst := 0 }
def Fld.CO_PATH_SWITCH_LOCK_FAIL : Fld := { unit := 2, index := 0, lo := 16, len := 16, rst := 0 }
def Fld.CO_PATH_SWITCH_YIELD : Fld := { unit := 2, index := 0, lo := 32, len := 16, rst := 0 }
def Fld.CO_PATH_SWITCH_SLICE : Fld := { unit := 2, index := 0, lo := 48, len := 16, rst := 0 }
def Fld.CO_ISSUE_STATS_DEMOTE : Fld := { unit := 2, index := 1, lo := 0, len := 16, rst := 0 }
def Fld.CO_ISSUE_STATS_PROMOTE : Fld := { unit := 2, index := 1, lo := 16, len := 16, rst := 0 }
def Fld.CO_ISSUE_STATS_DUAL_SAME : Fld := { unit := 2, index := 1, lo := 32, len := 16, rst := 0 }
def Fld.CO_ISSUE_STATS_IDLE_ACTIVE : Fld := { unit := 2, index := 1, lo := 48, len := 16, rst := 0 }
def Fld.CO_RF_ERRORS_CORRECTED : Fld := { unit := 2, index := 2, lo := 0, len := 32, rst := 0 }
def Fld.CO_RF_ERRORS_UNCORRECTABLE : Fld := { unit := 2, index := 2, lo := 32, len := 16, rst := 0 }
def Fld.CO_MX_STATUS_SET0_STATE : Fld := { unit := 2, index := 3, lo := 0, len := 2, rst := 0 }
def Fld.CO_MX_STATUS_SET0_OWNER : Fld := { unit := 2, index := 3, lo := 2, len := 6, rst := 0 }
def Fld.CO_MX_STATUS_SET1_STATE : Fld := { unit := 2, index := 3, lo := 8, len := 2, rst := 0 }
def Fld.CO_MX_STATUS_SET1_OWNER : Fld := { unit := 2, index := 3, lo := 10, len := 6, rst := 0 }
def Fld.CO_MX_STATUS_TQ_STATE : Fld := { unit := 2, index := 3, lo := 16, len := 8, rst := 0 }
def Fld.CO_MX_STATUS_RH_VALID : Fld := { unit := 2, index := 3, lo := 24, len := 8, rst := 0 }
def Fld.CO_MX_ACTIVITY_BUSY : Fld := { unit := 2, index := 4, lo := 0, len := 32, rst := 0 }
def Fld.CO_MX_ACTIVITY_SUGAR : Fld := { unit := 2, index := 4, lo := 32, len := 32, rst := 0 }
def Fld.CO_MX_SUGAR_CTRL_TAIL : Fld := { unit := 2, index := 5, lo := 0, len := 8, rst := 255 }
def Fld.CO_MX_ERRORS_CORRECTED : Fld := { unit := 2, index := 6, lo := 0, len := 16, rst := 0 }
def Fld.CO_MX_ERRORS_UNCORRECTABLE : Fld := { unit := 2, index := 6, lo := 16, len := 16, rst := 0 }
def Fld.CO_MX_ERRORS_DISCARDS : Fld := { unit := 2, index := 6, lo := 32, len := 16, rst := 0 }
def Fld.CO_CRUMB_OWNER_CONTEXT : Fld := { unit := 2, index := 7, lo := 0, len := 6, rst := 0 }
def Fld.CO_CRUMB_OWNER_VALID : Fld := { unit := 2, index := 7, lo := 6, len := 1, rst := 0 }
def Fld.CO_CRUMB_OWNER_SAT_OVF : Fld := { unit := 2, index := 7, lo := 7, len := 1, rst := 0 }
def Fld.CO_CRUMB_OWNER_FLUSH_OVF : Fld := { unit := 2, index := 7, lo := 8, len := 1, rst := 0 }
def Fld.CO_CRUMB_OWNER_CLIP_OVF : Fld := { unit := 2, index := 7, lo := 9, len := 1, rst := 0 }
def Fld.CO_CRUMB_OWNER_LAUNCH : Fld := { unit := 2, index := 7, lo := 32, len := 32, rst := 0 }
def Fld.CO_CRUMB_SAT_COUNT : Fld := { unit := 2, index := 11, lo := 0, len := 48, rst := 0 }
def Fld.CO_CRUMB_FLUSH_COUNT : Fld := { unit := 2, index := 15, lo := 0, len := 48, rst := 0 }
def Fld.CO_CRUMB_CLIP_COUNT : Fld := { unit := 2, index := 19, lo := 0, len := 48, rst := 0 }
def Fld.CO_VE_STATUS_QUEUE : Fld := { unit := 2, index := 23, lo := 0, len := 4, rst := 0 }
def Fld.CO_VE_STATUS_HEAD_WAIT : Fld := { unit := 2, index := 23, lo := 4, len := 1, rst := 0 }
def Fld.CO_VE_STATUS_FWD_VALID : Fld := { unit := 2, index := 23, lo := 8, len := 4, rst := 0 }
def Fld.CO_VE_STATUS_DER_VALID : Fld := { unit := 2, index := 23, lo := 12, len := 4, rst := 0 }
def Fld.CO_VE_TABLE_TAG_TAG : Fld := { unit := 2, index := 24, lo := 0, len := 48, rst := 0 }
def Fld.CO_VE_ACTIVITY_BUSY : Fld := { unit := 2, index := 25, lo := 0, len := 32, rst := 0 }
def Fld.CO_VE_ACTIVITY_CROSS : Fld := { unit := 2, index := 25, lo := 32, len := 32, rst := 0 }
def Fld.CO_VE_ERRORS_CORRECTED : Fld := { unit := 2, index := 26, lo := 0, len := 16, rst := 0 }
def Fld.CO_VE_ERRORS_UNCORRECTABLE : Fld := { unit := 2, index := 26, lo := 16, len := 16, rst := 0 }
def Fld.CO_VE_INVALID_COUNT : Fld := { unit := 2, index := 27, lo := 0, len := 48, rst := 0 }
def Fld.CO_VE_INVALID_OVF : Fld := { unit := 2, index := 27, lo := 48, len := 1, rst := 0 }
def Fld.CO_VE_OVERFLOW_COUNT : Fld := { unit := 2, index := 31, lo := 0, len := 48, rst := 0 }
def Fld.CO_VE_OVERFLOW_OVF : Fld := { unit := 2, index := 31, lo := 48, len := 1, rst := 0 }
def Fld.CO_VE_UNDERFLOW_COUNT : Fld := { unit := 2, index := 35, lo := 0, len := 48, rst := 0 }
def Fld.CO_VE_UNDERFLOW_OVF : Fld := { unit := 2, index := 35, lo := 48, len := 1, rst := 0 }
def Fld.BK_DMA_QUEUE_DEPTH : Fld := { unit := 3, index := 0, lo := 0, len := 6, rst := 0 }
def Fld.BK_DMA_QUEUE_BUSY : Fld := { unit := 3, index := 0, lo := 6, len := 1, rst := 0 }
def Fld.BK_DMA_QUEUE_MODE : Fld := { unit := 3, index := 0, lo := 7, len := 2, rst := 0 }
def Fld.BK_DMA_XPOSE_TILES : Fld := { unit := 3, index := 1, lo := 0, len := 32, rst := 0 }
def Fld.BK_DMA_XPOSE_FAILED : Fld := { unit := 3, index := 1, lo := 32, len := 16, rst := 0 }
def Fld.CO_L1_STATS_HITS : Fld := { unit := 2, index := 39, lo := 0, len := 32, rst := 0 }
def Fld.CO_L1_STATS_MISSES : Fld := { unit := 2, index := 39, lo := 32, len := 32, rst := 0 }
def Fld.CO_LS_ERRORS_CORRECTED : Fld := { unit := 2, index := 40, lo := 0, len := 32, rst := 0 }
def Fld.CO_LS_ERRORS_UNCORRECTABLE : Fld := { unit := 2, index := 40, lo := 32, len := 16, rst := 0 }
def Fld.CO_LS_ERRORS_SPLITS : Fld := { unit := 2, index := 40, lo := 48, len := 16, rst := 0 }
def Fld.L2_STATS_HITS : Fld := { unit := 4, index := 0, lo := 0, len := 32, rst := 0 }
def Fld.L2_STATS_MISSES : Fld := { unit := 4, index := 0, lo := 32, len := 32, rst := 0 }
def Fld.L2_VICTIM_ACCEPTED : Fld := { unit := 4, index := 1, lo := 0, len := 16, rst := 0 }
def Fld.L2_VICTIM_DECLINED_SET : Fld := { unit := 4, index := 1, lo := 16, len := 16, rst := 0 }
def Fld.L2_VICTIM_DECLINED_BUDGET : Fld := { unit := 4, index := 1, lo := 32, len := 16, rst := 0 }
def Fld.L2_VICTIM_DIRTY_IN : Fld := { unit := 4, index := 1, lo := 48, len := 16, rst := 0 }
def Fld.L2_VICTIM_BUDGET_ACCEPTS : Fld := { unit := 4, index := 2, lo := 0, len := 11, rst := 128 }
def Fld.L2_LOCK_STATUS_GROUPS : Fld := { unit := 4, index := 3, lo := 0, len := 16, rst := 0 }
def Fld.L2_LOCK_STATUS_LINES : Fld := { unit := 4, index := 3, lo := 16, len := 19, rst := 0 }
def Fld.L2_LOCK_STATUS_FULL_SETS : Fld := { unit := 4, index := 3, lo := 35, len := 16, rst := 0 }
def Fld.L2_GROUP_CONTEXT : Fld := { unit := 4, index := 4, lo := 0, len := 6, rst := 0 }
def Fld.L2_GROUP_STATE : Fld := { unit := 4, index := 4, lo := 6, len := 2, rst := 0 }
def Fld.L2_GROUP_PARTIAL : Fld := { unit := 4, index := 4, lo := 8, len := 1, rst := 0 }
def Fld.L2_GROUP_PENDING : Fld := { unit := 4, index := 4, lo := 9, len := 1, rst := 0 }
def Fld.L2_GROUP_LINES : Fld := { unit := 4, index := 4, lo := 32, len := 32, rst := 0 }
def Fld.L2_ERRORS_CORRECTED : Fld := { unit := 4, index := 20, lo := 0, len := 24, rst := 0 }
def Fld.L2_ERRORS_UNCORRECTABLE : Fld := { unit := 4, index := 20, lo := 24, len := 16, rst := 0 }
def Fld.L2_ERRORS_RELOADS : Fld := { unit := 4, index := 20, lo := 40, len := 16, rst := 0 }
def Fld.L2_ERRORS_DISABLED : Fld := { unit := 4, index := 20, lo := 56, len := 8, rst := 0 }
def Fld.HM_CAPACITY_BYTES : Fld := { unit := 5, index := 0, lo := 0, len := 64, rst := 0 }
def Fld.HM_CHAN_CTRL_CHANNEL : Fld := { unit := 5, index := 1, lo := 0, len := 7, rst := 0 }
def Fld.HM_CHAN_CTRL_CMD : Fld := { unit := 5, index := 1, lo := 8, len := 3, rst := 0 }
def Fld.HM_CHAN_STATE_STATE (c : Nat) : Fld := { unit := 5, index := 2, lo := 4 * c, len := 3, rst := 0 }
def Fld.HM_CHAN_STATE_PENDING (c : Nat) : Fld := { unit := 5, index := 2, lo := 4 * c + 3, len := 1, rst := 0 }
def Fld.HM_RETRAIN_PERIOD_PERIOD : Fld := { unit := 5, index := 10, lo := 0, len := 64, rst := 100000000 }
def Fld.HM_RETRAIN_THRESH_CORRECTED : Fld := { unit := 5, index := 11, lo := 0, len := 16, rst := 64 }
def Fld.HM_ERR_SEL_CHANNEL : Fld := { unit := 5, index := 12, lo := 0, len := 7, rst := 0 }
def Fld.HM_ERR_COUNTS_CORRECTED : Fld := { unit := 5, index := 13, lo := 0, len := 24, rst := 0 }
def Fld.HM_ERR_COUNTS_UNCORRECTABLE : Fld := { unit := 5, index := 13, lo := 24, len := 16, rst := 0 }
def Fld.HM_ERR_COUNTS_RETRAINS : Fld := { unit := 5, index := 13, lo := 40, len := 16, rst := 0 }
def Fld.HM_ERR_COUNTS_SKIPPED : Fld := { unit := 5, index := 13, lo := 56, len := 8, rst := 0 }
def Fld.HM_TG_CTRL_CHANNEL : Fld := { unit := 5, index := 14, lo := 0, len := 7, rst := 0 }
def Fld.HM_TG_CTRL_PATTERN : Fld := { unit := 5, index := 14, lo := 8, len := 2, rst := 0 }
def Fld.HM_TG_CTRL_ORDER : Fld := { unit := 5, index := 14, lo := 10, len := 1, rst := 0 }
def Fld.HM_TG_CTRL_START : Fld := { unit := 5, index := 14, lo := 11, len := 1, rst := 0 }
def Fld.HM_TG_CTRL_LINES : Fld := { unit := 5, index := 14, lo := 16, len := 32, rst := 0 }
def Fld.HM_TG_STATUS_BUSY : Fld := { unit := 5, index := 15, lo := 0, len := 1, rst := 0 }
def Fld.HM_TG_STATUS_DONE : Fld := { unit := 5, index := 15, lo := 1, len := 1, rst := 0 }
def Fld.HM_TG_STATUS_MISMATCHES : Fld := { unit := 5, index := 15, lo := 8, len := 24, rst := 0 }
def Fld.HM_TG_STATUS_FIRST_FAIL : Fld := { unit := 5, index := 15, lo := 32, len := 32, rst := 0 }
def Fld.HM_PART_CTRL_RATE : Fld := { unit := 5, index := 16, lo := 0, len := 14, rst := 0 }
def Fld.HM_PART_CTRL_FLOOR : Fld := { unit := 5, index := 16, lo := 16, len := 14, rst := 0 }
def Fld.HM_PART_CTRL_BURST : Fld := { unit := 5, index := 16, lo := 32, len := 14, rst := 0 }
def Fld.HM_PART_CTRL_ENABLE : Fld := { unit := 5, index := 16, lo := 48, len := 1, rst := 0 }
def Fld.HM_PART_CTRL_BORROW : Fld := { unit := 5, index := 16, lo := 49, len := 1, rst := 0 }
def Fld.HM_PART_STATS_KIB : Fld := { unit := 5, index := 32, lo := 0, len := 32, rst := 0 }
def Fld.HM_PART_STATS_HELD : Fld := { unit := 5, index := 32, lo := 32, len := 32, rst := 0 }
def Fld.HM_RETIRE_WINDOW_WINDOW : Fld := { unit := 5, index := 48, lo := 0, len := 64, rst := 86400000000000 }
def Fld.HM_RETIRE_STATUS_RETIRED : Fld := { unit := 5, index := 49, lo := 0, len := 13, rst := 0 }
def Fld.HM_RETIRE_STATUS_CANDIDATES : Fld := { unit := 5, index := 49, lo := 16, len := 11, rst := 0 }
def Fld.HM_RETIRE_STATUS_UNCOMMITTED : Fld := { unit := 5, index := 49, lo := 27, len := 1, rst := 0 }
def Fld.HM_RETIRE_STATUS_OVERFLOW : Fld := { unit := 5, index := 49, lo := 48, len := 16, rst := 0 }
def Fld.L2_COH_STATS_SNOOPS : Fld := { unit := 4, index := 21, lo := 0, len := 32, rst := 0 }
def Fld.L2_COH_STATS_RECALLS : Fld := { unit := 4, index := 21, lo := 32, len := 16, rst := 0 }
def Fld.L2_COH_STATS_FORWARDS : Fld := { unit := 4, index := 21, lo := 48, len := 16, rst := 0 }
def Fld.L2_DIR_STATUS_ENTRIES : Fld := { unit := 4, index := 22, lo := 0, len := 16, rst := 0 }
def Fld.L2_DIR_STATUS_FULL_SETS : Fld := { unit := 4, index := 22, lo := 16, len := 16, rst := 0 }
def Fld.L2_AGENT_TIMEOUT_NS : Fld := { unit := 4, index := 23, lo := 0, len := 32, rst := 20000 }
def Fld.CO_RES_STATS_STC_OK : Fld := { unit := 2, index := 41, lo := 0, len := 16, rst := 0 }
def Fld.CO_RES_STATS_STC_CONFLICT : Fld := { unit := 2, index := 41, lo := 16, len := 16, rst := 0 }
def Fld.CO_RES_STATS_STC_SPURIOUS : Fld := { unit := 2, index := 41, lo := 32, len := 16, rst := 0 }
def Fld.CO_RES_STATS_HOLD_EXPIRED : Fld := { unit := 2, index := 41, lo := 48, len := 16, rst := 0 }
def Fld.CO_FENCE_STATS_DEVICE : Fld := { unit := 2, index := 42, lo := 0, len := 16, rst := 0 }
def Fld.CO_FENCE_STATS_SYSTEM : Fld := { unit := 2, index := 42, lo := 16, len := 16, rst := 0 }
def Fld.CO_FENCE_STATS_WAIT : Fld := { unit := 2, index := 42, lo := 32, len := 32, rst := 0 }
def Fld.CO_SYNC_VALUE_VALUE : Fld := { unit := 2, index := 43, lo := 0, len := 32, rst := 0 }
def Fld.CO_SYNC_VALUE_CONTEXT : Fld := { unit := 2, index := 43, lo := 32, len := 6, rst := 0 }
def Fld.CO_SYNC_VALUE_TAGGED : Fld := { unit := 2, index := 43, lo := 38, len := 1, rst := 0 }
def Fld.CO_SYNC_STATS_TIMEOUTS : Fld := { unit := 2, index := 91, lo := 0, len := 16, rst := 0 }
def Fld.CO_SYNC_STATS_INHERITED : Fld := { unit := 2, index := 91, lo := 16, len := 16, rst := 0 }
def Fld.CO_SYNC_STATS_LENT : Fld := { unit := 2, index := 91, lo := 32, len := 32, rst := 0 }
def Fld.BK_BAR_SLOT_COUNT : Fld := { unit := 3, index := 2, lo := 0, len := 12, rst := 0 }
def Fld.BK_BAR_SLOT_EXPECTED : Fld := { unit := 3, index := 2, lo := 12, len := 12, rst := 0 }
def Fld.BK_BAR_SLOT_SENSE : Fld := { unit := 3, index := 2, lo := 24, len := 1, rst := 0 }
def Fld.BK_BAR_SLOT_VALID : Fld := { unit := 3, index := 2, lo := 25, len := 1, rst := 0 }
def Fld.BK_BAR_SLOT_CONTEXT : Fld := { unit := 3, index := 2, lo := 26, len := 6, rst := 0 }
def Fld.BK_BAR_SLOT_LAUNCH : Fld := { unit := 3, index := 2, lo := 32, len := 32, rst := 0 }
def Fld.FE_DBAR_SLOT_COUNT : Fld := { unit := 0, index := 2, lo := 0, len := 19, rst := 0 }
def Fld.FE_DBAR_SLOT_EXPECTED : Fld := { unit := 0, index := 2, lo := 19, len := 19, rst := 0 }
def Fld.FE_DBAR_SLOT_SENSE : Fld := { unit := 0, index := 2, lo := 38, len := 1, rst := 0 }
def Fld.FE_DBAR_SLOT_VALID : Fld := { unit := 0, index := 2, lo := 39, len := 1, rst := 0 }
def Fld.FE_DBAR_SLOT_CONTEXT : Fld := { unit := 0, index := 2, lo := 40, len := 6, rst := 0 }
def Fld.FE_RALIGN_PAIR_CORE_A : Fld := { unit := 0, index := 66, lo := 0, len := 8, rst := 0 }
def Fld.FE_RALIGN_PAIR_INDEX_A : Fld := { unit := 0, index := 66, lo := 8, len := 6, rst := 0 }
def Fld.FE_RALIGN_PAIR_CORE_B : Fld := { unit := 0, index := 66, lo := 14, len := 8, rst := 0 }
def Fld.FE_RALIGN_PAIR_INDEX_B : Fld := { unit := 0, index := 66, lo := 22, len := 6, rst := 0 }
def Fld.FE_RALIGN_PAIR_CONTEXT : Fld := { unit := 0, index := 66, lo := 28, len := 6, rst := 0 }
def Fld.FE_RALIGN_PAIR_VALID : Fld := { unit := 0, index := 66, lo := 34, len := 1, rst := 0 }
def Fld.FE_RALIGN_PAIR_WAIT_A : Fld := { unit := 0, index := 66, lo := 35, len := 1, rst := 0 }
def Fld.FE_RALIGN_PAIR_WAIT_B : Fld := { unit := 0, index := 66, lo := 36, len := 1, rst := 0 }
def Fld.FE_RALIGN_BASE_BASE : Fld := { unit := 0, index := 82, lo := 0, len := 32, rst := 0 }
def Fld.FE_RALIGN_BASE_SKIPS : Fld := { unit := 0, index := 82, lo := 32, len := 16, rst := 0 }
def Fld.FE_RALIGN_BASE_STEPS : Fld := { unit := 0, index := 82, lo := 48, len := 16, rst := 0 }
def Fld.FE_RALIGN_PERIOD_PERIOD : Fld := { unit := 0, index := 98, lo := 0, len := 40, rst := 0 }
def Fld.FE_RALIGN_DUE_DUE : Fld := { unit := 0, index := 114, lo := 0, len := 64, rst := 0 }
def Fld.FE_WAIT_DEFAULT_NS : Fld := { unit := 0, index := 130, lo := 0, len := 40, rst := 1000000000 }
def Fld.PM_LEND_THRESH_NS : Fld := { unit := 8, index := 0, lo := 0, len := 32, rst := 20000 }
def Fld.FE_QUEUE_STATUS_STATE : Fld := { unit := 0, index := 131, lo := 0, len := 3, rst := 0 }
def Fld.FE_QUEUE_STATUS_PENDING : Fld := { unit := 0, index := 131, lo := 3, len := 1, rst := 0 }
def Fld.FE_QUEUE_STATUS_ORPHAN : Fld := { unit := 0, index := 131, lo := 4, len := 1, rst := 0 }
def Fld.FE_QUEUE_STATUS_ORPHAN_HELD : Fld := { unit := 0, index := 131, lo := 5, len := 5, rst := 0 }
def Fld.FE_QUEUE_STATUS_CONTEXT : Fld := { unit := 0, index := 131, lo := 10, len := 6, rst := 0 }
def Fld.FE_QUEUE_STATUS_PRIO : Fld := { unit := 0, index := 131, lo := 16, len := 2, rst := 0 }
def Fld.FE_QUEUE_STATUS_CAUSE : Fld := { unit := 0, index := 131, lo := 18, len := 8, rst := 0 }
def Fld.FE_QUEUE_STATUS_ORPHAN_LOST : Fld := { unit := 0, index := 131, lo := 32, len := 16, rst := 0 }
def Fld.FE_QUEUE_STATUS_INFLIGHT : Fld := { unit := 0, index := 131, lo := 48, len := 7, rst := 0 }
def Fld.FE_QUEUE_SLOWDOWN_SLOWDOWN : Fld := { unit := 0, index := 1155, lo := 0, len := 16, rst := 0 }
def Fld.FE_QUEUE_SLOWDOWN_ACTIVE_US : Fld := { unit := 0, index := 1155, lo := 32, len := 10, rst := 0 }
def Fld.FE_WATCHDOG_DEFAULT_US : Fld := { unit := 0, index := 2179, lo := 0, len := 32, rst := 10000000 }
def Fld.FE_SCHED_PREEMPT : Fld := { unit := 0, index := 2180, lo := 0, len := 20, rst := 10485760100 }
def Fld.FE_SCHED_SLICE : Fld := { unit := 0, index := 2180, lo := 20, len := 20, rst := 10485760100 }
def Fld.FE_SWITCH_STATS_FORCED : Fld := { unit := 0, index := 2181, lo := 0, len := 16, rst := 0 }
def Fld.FE_SWITCH_STATS_BOUNDARY : Fld := { unit := 0, index := 2181, lo := 16, len := 16, rst := 0 }
def Fld.FE_SWITCH_STATS_LAST_NS : Fld := { unit := 0, index := 2181, lo := 32, len := 32, rst := 0 }
def Fld.FE_OBJ_TABLE_BASE_BASE : Fld := { unit := 0, index := 2182, lo := 0, len := 48, rst := 0 }
def Fld.FE_OBJ_STATS_LIVE : Fld := { unit := 0, index := 2183, lo := 0, len := 17, rst := 0 }
def Fld.FE_OBJ_STATS_REFUSED : Fld := { unit := 0, index := 2183, lo := 32, len := 16, rst := 0 }
def Fld.FE_OBJ_STATS_HOST_DISCARDS : Fld := { unit := 0, index := 2183, lo := 48, len := 16, rst := 0 }
def Fld.FE_EVENT_STATS_STALE : Fld := { unit := 0, index := 2184, lo := 0, len := 32, rst := 0 }
def Fld.FE_EVENT_STATS_DECREASE : Fld := { unit := 0, index := 2184, lo := 32, len := 16, rst := 0 }
def Fld.FE_EVENT_STATS_SUPPRESSED : Fld := { unit := 0, index := 2184, lo := 48, len := 16, rst := 0 }
def Fld.TU_STATUS_ENTRIES : Fld := { unit := 1, index := 0, lo := 0, len := 16, rst := 0 }
def Fld.TU_STATUS_LOOKUPS : Fld := { unit := 1, index := 0, lo := 16, len := 16, rst := 0 }
def Fld.TU_STATUS_FAILED : Fld := { unit := 1, index := 0, lo := 32, len := 16, rst := 0 }
def Fld.TU_RETIRE_PENDING_GRANULES : Fld := { unit := 1, index := 1, lo := 0, len := 13, rst := 0 }
def Fld.TU_RETIRE_PENDING_RANGES : Fld := { unit := 1, index := 1, lo := 16, len := 16, rst := 0 }
def Fld.EL_DEVICE_ID_ID : Fld := { unit := 6, index := 0, lo := 0, len := 16, rst := 0 }
def Fld.EL_DEVICE_ID_ASSIGNED : Fld := { unit := 6, index := 0, lo := 16, len := 1, rst := 0 }
def Fld.EL_DEVICE_ID_INCARN : Fld := { unit := 6, index := 0, lo := 32, len := 16, rst := 0 }
def Fld.EL_SERIAL_SERIAL : Fld := { unit := 6, index := 1, lo := 0, len := 64, rst := 0 }
def Fld.EL_LINK_STATUS_STATE : Fld := { unit := 6, index := 2, lo := 0, len := 3, rst := 0 }
def Fld.EL_LINK_STATUS_PENDING : Fld := { unit := 6, index := 2, lo := 3, len := 1, rst := 0 }
def Fld.EL_LINK_STATUS_WIDTH : Fld := { unit := 6, index := 2, lo := 4, len := 2, rst := 0 }
def Fld.EL_LINK_STATUS_HELD : Fld := { unit := 6, index := 2, lo := 6, len := 1, rst := 0 }
def Fld.EL_LINK_STATUS_LANE0_FAILED : Fld := { unit := 6, index := 2, lo := 7, len := 1, rst := 0 }
def Fld.EL_LINK_STATUS_LANE1_FAILED : Fld := { unit := 6, index := 2, lo := 8, len := 1, rst := 0 }
def Fld.EL_LINK_STATUS_LANE_RETRAIN : Fld := { unit := 6, index := 2, lo := 9, len := 1, rst := 0 }
def Fld.EL_LINK_STATUS_PEER_LINK : Fld := { unit := 6, index := 2, lo := 10, len := 6, rst := 0 }
def Fld.EL_LINK_STATUS_PEER_ID : Fld := { unit := 6, index := 2, lo := 16, len := 16, rst := 0 }
def Fld.EL_LINK_STATUS_PEER_ASSIGNED : Fld := { unit := 6, index := 2, lo := 32, len := 1, rst := 0 }
def Fld.EL_LINK_PEER_SERIAL : Fld := { unit := 6, index := 50, lo := 0, len := 64, rst := 0 }
def Fld.EL_LINK_CTRL_LANE_THRESH : Fld := { unit := 6, index := 98, lo := 0, len := 16, rst := 4096 }
def Fld.EL_LINK_ASYM_ASYM : Fld := { unit := 6, index := 146, lo := 0, len := 16, rst := 0 }
def Fld.EL_LINK_ERRORS_CORRECTED : Fld := { unit := 6, index := 194, lo := 0, len := 24, rst := 0 }
def Fld.EL_LINK_ERRORS_REPLAYS : Fld := { unit := 6, index := 194, lo := 24, len := 16, rst := 0 }
def Fld.EL_LINK_ERRORS_RETRAINS : Fld := { unit := 6, index := 194, lo := 40, len := 8, rst := 0 }
def Fld.EL_LINK_ERRORS_LANE_RETRAINS : Fld := { unit := 6, index := 194, lo := 48, len := 8, rst := 0 }
def Fld.EL_ROUTE_SEL_ENTRY : Fld := { unit := 6, index := 242, lo := 0, len := 16, rst := 0 }
def Fld.EL_ROUTE_DATA_ENTRY : Fld := { unit := 6, index := 243, lo := 0, len := 64, rst := 0 }
def Fld.EL_JOBSET_JOBSET : Fld := { unit := 6, index := 244, lo := 0, len := 16, rst := 0 }
def Fld.EL_JOBSET_STATE : Fld := { unit := 6, index := 244, lo := 16, len := 2, rst := 0 }
def Fld.EL_JOBSET_MEMBER : Fld := { unit := 6, index := 244, lo := 18, len := 1, rst := 0 }
def Fld.EL_JOBSET_PENDING : Fld := { unit := 6, index := 244, lo := 19, len := 1, rst := 0 }
def Fld.EL_JOBSET_CONTEXT : Fld := { unit := 6, index := 244, lo := 20, len := 6, rst := 0 }
def Fld.EL_JOBSET_EPOCH : Fld := { unit := 6, index := 244, lo := 26, len := 8, rst := 0 }
def Fld.EL_JOBSET_FLOOD_LINKS : Fld := { unit := 6, index := 308, lo := 0, len := 48, rst := 0 }
def Fld.EL_EXPORT_BASE_BASE : Fld := { unit := 6, index := 372, lo := 0, len := 48, rst := 0 }
def Fld.EL_EXPORT_BASE_R : Fld := { unit := 6, index := 372, lo := 48, len := 1, rst := 0 }
def Fld.EL_EXPORT_BASE_W : Fld := { unit := 6, index := 372, lo := 49, len := 1, rst := 0 }
def Fld.EL_EXPORT_BASE_A : Fld := { unit := 6, index := 372, lo := 50, len := 1, rst := 0 }
def Fld.EL_EXPORT_BASE_VALID : Fld := { unit := 6, index := 372, lo := 51, len := 1, rst := 0 }
def Fld.EL_EXPORT_BASE_OPEN : Fld := { unit := 6, index := 372, lo := 52, len := 1, rst := 0 }
def Fld.EL_EXPORT_BASE_SLOT : Fld := { unit := 6, index := 372, lo := 53, len := 6, rst := 0 }
def Fld.EL_EXPORT_BOUND_BOUND : Fld := { unit := 6, index := 436, lo := 0, len := 49, rst := 0 }
def Fld.EL_EXPORT_BOUND_CONTEXT : Fld := { unit := 6, index := 436, lo := 49, len := 6, rst := 0 }
def Fld.EL_E2E_RESEND : Fld := { unit := 6, index := 500, lo := 0, len := 10, rst := 34168932 }
def Fld.EL_E2E_GIVEUP : Fld := { unit := 6, index := 500, lo := 10, len := 10, rst := 34168932 }
def Fld.EL_E2E_MAX_HOPS : Fld := { unit := 6, index := 500, lo := 20, len := 6, rst := 34168932 }
def Fld.EL_STATS_RESENDS : Fld := { unit := 6, index := 501, lo := 0, len := 16, rst := 0 }
def Fld.EL_STATS_DUPLICATE : Fld := { unit := 6, index := 501, lo := 16, len := 16, rst := 0 }
def Fld.EL_STATS_FAILURES : Fld := { unit := 6, index := 501, lo := 32, len := 16, rst := 0 }
def Fld.EL_STATS_DROPPED : Fld := { unit := 6, index := 501, lo := 48, len := 16, rst := 0 }
def Fld.EL_TSYNC_STATUS_DIST : Fld := { unit := 6, index := 502, lo := 0, len := 4, rst := 15 }
def Fld.EL_TSYNC_STATUS_FAR : Fld := { unit := 6, index := 502, lo := 4, len := 1, rst := 15 }
def Fld.EL_TSYNC_STATUS_UPSTREAM_LOCKED : Fld := { unit := 6, index := 502, lo := 5, len := 1, rst := 15 }
def Fld.EL_TSYNC_STATUS_DELAY : Fld := { unit := 6, index := 502, lo := 32, len := 32, rst := 15 }
def Fld.UC_LINK_STATUS_STATE : Fld := { unit := 7, index := 0, lo := 0, len := 3, rst := 0 }
def Fld.UC_LINK_STATUS_PENDING : Fld := { unit := 7, index := 0, lo := 3, len := 1, rst := 0 }
def Fld.UC_LINK_STATUS_RATE : Fld := { unit := 7, index := 0, lo := 4, len := 3, rst := 0 }
def Fld.UC_LINK_STATUS_MODULES : Fld := { unit := 7, index := 0, lo := 7, len := 4, rst := 0 }
def Fld.UC_LINK_STATUS_HALF : Fld := { unit := 7, index := 0, lo := 11, len := 4, rst := 0 }
def Fld.UC_LINK_STATUS_UNQUALIFIED : Fld := { unit := 7, index := 0, lo := 15, len := 1, rst := 0 }
def Fld.UC_LINK_STATUS_RECOVERY : Fld := { unit := 7, index := 0, lo := 16, len := 1, rst := 0 }
def Fld.UC_LINK_CTRL_CMD : Fld := { unit := 7, index := 1, lo := 0, len := 2, rst := 0 }
def Fld.UC_CPL_TIMEOUT_NS : Fld := { unit := 7, index := 2, lo := 0, len := 32, rst := 50000 }
def Fld.UC_PARTNER_VENDOR : Fld := { unit := 7, index := 3, lo := 0, len := 16, rst := 0 }
def Fld.UC_PARTNER_DEVICE : Fld := { unit := 7, index := 3, lo := 16, len := 16, rst := 0 }
def Fld.UC_PARTNER_REVISION : Fld := { unit := 7, index := 3, lo := 32, len := 8, rst := 0 }
def Fld.UC_ERRORS_CRC : Fld := { unit := 7, index := 4, lo := 0, len := 24, rst := 0 }
def Fld.UC_ERRORS_REPLAYS : Fld := { unit := 7, index := 4, lo := 24, len := 16, rst := 0 }
def Fld.UC_ERRORS_RETRAINS : Fld := { unit := 7, index := 4, lo := 40, len := 8, rst := 0 }
def Fld.UC_ERRORS_LANE_REPAIRS : Fld := { unit := 7, index := 4, lo := 48, len := 8, rst := 0 }
def Fld.UC_ERRORS_TRAIN_FAILS : Fld := { unit := 7, index := 4, lo := 56, len := 8, rst := 0 }
def Fld.UC_STATS_REFUSED : Fld := { unit := 7, index := 5, lo := 0, len := 16, rst := 0 }
def Fld.UC_STATS_TIMEOUTS : Fld := { unit := 7, index := 5, lo := 16, len := 16, rst := 0 }
def Fld.UC_STATS_LOST_REPLIES : Fld := { unit := 7, index := 5, lo := 32, len := 16, rst := 0 }
def Fld.UC_STATS_DISCARDED : Fld := { unit := 7, index := 5, lo := 48, len := 16, rst := 0 }
def Fld.PM_CAP_WATTS : Fld := { unit := 8, index := 1, lo := 0, len := 11, rst := 700 }
def Fld.PM_CAP_LIQUID : Fld := { unit := 8, index := 1, lo := 16, len := 1, rst := 700 }
def Fld.PM_CLK_MODE_FIXED : Fld := { unit := 8, index := 2, lo := 0, len := 1, rst := 120 }
def Fld.PM_CLK_MODE_POINT : Fld := { unit := 8, index := 2, lo := 1, len := 7, rst := 120 }
def Fld.PM_FIXED_EXCURSIONS_COUNT : Fld := { unit := 8, index := 3, lo := 0, len := 32, rst := 0 }
def Fld.PM_STATUS_POINT : Fld := { unit := 8, index := 4, lo := 0, len := 7, rst := 11470908 }
def Fld.PM_STATUS_DUTY : Fld := { unit := 8, index := 4, lo := 7, len := 5, rst := 11470908 }
def Fld.PM_STATUS_TRIP : Fld := { unit := 8, index := 4, lo := 12, len := 1, rst := 11470908 }
def Fld.PM_STATUS_ALERT : Fld := { unit := 8, index := 4, lo := 13, len := 1, rst := 11470908 }
def Fld.PM_STATUS_C_EFF : Fld := { unit := 8, index := 4, lo := 14, len := 11, rst := 11470908 }
def Fld.PM_STATUS_DUTY_EPOCHS : Fld := { unit := 8, index := 4, lo := 48, len := 16, rst := 11470908 }
def Fld.PM_REGION_STATE_STATE (r : Nat) : Fld := { unit := 8, index := 5, lo := 4 * r, len := 3, rst := 77267640647680 }
def Fld.PM_REGION_STATE_LENT (r : Nat) : Fld := { unit := 8, index := 5, lo := 4 * r + 3, len := 1, rst := 77267640647680 }
def Fld.PM_REGION_STATE_CEILING (r : Nat) : Fld := { unit := 8, index := 5, lo := 8 * r + 16, len := 7, rst := 77267640647680 }
def Fld.PM_LEND_POINT : Fld := { unit := 8, index := 6, lo := 0, len := 7, rst := 0 }
def Fld.PM_LEND_LENT_EPOCHS : Fld := { unit := 8, index := 6, lo := 32, len := 32, rst := 0 }
def Fld.PM_DROOP_CTRL_MARGIN : Fld := { unit := 8, index := 7, lo := 0, len := 8, rst := 65536015 }
def Fld.PM_DROOP_CTRL_LIMIT : Fld := { unit := 8, index := 7, lo := 16, len := 16, rst := 65536015 }
def Fld.PM_DROOP_STATS_STRETCHES : Fld := { unit := 8, index := 8, lo := 0, len := 32, rst := 0 }
def Fld.PM_DROOP_STATS_CEILING_DROPS : Fld := { unit := 8, index := 8, lo := 32, len := 16, rst := 0 }
def Fld.PM_ENERGY_WINDOW_MJ : Fld := { unit := 8, index := 12, lo := 0, len := 32, rst := 0 }
def Fld.PM_ENERGY_UNATTRIBUTED : Fld := { unit := 8, index := 12, lo := 32, len := 32, rst := 0 }
def Fld.PM_QUEUE_ENERGY_UJ : Fld := { unit := 8, index := 13, lo := 0, len := 32, rst := 0 }
def Fld.TH_CTRL_THROTTLE : Fld := { unit := 9, index := 0, lo := 0, len := 8, rst := 32794975 }
def Fld.TH_CTRL_HOT : Fld := { unit := 9, index := 0, lo := 8, len := 8, rst := 32794975 }
def Fld.TH_CTRL_ALERT_CAP : Fld := { unit := 9, index := 0, lo := 16, len := 11, rst := 32794975 }
def Fld.TH_SENSOR_TEMP : Fld := { unit := 9, index := 1, lo := 0, len := 12, rst := 0 }
def Fld.TH_SENSOR_VALID : Fld := { unit := 9, index := 1, lo := 12, len := 1, rst := 0 }
def Fld.TH_STATUS_HOT_DRIVEN : Fld := { unit := 9, index := 65, lo := 0, len := 1, rst := 0 }
def Fld.TH_STATUS_HOTTEST : Fld := { unit := 9, index := 65, lo := 8, len := 6, rst := 0 }
def Fld.TH_STATUS_HOTTEST_TEMP : Fld := { unit := 9, index := 65, lo := 16, len := 12, rst := 0 }
def Fld.TH_STATUS_THERMAL_CAP : Fld := { unit := 9, index := 65, lo := 28, len := 10, rst := 0 }
def Fld.TH_GLITCH_ALERT : Fld := { unit := 9, index := 66, lo := 0, len := 16, rst := 0 }
def Fld.TH_GLITCH_HOT : Fld := { unit := 9, index := 66, lo := 16, len := 16, rst := 0 }
def Fld.FE_ERRLOG_BASE_BASE : Fld := { unit := 0, index := 2185, lo := 0, len := 48, rst := 0 }
def Fld.FE_ERRLOG_NEXT_SEQUENCE : Fld := { unit := 0, index := 2186, lo := 0, len := 64, rst := 1 }
def Fld.FE_ERRLOG_STATUS_HELD : Fld := { unit := 0, index := 2187, lo := 0, len := 13, rst := 0 }
def Fld.FE_ERRLOG_STATUS_SEL_VALID : Fld := { unit := 0, index := 2187, lo := 13, len := 1, rst := 0 }
def Fld.FE_ERRLOG_STATUS_OVERWRITTEN : Fld := { unit := 0, index := 2187, lo := 32, len := 16, rst := 0 }
def Fld.FE_ERRLOG_STATUS_NOTIFIED : Fld := { unit := 0, index := 2187, lo := 48, len := 16, rst := 0 }
def Fld.FE_ERRLOG_SEL_SEQUENCE : Fld := { unit := 0, index := 2188, lo := 0, len := 64, rst := 0 }
def Fld.FE_ERRLOG_WORD_WORD : Fld := { unit := 0, index := 2189, lo := 0, len := 64, rst := 0 }
def Fld.FE_RECOVERY_SOURCES : Fld := { unit := 0, index := 2205, lo := 0, len := 6, rst := 0 }
def Fld.FE_RECOVERY_OVERRUN : Fld := { unit := 0, index := 2205, lo := 6, len := 1, rst := 0 }
def Fld.FE_RECOVERY_OVERRUNS : Fld := { unit := 0, index := 2205, lo := 32, len := 16, rst := 0 }
def Fld.FE_RECOVERY_LIMIT_US : Fld := { unit := 0, index := 2206, lo := 0, len := 32, rst := 5000 }
def Fld.FE_PAIR_STATUS_MODE : Fld := { unit := 0, index := 2207, lo := 0, len := 2, rst := 0 }
def Fld.FE_PAIR_STATUS_RESTARTS : Fld := { unit := 0, index := 2207, lo := 8, len := 8, rst := 0 }
def Fld.FE_PAIR_STATUS_LAST_US : Fld := { unit := 0, index := 2207, lo := 32, len := 32, rst := 0 }
def Fld.BK_CORE_OFFLINE_CELLS : Fld := { unit := 3, index := 18, lo := 0, len := 8, rst := 0 }
def Fld.SP_BOOT_STATUS_STAGE : Fld := { unit := 11, index := 0, lo := 0, len := 4, rst := 0 }
def Fld.SP_BOOT_STATUS_STRAP : Fld := { unit := 11, index := 0, lo := 4, len := 2, rst := 0 }
def Fld.SP_BOOT_STATUS_DEGRADED : Fld := { unit := 11, index := 0, lo := 6, len := 1, rst := 0 }
def Fld.SP_BOOT_STATUS_RECOVERY_KINDS : Fld := { unit := 11, index := 0, lo := 7, len := 4, rst := 0 }
def Fld.SP_BOOT_STATUS_BOOT_MS : Fld := { unit := 11, index := 0, lo := 32, len := 32, rst := 0 }
def Fld.SP_IMAGE_STATUS_ACTIVE (k : Nat) : Fld := { unit := 11, index := 1, lo := 16 * k + 0, len := 1, rst := 0 }
def Fld.SP_IMAGE_STATUS_A_VALID (k : Nat) : Fld := { unit := 11, index := 1, lo := 16 * k + 1, len := 1, rst := 0 }
def Fld.SP_IMAGE_STATUS_B_VALID (k : Nat) : Fld := { unit := 11, index := 1, lo := 16 * k + 2, len := 1, rst := 0 }
def Fld.SP_IMAGE_STATUS_SVN (k : Nat) : Fld := { unit := 11, index := 1, lo := 16 * k + 3, len := 6, rst := 0 }
def Fld.SP_IMAGE_STATUS_FUSED_SVN (k : Nat) : Fld := { unit := 11, index := 1, lo := 16 * k + 9, len := 6, rst := 0 }
def Fld.SP_ATTEST_STATUS_MIDDLE : Fld := { unit := 11, index := 2, lo := 0, len := 16, rst := 0 }
def Fld.SP_ATTEST_STATUS_EXHAUSTED : Fld := { unit := 11, index := 2, lo := 16, len := 1, rst := 0 }
def Fld.SP_ATTEST_STATUS_REPORTS : Fld := { unit := 11, index := 2, lo := 32, len := 16, rst := 0 }
def Fld.SP_ATTEST_STATUS_REVOKED : Fld := { unit := 11, index := 2, lo := 48, len := 4, rst := 0 }
def Fld.ST_STATUS_BANK : Fld := { unit := 12, index := 0, lo := 0, len := 1, rst := 0 }
def Fld.ST_STATUS_BUSY : Fld := { unit := 12, index := 0, lo := 1, len := 1, rst := 0 }
def Fld.ST_STATUS_WORN : Fld := { unit := 12, index := 0, lo := 2, len := 1, rst := 0 }
def Fld.ST_STATUS_DIRTY : Fld := { unit := 12, index := 0, lo := 3, len := 1, rst := 0 }
def Fld.ST_STATUS_COMMITS : Fld := { unit := 12, index := 0, lo := 32, len := 17, rst := 0 }
def Fld.ST_CTRL_CMD : Fld := { unit := 12, index := 1, lo := 0, len := 2, rst := 0 }
def Fld.ST_LINK_ENABLE_LINKS : Fld := { unit := 12, index := 2, lo := 0, len := 48, rst := 281474976710655 }
def Fld.PM_CAL_CTRL_PERIOD : Fld := { unit := 8, index := 1037, lo := 0, len := 32, rst := 3600 }
def Fld.PM_CAL_CTRL_START : Fld := { unit := 8, index := 1037, lo := 32, len := 4, rst := 3600 }
def Fld.PM_CAL_STATUS_BUSY : Fld := { unit := 8, index := 1038, lo := 0, len := 4, rst := 0 }
def Fld.PM_CAL_STATUS_RUNS : Fld := { unit := 8, index := 1038, lo := 16, len := 16, rst := 0 }
def Fld.PM_CAL_STATUS_OUT_OF_TRIM : Fld := { unit := 8, index := 1038, lo := 32, len := 16, rst := 0 }
def Fld.MC_STATUS_ADDR : Fld := { unit := 10, index := 0, lo := 0, len := 8, rst := 0 }
def Fld.MC_STATUS_OVERFLOW : Fld := { unit := 10, index := 0, lo := 8, len := 1, rst := 0 }
def Fld.MC_STATUS_RAILS_UP : Fld := { unit := 10, index := 0, lo := 9, len := 1, rst := 0 }
def Fld.MC_STATUS_READY : Fld := { unit := 10, index := 0, lo := 10, len := 1, rst := 0 }
def Fld.MC_STATUS_PARKED : Fld := { unit := 10, index := 0, lo := 11, len := 1, rst := 0 }
def Fld.MC_STATUS_FROZEN : Fld := { unit := 10, index := 0, lo := 12, len := 1, rst := 0 }
def Fld.MC_STATUS_RECOVERY : Fld := { unit := 10, index := 0, lo := 13, len := 1, rst := 0 }
def Fld.MC_STATUS_FE_MODE : Fld := { unit := 10, index := 0, lo := 14, len := 2, rst := 0 }
def Fld.MC_STATS_FRAMES : Fld := { unit := 10, index := 1, lo := 0, len := 16, rst := 0 }
def Fld.MC_STATS_HCRC_ERR : Fld := { unit := 10, index := 1, lo := 16, len := 16, rst := 0 }
def Fld.MC_STATS_DCRC_ERR : Fld := { unit := 10, index := 1, lo := 32, len := 16, rst := 0 }
def Fld.MC_STATS_RESERVED_CMD : Fld := { unit := 10, index := 1, lo := 48, len := 16, rst := 0 }
def Fld.MC_FREEZE_STATUS_FROZEN : Fld := { unit := 10, index := 2, lo := 0, len := 1, rst := 0 }
def Fld.MC_FREEZE_STATUS_CAUSE : Fld := { unit := 10, index := 2, lo := 1, len := 2, rst := 0 }
def Fld.MC_FREEZE_STATUS_DRAINED : Fld := { unit := 10, index := 2, lo := 3, len := 1, rst := 0 }
def Fld.MC_FREEZE_STATUS_GLITCH : Fld := { unit := 10, index := 2, lo := 16, len := 16, rst := 0 }
def Fld.MC_FREEZE_TIME_COUNT : Fld := { unit := 10, index := 3, lo := 0, len := 64, rst := 0 }
def Fld.MC_SCAN_SEL_SEG : Fld := { unit := 10, index := 4, lo := 0, len := 4, rst := 0 }
def Fld.MC_SCAN_SEL_UNIT : Fld := { unit := 10, index := 4, lo := 4, len := 8, rst := 0 }
def Fld.MC_SCAN_SEL_OFFSET : Fld := { unit := 10, index := 4, lo := 16, len := 31, rst := 0 }
def Fld.MC_SCAN_DATA_WORD : Fld := { unit := 10, index := 5, lo := 0, len := 64, rst := 0 }
def Fld.MC_SCAN_STATUS_CORRECTED : Fld := { unit := 10, index := 6, lo := 0, len := 16, rst := 0 }
def Fld.MC_SCAN_STATUS_UNCORRECTABLE : Fld := { unit := 10, index := 6, lo := 16, len := 16, rst := 0 }
def Fld.MC_SCAN_STATUS_FIRST_BAD : Fld := { unit := 10, index := 6, lo := 32, len := 31, rst := 0 }
def Fld.MC_SCAN_STATUS_BUSY : Fld := { unit := 10, index := 6, lo := 63, len := 1, rst := 0 }
def Fld.DB_BRK_PC : Fld := { unit := 13, index := 4, lo := 0, len := 32, rst := 0 }
def Fld.DB_BRK_CONTEXT : Fld := { unit := 13, index := 4, lo := 32, len := 6, rst := 0 }
def Fld.DB_BRK_ANY : Fld := { unit := 13, index := 4, lo := 38, len := 1, rst := 0 }
def Fld.DB_BRK_ENABLE : Fld := { unit := 13, index := 4, lo := 39, len := 1, rst := 0 }
def Fld.DB_WATCH_BASE : Fld := { unit := 13, index := 12, lo := 0, len := 48, rst := 0 }
def Fld.DB_WATCH_SIZE : Fld := { unit := 13, index := 12, lo := 48, len := 5, rst := 0 }
def Fld.DB_WATCH_R : Fld := { unit := 13, index := 12, lo := 53, len := 1, rst := 0 }
def Fld.DB_WATCH_W : Fld := { unit := 13, index := 12, lo := 54, len := 1, rst := 0 }
def Fld.DB_WATCH_A : Fld := { unit := 13, index := 12, lo := 55, len := 1, rst := 0 }
def Fld.DB_WATCH_ENABLE : Fld := { unit := 13, index := 12, lo := 56, len := 1, rst := 0 }
def Fld.DB_DEBUG_STATUS_BRK_HIT : Fld := { unit := 13, index := 16, lo := 0, len := 8, rst := 0 }
def Fld.DB_DEBUG_STATUS_WATCH_HIT : Fld := { unit := 13, index := 16, lo := 8, len := 4, rst := 0 }
def Fld.DB_DEBUG_STATUS_LAST_SLOT : Fld := { unit := 13, index := 16, lo := 12, len := 6, rst := 0 }
def Fld.DB_SAMPLE_SEQ_WINDOWS : Fld := { unit := 13, index := 17, lo := 0, len := 64, rst := 0 }

/-- The register maps of unit 0, FE. -/
def regsFE : List RegDef := [
  -- FE_CARVEOUT_BASE (R454)
  { index := 0, copies := 1, rst := 0, fields := [⟨0, 48, .ro⟩] },
  -- FE_CARVEOUT_SIZE (R454)
  { index := 1, copies := 1, rst := 2147483648, fields := [⟨0, 48, .ro⟩] },
  -- FE_DBAR_SLOT (R263)
  { index := 2, copies := 64, rst := 0, fields := [⟨0, 19, .ro⟩, ⟨19, 19, .ro⟩, ⟨38, 1, .ro⟩, ⟨39, 1, .ro⟩, ⟨40, 6, .ro⟩] },
  -- FE_RALIGN_PAIR (R263)
  { index := 66, copies := 16, rst := 0, fields := [⟨0, 8, .ro⟩, ⟨8, 6, .ro⟩, ⟨14, 8, .ro⟩, ⟨22, 6, .ro⟩, ⟨28, 6, .ro⟩, ⟨34, 1, .ro⟩, ⟨35, 1, .ro⟩, ⟨36, 1, .ro⟩] },
  -- FE_RALIGN_BASE (R263)
  { index := 82, copies := 16, rst := 0, fields := [⟨0, 32, .ro⟩, ⟨32, 16, .rc⟩, ⟨48, 16, .rc⟩] },
  -- FE_RALIGN_PERIOD (R263)
  { index := 98, copies := 16, rst := 0, fields := [⟨0, 40, .ro⟩] },
  -- FE_RALIGN_DUE (R263)
  { index := 114, copies := 16, rst := 0, fields := [⟨0, 64, .ro⟩] },
  -- FE_WAIT_DEFAULT (R263)
  { index := 130, copies := 1, rst := 1000000000, fields := [⟨0, 40, .krw⟩] },
  -- FE_QUEUE_STATUS (R291)
  { index := 131, copies := 1024, rst := 0, fields := [⟨0, 3, .ro⟩, ⟨3, 1, .ro⟩, ⟨4, 1, .w1c⟩, ⟨5, 5, .ro⟩, ⟨10, 6, .ro⟩, ⟨16, 2, .ro⟩, ⟨18, 8, .ro⟩, ⟨32, 16, .rc⟩, ⟨48, 7, .ro⟩] },
  -- FE_QUEUE_SLOWDOWN (R291)
  { index := 1155, copies := 1024, rst := 0, fields := [⟨0, 16, .ro⟩, ⟨32, 10, .ro⟩] },
  -- FE_WATCHDOG_DEFAULT (R291)
  { index := 2179, copies := 1, rst := 10000000, fields := [⟨0, 32, .krw⟩] },
  -- FE_SCHED (R291)
  { index := 2180, copies := 1, rst := 10485760100, fields := [⟨0, 20, .krw⟩, ⟨20, 20, .krw⟩] },
  -- FE_SWITCH_STATS (R291)
  { index := 2181, copies := 1, rst := 0, fields := [⟨0, 16, .rc⟩, ⟨16, 16, .rc⟩, ⟨32, 32, .ro⟩] },
  -- FE_OBJ_TABLE_BASE (R308)
  { index := 2182, copies := 1, rst := 0, fields := [⟨0, 48, .ro⟩] },
  -- FE_OBJ_STATS (R308)
  { index := 2183, copies := 1, rst := 0, fields := [⟨0, 17, .ro⟩, ⟨32, 16, .rc⟩, ⟨48, 16, .rc⟩] },
  -- FE_EVENT_STATS (R308)
  { index := 2184, copies := 1, rst := 0, fields := [⟨0, 32, .rc⟩, ⟨32, 16, .rc⟩, ⟨48, 16, .rc⟩] },
  -- FE_ERRLOG_BASE (R397)
  { index := 2185, copies := 1, rst := 0, fields := [⟨0, 48, .ro⟩] },
  -- FE_ERRLOG_NEXT (R397)
  { index := 2186, copies := 1, rst := 1, fields := [⟨0, 64, .ro⟩] },
  -- FE_ERRLOG_STATUS (R397)
  { index := 2187, copies := 1, rst := 0, fields := [⟨0, 13, .ro⟩, ⟨13, 1, .ro⟩, ⟨32, 16, .rc⟩, ⟨48, 16, .rc⟩] },
  -- FE_ERRLOG_SEL (R397)
  { index := 2188, copies := 1, rst := 0, fields := [⟨0, 64, .krw⟩] },
  -- FE_ERRLOG_WORD (R397)
  { index := 2189, copies := 16, rst := 0, fields := [⟨0, 64, .ro⟩] },
  -- FE_RECOVERY (R397)
  { index := 2205, copies := 1, rst := 0, fields := [⟨0, 6, .ro⟩, ⟨6, 1, .ro⟩, ⟨32, 16, .rc⟩] },
  -- FE_RECOVERY_LIMIT (R397)
  { index := 2206, copies := 1, rst := 5000, fields := [⟨0, 32, .krw⟩] },
  -- FE_PAIR_STATUS (R397)
  { index := 2207, copies := 1, rst := 0, fields := [⟨0, 2, .ro⟩, ⟨8, 8, .rc⟩, ⟨32, 32, .ro⟩] } ]

/-- The register maps of unit 1, TU. -/
def regsTU : List RegDef := [
  -- TU_STATUS (R308)
  { index := 0, copies := 1, rst := 0, fields := [⟨0, 16, .ro⟩, ⟨16, 16, .rc⟩, ⟨32, 16, .rc⟩] },
  -- TU_RETIRE_PENDING (R308)
  { index := 1, copies := 1, rst := 0, fields := [⟨0, 13, .ro⟩, ⟨16, 16, .ro⟩] } ]

/-- The register maps of unit 2, CO. -/
def regsCO : List RegDef := [
  -- CO_PATH_SWITCH (R79)
  { index := 0, copies := 1, rst := 0, fields := [⟨0, 16, .rc⟩, ⟨16, 16, .rc⟩, ⟨32, 16, .rc⟩, ⟨48, 16, .rc⟩] },
  -- CO_ISSUE_STATS (R79)
  { index := 1, copies := 1, rst := 0, fields := [⟨0, 16, .rc⟩, ⟨16, 16, .rc⟩, ⟨32, 16, .rc⟩, ⟨48, 16, .rc⟩] },
  -- CO_RF_ERRORS (R79)
  { index := 2, copies := 1, rst := 0, fields := [⟨0, 32, .rc⟩, ⟨32, 16, .rc⟩] },
  -- CO_MX_STATUS (R105)
  { index := 3, copies := 1, rst := 0, fields := [⟨0, 2, .ro⟩, ⟨2, 6, .ro⟩, ⟨8, 2, .ro⟩, ⟨10, 6, .ro⟩, ⟨16, 8, .ro⟩, ⟨24, 8, .ro⟩] },
  -- CO_MX_ACTIVITY (R105)
  { index := 4, copies := 1, rst := 0, fields := [⟨0, 32, .rc⟩, ⟨32, 32, .rc⟩] },
  -- CO_MX_SUGAR_CTRL (R105)
  { index := 5, copies := 1, rst := 255, fields := [⟨0, 8, .krw⟩] },
  -- CO_MX_ERRORS (R105)
  { index := 6, copies := 1, rst := 0, fields := [⟨0, 16, .rc⟩, ⟨16, 16, .rc⟩, ⟨32, 16, .rc⟩] },
  -- CO_CRUMB_OWNER (R124)
  { index := 7, copies := 4, rst := 0, fields := [⟨0, 6, .ro⟩, ⟨6, 1, .ro⟩, ⟨7, 1, .ro⟩, ⟨8, 1, .ro⟩, ⟨9, 1, .ro⟩, ⟨32, 32, .ro⟩] },
  -- CO_CRUMB_SAT (R124)
  { index := 11, copies := 4, rst := 0, fields := [⟨0, 48, .ro⟩] },
  -- CO_CRUMB_FLUSH (R124)
  { index := 15, copies := 4, rst := 0, fields := [⟨0, 48, .ro⟩] },
  -- CO_CRUMB_CLIP (R124)
  { index := 19, copies := 4, rst := 0, fields := [⟨0, 48, .ro⟩] },
  -- CO_VE_STATUS (R167)
  { index := 23, copies := 1, rst := 0, fields := [⟨0, 4, .ro⟩, ⟨4, 1, .ro⟩, ⟨8, 4, .ro⟩, ⟨12, 4, .ro⟩] },
  -- CO_VE_TABLE_TAG (R167)
  { index := 24, copies := 1, rst := 0, fields := [⟨0, 48, .ro⟩] },
  -- CO_VE_ACTIVITY (R167)
  { index := 25, copies := 1, rst := 0, fields := [⟨0, 32, .rc⟩, ⟨32, 32, .rc⟩] },
  -- CO_VE_ERRORS (R167)
  { index := 26, copies := 1, rst := 0, fields := [⟨0, 16, .rc⟩, ⟨16, 16, .rc⟩] },
  -- CO_VE_INVALID (R167)
  { index := 27, copies := 4, rst := 0, fields := [⟨0, 48, .ro⟩, ⟨48, 1, .ro⟩] },
  -- CO_VE_OVERFLOW (R167)
  { index := 31, copies := 4, rst := 0, fields := [⟨0, 48, .ro⟩, ⟨48, 1, .ro⟩] },
  -- CO_VE_UNDERFLOW (R167)
  { index := 35, copies := 4, rst := 0, fields := [⟨0, 48, .ro⟩, ⟨48, 1, .ro⟩] },
  -- CO_L1_STATS (R219)
  { index := 39, copies := 1, rst := 0, fields := [⟨0, 32, .rc⟩, ⟨32, 32, .rc⟩] },
  -- CO_LS_ERRORS (R219)
  { index := 40, copies := 1, rst := 0, fields := [⟨0, 32, .rc⟩, ⟨32, 16, .rc⟩, ⟨48, 16, .rc⟩] },
  -- CO_RES_STATS (R246)
  { index := 41, copies := 1, rst := 0, fields := [⟨0, 16, .rc⟩, ⟨16, 16, .rc⟩, ⟨32, 16, .rc⟩, ⟨48, 16, .rc⟩] },
  -- CO_FENCE_STATS (R246)
  { index := 42, copies := 1, rst := 0, fields := [⟨0, 16, .rc⟩, ⟨16, 16, .rc⟩, ⟨32, 32, .rc⟩] },
  -- CO_SYNC_VALUE (R263)
  { index := 43, copies := 48, rst := 0, fields := [⟨0, 32, .ro⟩, ⟨32, 6, .ro⟩, ⟨38, 1, .ro⟩] },
  -- CO_SYNC_STATS (R263)
  { index := 91, copies := 1, rst := 0, fields := [⟨0, 16, .rc⟩, ⟨16, 16, .rc⟩, ⟨32, 32, .rc⟩] } ]

/-- The register maps of unit 3, BK. -/
def regsBK : List RegDef := [
  -- BK_DMA_QUEUE (R174)
  { index := 0, copies := 1, rst := 0, fields := [⟨0, 6, .ro⟩, ⟨6, 1, .ro⟩, ⟨7, 2, .ro⟩] },
  -- BK_DMA_XPOSE (R174)
  { index := 1, copies := 1, rst := 0, fields := [⟨0, 32, .rc⟩, ⟨32, 16, .rc⟩] },
  -- BK_BAR_SLOT (R263)
  { index := 2, copies := 16, rst := 0, fields := [⟨0, 12, .ro⟩, ⟨12, 12, .ro⟩, ⟨24, 1, .ro⟩, ⟨25, 1, .ro⟩, ⟨26, 6, .ro⟩, ⟨32, 32, .ro⟩] },
  -- BK_CORE_OFFLINE (R397)
  { index := 18, copies := 1, rst := 0, fields := [⟨0, 8, .ro⟩] } ]

/-- The register maps of unit 4, L2. -/
def regsL2 : List RegDef := [
  -- L2_STATS (R219)
  { index := 0, copies := 1, rst := 0, fields := [⟨0, 32, .rc⟩, ⟨32, 32, .rc⟩] },
  -- L2_VICTIM (R219)
  { index := 1, copies := 1, rst := 0, fields := [⟨0, 16, .rc⟩, ⟨16, 16, .rc⟩, ⟨32, 16, .rc⟩, ⟨48, 16, .rc⟩] },
  -- L2_VICTIM_BUDGET (R219)
  { index := 2, copies := 1, rst := 128, fields := [⟨0, 11, .krw⟩] },
  -- L2_LOCK_STATUS (R219)
  { index := 3, copies := 1, rst := 0, fields := [⟨0, 16, .ro⟩, ⟨16, 19, .ro⟩, ⟨35, 16, .ro⟩] },
  -- L2_GROUP (R219)
  { index := 4, copies := 16, rst := 0, fields := [⟨0, 6, .ro⟩, ⟨6, 2, .ro⟩, ⟨8, 1, .ro⟩, ⟨9, 1, .ro⟩, ⟨32, 32, .ro⟩] },
  -- L2_ERRORS (R219)
  { index := 20, copies := 1, rst := 0, fields := [⟨0, 24, .rc⟩, ⟨24, 16, .rc⟩, ⟨40, 16, .rc⟩, ⟨56, 8, .ro⟩] },
  -- L2_COH_STATS (R246)
  { index := 21, copies := 1, rst := 0, fields := [⟨0, 32, .rc⟩, ⟨32, 16, .rc⟩, ⟨48, 16, .rc⟩] },
  -- L2_DIR_STATUS (R246)
  { index := 22, copies := 1, rst := 0, fields := [⟨0, 16, .ro⟩, ⟨16, 16, .ro⟩] },
  -- L2_AGENT_TIMEOUT (R246)
  { index := 23, copies := 1, rst := 20000, fields := [⟨0, 32, .krw⟩] } ]

/-- The register maps of unit 5, HM. -/
def regsHM : List RegDef := [
  -- HM_CAPACITY (R219)
  { index := 0, copies := 1, rst := 0, fields := [⟨0, 64, .ro⟩] },
  -- HM_CHAN_CTRL (R219)
  { index := 1, copies := 1, rst := 0, fields := [⟨0, 7, .krw⟩, ⟨8, 3, .krw⟩] },
  -- HM_CHAN_STATE (R219)
  { index := 2, copies := 8, rst := 0, fields := [⟨0, 3, .ro⟩, ⟨3, 1, .ro⟩, ⟨4, 3, .ro⟩, ⟨7, 1, .ro⟩, ⟨8, 3, .ro⟩, ⟨11, 1, .ro⟩, ⟨12, 3, .ro⟩, ⟨15, 1, .ro⟩, ⟨16, 3, .ro⟩, ⟨19, 1, .ro⟩, ⟨20, 3, .ro⟩, ⟨23, 1, .ro⟩, ⟨24, 3, .ro⟩, ⟨27, 1, .ro⟩, ⟨28, 3, .ro⟩, ⟨31, 1, .ro⟩, ⟨32, 3, .ro⟩, ⟨35, 1, .ro⟩, ⟨36, 3, .ro⟩, ⟨39, 1, .ro⟩, ⟨40, 3, .ro⟩, ⟨43, 1, .ro⟩, ⟨44, 3, .ro⟩, ⟨47, 1, .ro⟩, ⟨48, 3, .ro⟩, ⟨51, 1, .ro⟩, ⟨52, 3, .ro⟩, ⟨55, 1, .ro⟩, ⟨56, 3, .ro⟩, ⟨59, 1, .ro⟩, ⟨60, 3, .ro⟩, ⟨63, 1, .ro⟩] },
  -- HM_RETRAIN_PERIOD (R219)
  { index := 10, copies := 1, rst := 100000000, fields := [⟨0, 64, .krw⟩] },
  -- HM_RETRAIN_THRESH (R219)
  { index := 11, copies := 1, rst := 64, fields := [⟨0, 16, .krw⟩] },
  -- HM_ERR_SEL (R219)
  { index := 12, copies := 1, rst := 0, fields := [⟨0, 7, .rw⟩] },
  -- HM_ERR_COUNTS (R219)
  { index := 13, copies := 1, rst := 0, fields := [⟨0, 24, .rc⟩, ⟨24, 16, .rc⟩, ⟨40, 16, .rc⟩, ⟨56, 8, .rc⟩] },
  -- HM_TG_CTRL (R219)
  { index := 14, copies := 1, rst := 0, fields := [⟨0, 7, .krw⟩, ⟨8, 2, .krw⟩, ⟨10, 1, .krw⟩, ⟨11, 1, .wo⟩, ⟨16, 32, .krw⟩] },
  -- HM_TG_STATUS (R219)
  { index := 15, copies := 1, rst := 0, fields := [⟨0, 1, .ro⟩, ⟨1, 1, .w1c⟩, ⟨8, 24, .ro⟩, ⟨32, 32, .ro⟩] },
  -- HM_PART_CTRL (R219)
  { index := 16, copies := 16, rst := 0, fields := [⟨0, 14, .krw⟩, ⟨16, 14, .krw⟩, ⟨32, 14, .krw⟩, ⟨48, 1, .krw⟩, ⟨49, 1, .krw⟩] },
  -- HM_PART_STATS (R219)
  { index := 32, copies := 16, rst := 0, fields := [⟨0, 32, .ro⟩, ⟨32, 32, .ro⟩] },
  -- HM_RETIRE_WINDOW (R219)
  { index := 48, copies := 1, rst := 86400000000000, fields := [⟨0, 64, .krw⟩] },
  -- HM_RETIRE_STATUS (R219)
  { index := 49, copies := 1, rst := 0, fields := [⟨0, 13, .ro⟩, ⟨16, 11, .ro⟩, ⟨27, 1, .ro⟩, ⟨48, 16, .rc⟩] } ]

/-- The register maps of unit 6, EL. -/
def regsEL : List RegDef := [
  -- EL_DEVICE_ID (R344)
  { index := 0, copies := 1, rst := 0, fields := [⟨0, 16, .ro⟩, ⟨16, 1, .ro⟩, ⟨32, 16, .ro⟩] },
  -- EL_SERIAL (R344)
  { index := 1, copies := 1, rst := 0, fields := [⟨0, 64, .ro⟩] },
  -- EL_LINK_STATUS (R344)
  { index := 2, copies := 48, rst := 0, fields := [⟨0, 3, .ro⟩, ⟨3, 1, .ro⟩, ⟨4, 2, .ro⟩, ⟨6, 1, .ro⟩, ⟨7, 1, .ro⟩, ⟨8, 1, .ro⟩, ⟨9, 1, .ro⟩, ⟨10, 6, .ro⟩, ⟨16, 16, .ro⟩, ⟨32, 1, .ro⟩] },
  -- EL_LINK_PEER (R344)
  { index := 50, copies := 48, rst := 0, fields := [⟨0, 64, .ro⟩] },
  -- EL_LINK_CTRL (R344)
  { index := 98, copies := 48, rst := 4096, fields := [⟨0, 16, .krw⟩] },
  -- EL_LINK_ASYM (R344)
  { index := 146, copies := 48, rst := 0, fields := [⟨0, 16, .krw⟩] },
  -- EL_LINK_ERRORS (R344)
  { index := 194, copies := 48, rst := 0, fields := [⟨0, 24, .rc⟩, ⟨24, 16, .rc⟩, ⟨40, 8, .rc⟩, ⟨48, 8, .rc⟩] },
  -- EL_ROUTE_SEL (R344)
  { index := 242, copies := 1, rst := 0, fields := [⟨0, 16, .krw⟩] },
  -- EL_ROUTE_DATA (R344)
  { index := 243, copies := 1, rst := 0, fields := [⟨0, 64, .krw⟩] },
  -- EL_JOBSET (R344)
  { index := 244, copies := 64, rst := 0, fields := [⟨0, 16, .ro⟩, ⟨16, 2, .ro⟩, ⟨18, 1, .ro⟩, ⟨19, 1, .ro⟩, ⟨20, 6, .ro⟩, ⟨26, 8, .ro⟩] },
  -- EL_JOBSET_FLOOD (R344)
  { index := 308, copies := 64, rst := 0, fields := [⟨0, 48, .ro⟩] },
  -- EL_EXPORT_BASE (R344)
  { index := 372, copies := 64, rst := 0, fields := [⟨0, 48, .ro⟩, ⟨48, 1, .ro⟩, ⟨49, 1, .ro⟩, ⟨50, 1, .ro⟩, ⟨51, 1, .ro⟩, ⟨52, 1, .ro⟩, ⟨53, 6, .ro⟩] },
  -- EL_EXPORT_BOUND (R344)
  { index := 436, copies := 64, rst := 0, fields := [⟨0, 49, .ro⟩, ⟨49, 6, .ro⟩] },
  -- EL_E2E (R344)
  { index := 500, copies := 1, rst := 34168932, fields := [⟨0, 10, .krw⟩, ⟨10, 10, .krw⟩, ⟨20, 6, .krw⟩] },
  -- EL_STATS (R344)
  { index := 501, copies := 1, rst := 0, fields := [⟨0, 16, .rc⟩, ⟨16, 16, .rc⟩, ⟨32, 16, .rc⟩, ⟨48, 16, .rc⟩] },
  -- EL_TSYNC_STATUS (R344)
  { index := 502, copies := 1, rst := 15, fields := [⟨0, 4, .ro⟩, ⟨4, 1, .ro⟩, ⟨5, 1, .ro⟩, ⟨32, 32, .ro⟩] } ]

/-- The register maps of unit 7, UC. -/
def regsUC : List RegDef := [
  -- UC_LINK_STATUS (R359)
  { index := 0, copies := 1, rst := 0, fields := [⟨0, 3, .ro⟩, ⟨3, 1, .ro⟩, ⟨4, 3, .ro⟩, ⟨7, 4, .ro⟩, ⟨11, 4, .ro⟩, ⟨15, 1, .ro⟩, ⟨16, 1, .ro⟩] },
  -- UC_LINK_CTRL (R359)
  { index := 1, copies := 1, rst := 0, fields := [⟨0, 2, .krw⟩] },
  -- UC_CPL_TIMEOUT (R359)
  { index := 2, copies := 1, rst := 50000, fields := [⟨0, 32, .krw⟩] },
  -- UC_PARTNER (R359)
  { index := 3, copies := 1, rst := 0, fields := [⟨0, 16, .ro⟩, ⟨16, 16, .ro⟩, ⟨32, 8, .ro⟩] },
  -- UC_ERRORS (R359)
  { index := 4, copies := 1, rst := 0, fields := [⟨0, 24, .rc⟩, ⟨24, 16, .rc⟩, ⟨40, 8, .rc⟩, ⟨48, 8, .rc⟩, ⟨56, 8, .rc⟩] },
  -- UC_STATS (R359)
  { index := 5, copies := 1, rst := 0, fields := [⟨0, 16, .rc⟩, ⟨16, 16, .rc⟩, ⟨32, 16, .rc⟩, ⟨48, 16, .rc⟩] } ]

/-- The register maps of unit 8, PM. -/
def regsPM : List RegDef := [
  -- PM_LEND_THRESH (R263)
  { index := 0, copies := 1, rst := 20000, fields := [⟨0, 32, .krw⟩] },
  -- PM_CAP (R379)
  { index := 1, copies := 1, rst := 700, fields := [⟨0, 11, .krw⟩, ⟨16, 1, .krw⟩] },
  -- PM_CLK_MODE (R379)
  { index := 2, copies := 1, rst := 120, fields := [⟨0, 1, .krw⟩, ⟨1, 7, .krw⟩] },
  -- PM_FIXED_EXCURSIONS (R379)
  { index := 3, copies := 1, rst := 0, fields := [⟨0, 32, .rc⟩] },
  -- PM_STATUS (R379)
  { index := 4, copies := 1, rst := 11470908, fields := [⟨0, 7, .ro⟩, ⟨7, 5, .ro⟩, ⟨12, 1, .ro⟩, ⟨13, 1, .ro⟩, ⟨14, 11, .ro⟩, ⟨48, 16, .rc⟩] },
  -- PM_REGION_STATE (R379)
  { index := 5, copies := 1, rst := 77267640647680, fields := [⟨0, 3, .ro⟩, ⟨3, 1, .ro⟩, ⟨4, 3, .ro⟩, ⟨7, 1, .ro⟩, ⟨8, 3, .ro⟩, ⟨11, 1, .ro⟩, ⟨12, 3, .ro⟩, ⟨15, 1, .ro⟩, ⟨16, 7, .ro⟩, ⟨24, 7, .ro⟩, ⟨32, 7, .ro⟩, ⟨40, 7, .ro⟩] },
  -- PM_LEND (R379)
  { index := 6, copies := 1, rst := 0, fields := [⟨0, 7, .krw⟩, ⟨32, 32, .rc⟩] },
  -- PM_DROOP_CTRL (R379)
  { index := 7, copies := 1, rst := 65536015, fields := [⟨0, 8, .krw⟩, ⟨16, 16, .krw⟩] },
  -- PM_DROOP_STATS (R379)
  { index := 8, copies := 4, rst := 0, fields := [⟨0, 32, .rc⟩, ⟨32, 16, .rc⟩] },
  -- PM_ENERGY (R379)
  { index := 12, copies := 1, rst := 0, fields := [⟨0, 32, .ro⟩, ⟨32, 32, .ro⟩] },
  -- PM_QUEUE_ENERGY (R379)
  { index := 13, copies := 1024, rst := 0, fields := [⟨0, 32, .ro⟩] },
  -- PM_CAL_CTRL (R424)
  { index := 1037, copies := 1, rst := 3600, fields := [⟨0, 32, .krw⟩, ⟨32, 4, .krw⟩] },
  -- PM_CAL_STATUS (R424)
  { index := 1038, copies := 1, rst := 0, fields := [⟨0, 4, .ro⟩, ⟨16, 16, .rc⟩, ⟨32, 16, .rc⟩] } ]

/-- The register maps of unit 9, TH. -/
def regsTH : List RegDef := [
  -- TH_CTRL (R379)
  { index := 0, copies := 1, rst := 32794975, fields := [⟨0, 8, .krw⟩, ⟨8, 8, .krw⟩, ⟨16, 11, .krw⟩] },
  -- TH_SENSOR (R379)
  { index := 1, copies := 64, rst := 0, fields := [⟨0, 12, .ro⟩, ⟨12, 1, .ro⟩] },
  -- TH_STATUS (R379)
  { index := 65, copies := 1, rst := 0, fields := [⟨0, 1, .ro⟩, ⟨8, 6, .ro⟩, ⟨16, 12, .ro⟩, ⟨28, 10, .ro⟩] },
  -- TH_GLITCH (R379)
  { index := 66, copies := 1, rst := 0, fields := [⟨0, 16, .rc⟩, ⟨16, 16, .rc⟩] } ]

/-- The register maps of unit 10, MC. -/
def regsMC : List RegDef := [
  -- MC_STATUS (R424)
  { index := 0, copies := 1, rst := 0, fields := [⟨0, 8, .ro⟩, ⟨8, 1, .w1c⟩, ⟨9, 1, .ro⟩, ⟨10, 1, .ro⟩, ⟨11, 1, .ro⟩, ⟨12, 1, .ro⟩, ⟨13, 1, .ro⟩, ⟨14, 2, .ro⟩] },
  -- MC_STATS (R424)
  { index := 1, copies := 1, rst := 0, fields := [⟨0, 16, .rc⟩, ⟨16, 16, .rc⟩, ⟨32, 16, .rc⟩, ⟨48, 16, .rc⟩] },
  -- MC_FREEZE_STATUS (R437)
  { index := 2, copies := 1, rst := 0, fields := [⟨0, 1, .ro⟩, ⟨1, 2, .ro⟩, ⟨3, 1, .ro⟩, ⟨16, 16, .rc⟩] },
  -- MC_FREEZE_TIME (R437)
  { index := 3, copies := 1, rst := 0, fields := [⟨0, 64, .ro⟩] },
  -- MC_SCAN_SEL (R437)
  { index := 4, copies := 1, rst := 0, fields := [⟨0, 4, .krw⟩, ⟨4, 8, .krw⟩, ⟨16, 31, .krw⟩] },
  -- MC_SCAN_DATA (R437)
  { index := 5, copies := 1, rst := 0, fields := [⟨0, 64, .ro⟩] },
  -- MC_SCAN_STATUS (R437)
  { index := 6, copies := 1, rst := 0, fields := [⟨0, 16, .rc⟩, ⟨16, 16, .rc⟩, ⟨32, 31, .ro⟩, ⟨63, 1, .ro⟩] } ]

/-- The register maps of unit 11, SP. -/
def regsSP : List RegDef := [
  -- SP_BOOT_STATUS (R424)
  { index := 0, copies := 1, rst := 0, fields := [⟨0, 4, .ro⟩, ⟨4, 2, .ro⟩, ⟨6, 1, .ro⟩, ⟨7, 4, .ro⟩, ⟨32, 32, .ro⟩] },
  -- SP_IMAGE_STATUS (R424)
  { index := 1, copies := 1, rst := 0, fields := [⟨0, 1, .ro⟩, ⟨1, 1, .ro⟩, ⟨2, 1, .ro⟩, ⟨3, 6, .ro⟩, ⟨9, 6, .ro⟩, ⟨16, 1, .ro⟩, ⟨17, 1, .ro⟩, ⟨18, 1, .ro⟩, ⟨19, 6, .ro⟩, ⟨25, 6, .ro⟩, ⟨32, 1, .ro⟩, ⟨33, 1, .ro⟩, ⟨34, 1, .ro⟩, ⟨35, 6, .ro⟩, ⟨41, 6, .ro⟩, ⟨48, 1, .ro⟩, ⟨49, 1, .ro⟩, ⟨50, 1, .ro⟩, ⟨51, 6, .ro⟩, ⟨57, 6, .ro⟩] },
  -- SP_ATTEST_STATUS (R424)
  { index := 2, copies := 1, rst := 0, fields := [⟨0, 16, .ro⟩, ⟨16, 1, .ro⟩, ⟨32, 16, .rc⟩, ⟨48, 4, .ro⟩] } ]

/-- The register maps of unit 12, ST. -/
def regsST : List RegDef := [
  -- ST_STATUS (R424)
  { index := 0, copies := 1, rst := 0, fields := [⟨0, 1, .ro⟩, ⟨1, 1, .ro⟩, ⟨2, 1, .ro⟩, ⟨3, 1, .ro⟩, ⟨32, 17, .ro⟩] },
  -- ST_CTRL (R424)
  { index := 1, copies := 1, rst := 0, fields := [⟨0, 2, .krw⟩] },
  -- ST_LINK_ENABLE (R424)
  { index := 2, copies := 1, rst := 281474976710655, fields := [⟨0, 48, .krw⟩] } ]

/-- The register maps of unit 13, DB. -/
def regsDB : List RegDef := [
  -- DB_TRAY_CTRL (R79)
  { index := 0, copies := 1, rst := 0, fields := [⟨0, 6, .krw⟩, ⟨8, 2, .krw⟩] },
  -- DB_TRAY_HALTED (R79)
  { index := 1, copies := 1, rst := 0, fields := [⟨0, 64, .ro⟩] },
  -- DB_TRAY_STATUS (R79)
  { index := 2, copies := 1, rst := 0, fields := [⟨0, 1, .w1c⟩, ⟨1, 1, .w1c⟩, ⟨8, 6, .ro⟩, ⟨16, 32, .ro⟩] },
  -- DB_TRAY_MASK (R79)
  { index := 3, copies := 1, rst := 0, fields := [⟨0, 32, .ro⟩, ⟨32, 32, .ro⟩] },
  -- DB_BRK (R437)
  { index := 4, copies := 8, rst := 0, fields := [⟨0, 32, .krw⟩, ⟨32, 6, .krw⟩, ⟨38, 1, .krw⟩, ⟨39, 1, .krw⟩] },
  -- DB_WATCH (R437)
  { index := 12, copies := 4, rst := 0, fields := [⟨0, 48, .krw⟩, ⟨48, 5, .krw⟩, ⟨53, 1, .krw⟩, ⟨54, 1, .krw⟩, ⟨55, 1, .krw⟩, ⟨56, 1, .krw⟩] },
  -- DB_DEBUG_STATUS (R437)
  { index := 16, copies := 1, rst := 0, fields := [⟨0, 8, .w1c⟩, ⟨8, 4, .w1c⟩, ⟨12, 6, .ro⟩] },
  -- DB_SAMPLE_SEQ (R437)
  { index := 17, copies := 1, rst := 0, fields := [⟨0, 64, .ro⟩] } ]

/-- The register maps of unit 14, MT. -/
def regsMT : List RegDef := [
  -- MT_NOW (R35)
  { index := 0, copies := 1, rst := 0, fields := [⟨0, 64, .ro⟩] },
  -- MT_CTRL (R35)
  { index := 1, copies := 1, rst := 0, fields := [⟨0, 2, .krw⟩, ⟨2, 1, .krw⟩] },
  -- MT_STATUS (R35)
  { index := 2, copies := 1, rst := 32, fields := [⟨0, 3, .ro⟩, ⟨3, 1, .ro⟩, ⟨4, 1, .w1c⟩, ⟨5, 1, .ro⟩, ⟨32, 32, .ro⟩] },
  -- MT_SET (R35)
  { index := 3, copies := 1, rst := 0, fields := [⟨0, 64, .krw⟩] },
  -- MT_STEP (R35)
  { index := 4, copies := 1, rst := 0, fields := [⟨0, 64, .krw⟩] },
  -- MT_RATE (R35)
  { index := 5, copies := 1, rst := 0, fields := [⟨0, 32, .ro⟩] },
  -- MT_FREQ_TRIM (R35)
  { index := 6, copies := 1, rst := 0, fields := [⟨0, 32, .krw⟩] },
  -- MT_PPS_CAPTURE (R35)
  { index := 7, copies := 1, rst := 0, fields := [⟨0, 64, .ro⟩] },
  -- MT_PPS_GLITCH (R35)
  { index := 8, copies := 1, rst := 0, fields := [⟨0, 32, .rc⟩] },
  -- MT_UPSTREAM (R35)
  { index := 9, copies := 1, rst := 0, fields := [⟨0, 6, .krw⟩, ⟨6, 1, .krw⟩] },
  -- MT_SYNC_PERIOD (R35)
  { index := 10, copies := 1, rst := 1000000, fields := [⟨0, 32, .krw⟩] },
  -- MT_HOLDOVER_LIMIT (R35)
  { index := 11, copies := 1, rst := 10000000000, fields := [⟨0, 64, .krw⟩] } ]

/-- The register maps of a unit (R10). -/
def regsOfUnit (unit : Nat) : List RegDef :=
  match unit with
  | 0 => regsFE
  | 1 => regsTU
  | 2 => regsCO
  | 3 => regsBK
  | 4 => regsL2
  | 5 => regsHM
  | 6 => regsEL
  | 7 => regsUC
  | 8 => regsPM
  | 9 => regsTH
  | 10 => regsMC
  | 11 => regsSP
  | 12 => regsST
  | 13 => regsDB
  | 14 => regsMT
  | _ => []

/-- The register map that an INDEX of a unit falls in. -/
def findReg (unit index : Nat) : Option RegDef :=
  (regsOfUnit unit).find? (fun r => decide (r.index ≤ index) && decide (index < r.index + r.copies))

end Sys2Proof.Machine
end

