-- ==== Sys2Proof/Machine/State.lean ====
section
/-!
DEFINITION. Machine/State.lean: the state of the device as plain data, and the state right after reset.
-/
namespace Sys2Proof.Machine

/-- Why the block stops. No rule of the manual stops the device: a fault of the device is a next state with an
error record (R381). The constructor is kept for a state that no run from reset reaches. -/
inductive Fault where
  /-- Raised by no command: a place for a state outside the invariants. Safe. -/
  | unreachable
deriving DecidableEq, Repr

/-- Why a command is refused. -/
inductive Refusal where
  /-- The command's meaning is not written. Raised by the dispatch only. Safe. -/
  | notModelled (mnemonic : String)
deriving DecidableEq, Repr

/-- The three outcomes of a command of this block. -/
abbrev Out (σ : Type) := Host.Outcome σ Fault Refusal

/-- An upper timer (R258, R286, R261): its length in ns, and the reading of its context's clock when it started. That
clock stands while the timer is paused (R78, R259, R390). -/
structure Timer where
  span : Nat
  mark : Nat
deriving DecidableEq, Repr

/-! ### Launches, windows, trays -/

/-- A window: a checked physical extent that a launch sees as one kernel argument (R72, R73, R191). -/
structure Window where
  base : Nat := 0
  bound : Nat := 0
  r : Bool := false
  w : Bool := false
  a : Bool := false
  policy : Nat := 0
  near : Bool := false
  imm : Bool := false
  range : Nat := 0
  /-- The MAILBOX argument's window, which device-side code can extend (R307). -/
  mailbox : Bool := false
deriving DecidableEq, Repr

/-- Totals of the crumb and IEEE counters of a node (R123, R159). -/
structure Crumbs where
  sat : Nat := 0
  flush : Nat := 0
  clip : Nat := 0
  inv : Nat := 0
  ovf : Nat := 0
  unf : Nat := 0
  crumbOvf : Bool := false
  ieeeOvf : Bool := false
deriving DecidableEq, Repr

/-- What an open divergence records (R60, R61, R63): its reconvergence address, none for a split without one, and
the union of its lanes. -/
structure Split where
  id : Nat
  reconv : Option Nat
  lanes : Mask
deriving DecidableEq, Repr

/-- What a waiting path waits for (R61, R64, R239, R250, R252, R255, R262). -/
inductive WaitKind where
  | reconv
  | counter (index target : Nat)
  | barrier (scope index : Nat)
  | event (addr target : Nat)
  | pair (n : Nat) (sideA : Bool)
  | result (serial : Nat)
  | fence (scope kind : Nat)
deriving DecidableEq, Repr

/-- A wait of a path (R247, R248, R258): its timer, and the power-lending threshold that runs beside it (R261). -/
structure Wait where
  kind : WaitKind
  soft : Bool := false
  pdst : Nat := 7
  started : Nat := 0
  timer : Option Timer := none
  long : Bool := false
  lend : Option Timer := none
deriving DecidableEq, Repr

/-- A path: a program counter in units of 8 B of the code window, its lanes, the splits it lies in (innermost
first), its wait, and the instructions it has issued in its turn (R60 to R62). -/
structure Path where
  id : Nat
  pc : Nat
  lanes : Mask
  splits : List Nat := []
  wait : Option Wait := none
  issued : Nat := 0
deriving DecidableEq, Repr

/-- One register of a result still in flight: the lanes it is written to and the value for each lane. -/
structure LaneWrite where
  reg : Nat
  lanes : Mask
  vals : List Lane
deriving DecidableEq, Repr

/-- One predicate of a result still in flight. -/
structure PredWrite where
  p : Nat
  lanes : Mask
  val : Mask
deriving DecidableEq, Repr

/-- What else the completion of an instruction in flight does. -/
inductive PendKind where
  /-- A result of the SIMT pipe, a scratchpad load or a CREAD. -/
  | plain
  /-- A fragment load. -/
  | fragment
  /-- A row-hold load: the row, its format and its elements (R93). -/
  | row (row fmt : Nat) (elems : List Nat)
  /-- A matrix instruction on a set, with the entry it commits to (R89, R90). -/
  | matrix (set : Nat) (commit : Option Nat)
  /-- A read of a tile-queue entry into registers (R92). -/
  | tileRead
  /-- A result the vector engine or the load/store unit will deliver: the registers wait, nothing else. -/
  | external (serial : Nat)
deriving DecidableEq, Repr

/-- An instruction that has issued and has not completed (R51, R75). -/
structure Pend where
  serial : Nat
  kind : PendKind
  longLatency : Bool := false
  regs : List Nat := []
  writes : List LaneWrite := []
  preds : List PredWrite := []
deriving DecidableEq, Repr

/-- A lane's reservation on a line (R71, R243, R244). -/
structure Reservation where
  lane : Nat
  line : Nat
  path : Nat
  /-- The hold runs: snoops of the line wait. -/
  held : Bool := true
  /-- A conflicting write reached the line. -/
  conflict : Bool := false
  /-- The hold ended by its 64 cycles, or a cause of a spurious failure came. -/
  spurious : Bool := false
  /-- The tray's count of issued instructions when the reserved load issued. -/
  base : Nat := 0
deriving DecidableEq, Repr

/-- A tray in its slot. Lane registers and predicates list what has been written since the tray was placed. -/
structure Tray where
  launch : Nat
  sheet : Nat
  index : Nat
  seed : Nat
  stamp : Nat
  active : Bool := false
  halted : Bool := false
  stepping : Bool := false
  /-- The path that the stepped instruction was issued from. -/
  stepPath : Nat := 0
  yieldHold : Bool := false
  regs : SMap Lane := []
  preds : SMap Mask := []
  mtimeHi : SMap Lane := []
  live : Mask := BitVec.allOnes 32
  paths : List Path
  running : Nat := 0
  nextPath : Nat := 1
  splits : List Split := []
  nextSplit : Nat := 0
  pend : List Pend := []
  resv : List Reservation := []
  remoteFail : Bool := false
  senses : SMap Bool := []
  lastIssued : Option Nat := none
  /-- The first issue after a STEP or RESUME ignores the breakpoints (R434). -/
  brkSkip : Bool := false
  /-- A STEP has issued its one instruction and waits for its completion (R77). -/
  stepIssued : Bool := false
  /-- Instructions issued so far, and what has come between that makes a reserved load's store-conditional fail
  spuriously: memory accesses, fences, path switches, halts and steps (R244). -/
  issueCount : Nat := 0
  disturbed : Nat := 0
  /-- Remote operations and mover descriptors of the tray not yet accepted (R174, R327). -/
  remotes : Nat := 0
  descs : Nat := 0
deriving DecidableEq, Repr

/-- A barrier: arrivals of the phase, and the sense bit S (R252). -/
structure Barrier where
  count : Nat := 0
  sense : Bool := false
deriving DecidableEq, Repr

/-- A resident sheet: its number, its launch and index, its place in local SRAM and its four barriers. -/
structure Sheet where
  uid : Nat
  launch : Nat
  index : Nat
  base : Nat
  size : Nat
  trays : Nat
  barriers : SMap Barrier := []
  placedAt : Nat := 0
  counted : Bool := true
  /-- A forced switch or a region's shutdown takes the sheet off its core: its trays stop at their safe points (R19, R289). -/
  leaving : Bool := false
deriving DecidableEq, Repr

/-! ### The matrix array (R80 to R105) -/

/-- The state of an accumulator set (R90). -/
inductive AccState where
  | free | openTile | draining
deriving DecidableEq, Repr

/-- An accumulator set: its owner's slot, its accumulators (unlisted: zero), its saturation count (R114), whether
the last instruction on it has reached its latency, and what its commit carries. -/
structure AccSet where
  state : AccState := .free
  owner : Nat := 0
  acc : SMap Int := []
  sat : Nat := 0
  final : Bool := true
  entry : Nat := 0
  tag : Nat := 0
deriving DecidableEq, Repr

/-- The state of a tile-queue entry (R91). -/
inductive TqState where
  | free | filling | ready
deriving DecidableEq, Repr

/-- A tile-queue entry: its owning sheet, its 4,096 values (unlisted: zero), its TAG and saturation count. -/
structure TqEntry where
  state : TqState := .free
  sheet : Nat := 0
  vals : SMap Int := []
  tag : Nat := 0
  sat : Nat := 0
deriving DecidableEq, Repr

/-- A row of the row-hold buffer (R93): valid, its format, its tag and 72 fields. -/
structure HoldRow where
  valid : Bool := false
  fmt : Nat := 0
  tag : Nat := 0
  elems : List Nat := []
  /-- The row was invalidated by an uncorrectable word (R105). -/
  bad : Bool := false
deriving DecidableEq, Repr

/-! ### The vector engine (R142 to R167) -/

/-- A stream descriptor as read from registers at issue (R142). -/
structure Stream where
  offset : Nat
  fmt : Nat
  cols : Nat
  rows : Nat
  pitch : Nat
deriving DecidableEq, Repr

/-- A VEC instruction in the queue: its opcode and fields, its descriptors and its literal (R145, R146). -/
structure VInstr where
  op : Nat
  dst : Option Stream
  srcA : Option Stream
  srcB : Option Stream
  srcC : Option Stream
  /-- The registers named by SRC_B with TSRC and by SRC_C of a reduction (R145). -/
  regB : Nat := 135
  regC : Nat := 135
  imm : Bool := false
  lit : Nat := 0
  prec : Nat := 0
  sr : Bool := false
  tsrc : Bool := false
  tq : Nat := 0
  rel : Bool := false
  sub : Nat := 0
deriving DecidableEq, Repr

/-- What a started instruction or chain will write when it completes (R151). -/
structure VResult where
  /-- Memory writes: address, length in bytes, value. -/
  writes : List (Nat × Nat × Nat) := []
  regs : List LaneWrite := []
  crumbs : Crumbs := {}
  cross : Nat := 0
  table : Option (Nat × Option (List Nat)) := none
deriving DecidableEq, Repr

/-- A queue entry of the engine: an instruction, or a chain of up to four (R147, R149). -/
structure VEntry where
  serial : Nat
  slot : Nat
  sheet : Nat
  launch : Nat
  members : List VInstr
  closed : Bool
  /-- The lane that governs the chain; none when no lane's predicate was true, and the chain does nothing (R142). -/
  lane : Option Nat
  tableEcc : Ecc := .clean
  result : Option VResult := none
deriving DecidableEq, Repr

/-- A function or derivative table (R163, R164): its context tag and 1,040 words of FP32; `bad` when an
uncorrectable word invalidated it. -/
structure FnTable where
  valid : Bool := false
  tag : Nat := 0
  words : List Nat := []
  bad : Bool := false
deriving DecidableEq, Repr

/-! ### Memory accesses in flight -/

/-- The read-modify-write operations of R67. -/
inductive AtomOp where
  | add | smin | smax | umin | umax | and | or | xor | fadd | swap | cas | lockTry
deriving DecidableEq, Repr

/-- One lane's access: its address and its operands. -/
structure LaneAcc where
  lane : Nat
  addr : Nat
  data : Nat := 0
  data2 : Nat := 0
deriving DecidableEq, Repr

inductive MemKind where
  | load (isSigned : Bool)
  | reserved
  | store
  | atomic (op : AtomOp) (fetch : Bool)
deriving DecidableEq, Repr

/-- An access between issue and its end: a load that has not returned, a store not yet accepted, an atomic whose
requests are not all performed (R68, R187, R189, R236). -/
structure MemOp where
  serial : Nat
  slot : Nat
  path : Nat
  kind : MemKind
  dst : Nat := 135
  size : Nat
  acquire : Bool := false
  release : Bool := false
  scope : Nat := 0
  policy : Nat := 0
  near : Bool := false
  window : Nat := 0
  host : Bool := false
  lanes : List LaneAcc
  /-- Lanes performed so far, with the value each received. -/
  got : SMap Nat := []
  /-- A host-window request is on its way. -/
  sent : Bool := false
  /-- For a reserved load: the tray's counts at issue. -/
  base : Nat := 0
  disturbed : Nat := 0
  /-- The watchpoints that match it (R435). -/
  watch : Nat := 0
  /-- For an access to the host window (R353, R355): bytes that have come, requests that are out, and the first failure's
  status. -/
  hostData : SMap Byte := []
  waiting : Nat := 0
  failed : Nat := 0
  /-- For LOCKTRY: the predicate that receives success, and where the failing lanes go on. -/
  pc : Nat := 0
deriving DecidableEq, Repr

/-- The state of a line in an L1 (R221). -/
inductive L1St where
  | m | e | s | f
deriving DecidableEq, Repr

/-- One set of an L1: the lines in its ways and its pseudo-LRU bits (R186). -/
structure L1Set where
  ways : SMap Nat := []
  plru : Nat := 0
deriving DecidableEq, Repr

/-- A crumb bank (R122) beyond what its registers show: the launch that holds it. -/
structure Core where
  trays : SMap Tray := []
  sheets : List Sheet := []
  l1KiB : Nat := 0
  sets : SMap AccSet := []
  tq : SMap TqEntry := []
  rows : SMap HoldRow := []
  veq : List VEntry := []
  tables : SMap FnTable := []
  ops : List MemOp := []
  l1 : SMap L1Set := []
  nextSerial : Nat := 0
  lastMop : Nat := 0
  lastMopQueue : Nat := 0
  mopIdle : Nat := 0
  moverCredits : Nat := 4
  remoteCredits : Nat := 64
  silent : Bool := false
  /-- The context whose sheet was placed here last. -/
  lastContext : Option Nat := none
deriving DecidableEq, Repr

/-! ### Lines (R186, R194, R221, R225, R226) -/

/-- A request at a home (R227). -/
inductive CohReq where
  | rdShared | rdOwn | rdOnce | upgrade | claim | wrThru | wrInv | atomic
deriving DecidableEq, Repr

/-- A snoop (R227). -/
inductive Snoop where
  | fwdS | fwdO | fwdOnce | inv
deriving DecidableEq, Repr

/-- A snoop that a home has sent: whether the L1 has acted on it, and when it was sent (R233). -/
structure SentSnoop where
  core : Nat
  kind : Snoop
  acted : Bool := false
  sentAt : Nat := 0
deriving DecidableEq, Repr

/-- The request a home is processing for a line (R226). Agents 0 to 191 are the L1s; higher numbers do not cache. -/
structure Txn where
  req : CohReq
  agent : Nat
  snoops : List SentSnoop := []
deriving DecidableEq, Repr

/-- A line's way in its home slice: dirty, its lock group, its place in the order of use. -/
structure L2Way where
  way : Nat := 0
  dirty : Bool := false
  lock : Option Nat := none
  stamp : Nat := 0
deriving DecidableEq, Repr

/-- A line: the L1s that hold it, its way in its home slice, the request being processed and those behind it, whether it
is being reloaded (R217), the context whose fill brought it, and its first failure (R218). -/
structure Line where
  l1 : SMap L1St := []
  slice : Option L2Way := none
  txn : Option Txn := none
  queue : List (CohReq × Nat) := []
  reloadAt : Option Nat := none
deriving DecidableEq, Repr

/-! ### Launches -/

/-- A sheet of a launch that a context switch or a region shutdown saved (R75, R95, R103, R289): the sheet, its
trays, its scratchpad bytes and poisoned words, its open tiles and entries, its rows, tables and sync state. -/
structure SavedSheet where
  sheet : Sheet
  trays : SMap Tray
  bytes : SMap Byte
  poison : SMap Bool
  sets : SMap AccSet
  tq : SMap TqEntry
  rows : SMap HoldRow
  tables : SMap FnTable
  counters : SMap Word
  block : Nat
  core : Nat
  dma : List (Nat × Nat) := []
deriving DecidableEq, Repr

/-- A mover descriptor as it leaves the posting core: its window address is physical (R169, R171). -/
structure Desc where
  launch : Nat
  core : Nat
  slot : Nat
  word0 : Nat
  mode : Nat
  wide : Bool
  toWindow : Bool
  tr : Nat
  tc : Nat
  dmask : Nat
  cnt : Nat
  cntEn : Bool
  base : Nat
  wpitch : Nat
  doff : Nat
  dpitch : Nat
  d2off : Nat
  d2pitch : Nat
  policy : Nat := 0
deriving DecidableEq, Repr

/-- A granule of a COPY that the front end has dealt to a mover (R277). -/
structure Granule where
  queue : Nat
  seq : Nat
  node : Nat
  src : Nat
  dst : Nat
  bytes : Nat
deriving DecidableEq, Repr

/-- What a mover serves: a cell's descriptor or a front-end granule. -/
inductive MoverJob where
  | desc (d : Desc)
  | granule (g : Granule)
deriving DecidableEq, Repr

/-- A block's mover: the descriptors of its cells in the order of arrival, the front end's, what is in service, and
which queue was served last (R172, R203, R277). Data that host reads have brought for the job stands in `data`. -/
structure Mover where
  queue : List Desc := []
  fe : List Granule := []
  job : Option MoverJob := none
  lastFe : Bool := false
  data : SMap Nat := []
  waiting : Nat := 0
  /-- The job's data has been sent to the host window, and its completions are awaited. -/
  writing : Bool := false
  /-- The first failure among the job's requests on the port. -/
  failed : Nat := 0
deriving DecidableEq, Repr

/-- A launch: what its node gives it (R279), its serial, and how far it has run. -/
structure Launch where
  serial : Nat
  context : Nat
  queue : Nat
  seq : Nat
  node : Nat
  codeBase : Nat := 0
  codeBytes : Nat := 0
  windows : List Window := []
  sheets : Nat := 1
  trays : Nat := 1
  regs : Nat := 8
  l1 : Nat := 0
  gang : Bool := false
  aligned : Bool := false
  sugar : Nat := 0
  scratch : Nat := 0
  stream : Nat := 0
  counterMask : Nat := 0
  waitTimeout : Nat := 0
  startAt : Nat := 0
  seed : Nat := 0
  started : Nat := 0
  /-- Since when sheets of it wait for room (R289). -/
  waitSince : Nat := 0
  late : Bool := false
  /-- Sheets placed for the first time so far, and sheets that have retired. -/
  nextSheet : Nat := 0
  retired : Nat := 0
  saved : List SavedSheet := []
  totals : Crumbs := {}
  status : Nat := 0
  firstError : Nat := 0
  aborting : Bool := false
  /-- Cores on which the launch's trays have stopped (R17, R288). -/
  stopped : List Nat := []
  mailbox : Option Nat := none
  firstIssue : Option Nat := none
  /-- The four device-unit slots of a gang launch (R253, R254). -/
  dbar : Option Nat := none
  /-- Block and device barriers of a gang launch as saved (R254): count and sense bit, at 4 x block + index, the device's
  at block 24. -/
  bars : SMap (Nat × Bool) := []
deriving DecidableEq, Repr

/-! ### Queues, buffers and nodes (R268 to R288) -/

/-- How far a node is (R278, R283). -/
inductive NodeStage where
  | waiting | running | acted | done
deriving DecidableEq, Repr

/-- A node of a buffer: its header and body as copied, what validation has translated, and how far it is. -/
structure Node where
  index : Nat
  typ : Nat := 0
  words : List Nat := []
  deps : List Nat := []
  record : Option Nat := none
  event : Option (Nat × Nat) := none
  watchdog : Nat := 0
  stage : NodeStage := .waiting
  status : Nat := 0
  /-- Physical addresses of the body's extents: source and destination, or the event word. -/
  phys : List Nat := []
  windows : List Window := []
  code : Nat × Nat := (0, 0)
  refs : List Nat := []
  result : Nat := 0
  launch : Nat := 0
  error : Nat := 0
  start : Nat := 0
  readyAt : Option Nat := none
  late : Bool := false
  timer : Option Timer := none
  aborting : Bool := false
  /-- How far the steps of R284 are: 0 record, 1 event, 2 release, 3 done; 10 and 11 while the record or the event is on its
  way to the host window. -/
  fin : Nat := 0
  /-- The watchdog stands while sheets of the node are saved away (R286): its mark then holds what has passed. -/
  timerHeld : Bool := false
  /-- Granules not yet handed to a mover, with the mover of each (R277), and those in movers. -/
  deal : List (Nat × Granule) := []
  moving : Nat := 0
  /-- Lines of a PRELOAD done so far (R197, R201). -/
  progress : Nat := 0
  crumbs : Crumbs := {}
  /-- The machine time at which an operation of the node began and the host data it waits for. -/
  waiting : Nat := 0
  data : SMap Nat := []
deriving DecidableEq, Repr

/-- A submitted buffer (R273, R274): its sequence number, its copy in the pool, and its nodes. -/
structure Buffer where
  seq : Nat
  addr : Nat
  bytes : Nat
  concurrent : Bool
  nodes : List Node
deriving DecidableEq, Repr

/-- A command held through a queue's transition (R270). -/
inductive HeldCmd where
  | enable | reset | destroy
deriving DecidableEq, Repr

/-- A host request that waits until its line's channel serves it (R206, R352): 0 read, 1 write, 2 to 5 atomics. -/
structure HeldReq where
  kind : Nat
  rtag : Nat
  addr : Nat
  len : Nat
  near : Bool
  size64 : Bool
  data : Nat
  /-- A line of it has been refetched for it (R392). -/
  tried : Bool := false
deriving DecidableEq, Repr

/-- A queue beyond what FE_QUEUE_STATUS shows: its SEED, its next sequence number, its queue event, its objects, its
buffers, the command held, and the oldest record of its fallback ring. -/
structure Queue where
  seed : Nat := 0
  nextSeq : Nat := 1
  doneSeq : Nat := 0
  event : Option Nat := none
  buffers : List Buffer := []
  held : Option HeldCmd := none
  ringHead : Nat := 0
  /-- Nodes whose engines have not yet reported their abort, and when it was sent (R288). -/
  aborts : List NodeRef := []
  abortAt : Nat := 0
  /-- The guilty status and the sequence of its error record (R287). -/
  guilt : Nat × Nat := (0, 0)
  /-- Time in this sampling window in which the queue had a running node (R291), and since when it has had one. -/
  activeNs : Nat := 0
  activeSince : Option Nat := none
  /-- The queue event's object and the queue's own (R301). -/
  eventObj : Option Nat := none
  obj : Option Nat := none
  /-- Bytes of the pool that the queue's buffers hold (R273). -/
  pool : Nat := 0
deriving DecidableEq, Repr

/-- A range of the translation unit (R292, R297). Addresses and lengths are in granules of 4 KiB. -/
structure Range where
  context : Nat
  vbase : Nat
  ngran : Nat
  perm : Nat
  mattr : Nat
  pbase : Nat
  rsrc : Nat := 0
  rwin : Nat := 0
  raddr : Nat := 0
  rdev : Nat := 0
  object : Nat
  heap : Option Nat := none
deriving DecidableEq, Repr

/-- A heap of a context (R306), in granules. -/
structure Heap where
  index : Nat
  vbase : Nat
  ngran : Nat
  pbase : Nat
deriving DecidableEq, Repr

/-- A context: its partition, its heaps, and whether it is being destroyed (R268, R271). -/
structure Context where
  partition : Nat := 0
  heaps : List Heap := []
  destroying : Bool := false
deriving DecidableEq, Repr

/-- An allocation that a launch or a context holds (R301, R307): its object, its launch when it is not kept, and the
window that shows it. -/
structure Alloc where
  object : Nat
  context : Nat
  launch : Option Nat
  win : Nat
deriving DecidableEq, Repr

/-! ### Memory: channels, retirement, partitions -/

/-- An entry of the retired list (R218, R219). -/
inductive Retired where
  | granule (g : Nat)
  | way (slice set way : Nat)
deriving DecidableEq, Repr

/-- An HBM channel beyond HM_CHAN_STATE: failed training attempts, an OFFLINE that waits for a retrain's end, its next
periodic retrain, its error counts (R209, HM_ERR_COUNTS), corrected words in this window, writes discarded. -/
structure Channel where
  attempts : Nat := 0
  offlineNext : Bool := false
  early : Bool := false
  due : Nat := 0
  corrected : Nat := 0
  uncorrectable : Nat := 0
  retrains : Nat := 0
  skipped : Nat := 0
  windowCorrected : Nat := 0
  discarded : Nat := 0
deriving DecidableEq, Repr

/-- A bandwidth partition (R212, R213): tokens in 2^-16 bytes by region, bytes requested by region and served in this epoch,
bytes served and cycles held in this window. -/
structure Partition where
  /-- The setting in effect, as HM_PART_CTRL lays it out (R214). -/
  ctrl : Nat := 0
  filledAt : Nat := 0
  tokens : SMap Nat := []
  asked : SMap Nat := []
  /-- Bytes requested by region in the past epoch, by which RATE and BURST are divided (R213). -/
  basis : SMap Nat := []
  served : Nat := 0
  bytes : Nat := 0
  held : Nat := 0
deriving DecidableEq, Repr

/-! ### What the device sends -/

/-- Where a request of the device on the UCIe port comes from (R353, R355). -/
inductive ReqSrc where
  | tray (core serial : Nat)
  | mover (block : Nat)
  | submit (tag : Nat)
  | record (node : NodeRef)
  | event (node : NodeRef)
  | body (node : NodeRef)
  | queueEvent (queue : Nat)
deriving DecidableEq, Repr

/-- DREAD, DWRITE and DATOMIC with AOP 4 (R348, R353). -/
inductive ReqKind where
  | read | write | signal
deriving DecidableEq, Repr

/-- A request of the device: its ordering stream (R354), its host window offset, its bytes, and the port's clock when it
was made (R355). -/
structure DevReq where
  src : ReqSrc
  kind : ReqKind
  stream : Nat
  off : Nat
  len : Nat
  data : Nat := 0
  started : Nat := 0
  /-- Machine time at which it left. -/
  sentAt : Nat := 0
deriving DecidableEq, Repr

/-- A frame that waits for its acknowledgement: its sequence number, its packet, and when it was sent (R310, R321). -/
structure SentFrame where
  seq : Nat
  pkt : EPkt
  since : Nat
deriving DecidableEq, Repr

/-- A link beyond its registers (R310 to R315): the serial and link number recorded at the last ACK_PEER, the next frame
sequence number sent and expected, the frames awaiting acknowledgement, the frame last named by a NAK with its replays,
when an acknowledgement last advanced, corrected symbols by lane in this window, the lane that retrains, and when
RETRAINING began. -/
structure ELink where
  acked : Option (Nat × Nat) := none
  tx : Nat := 0
  rx : Nat := 0
  sent : List SentFrame := []
  nak : Nat × Nat := (0, 0)
  ackAt : Nat := 0
  symbols : Nat × Nat := (0, 0)
  lane : Option Nat := none
  downAt : Nat := 0
deriving DecidableEq, Repr

/-- A source's filter record at this target (R333): its incarnation, BASE, and what was answered by sequence number. -/
structure Filter where
  incarn : Nat
  base : Nat
  done : SMap (Nat × Nat) := []
deriving DecidableEq, Repr

/-- A remote operation at its source (R325 to R328): the tray that posted it, its descriptor with physical local
addresses, and how far it is. -/
structure EOp where
  core : Nat
  launch : Nat
  sheet : Nat
  tray : Nat
  slot : Nat
  op : Nat
  evt : Nat
  size64 : Bool
  jslot : Nat
  jobset : Nat
  epoch : Nat
  dst : Nat
  dwin : Nat
  doff : Nat
  len : Nat
  loc : Nat
  policy : Nat := 0
  operand : Nat
  compare : Nat
  evwin : Nat
  evoff : Nat
  evalue : Nat
  sevt : Nat
  seq : Nat := 0
  started : Nat
  /-- Packets not yet answered; whether a target event is still to be sent by itself. -/
  left : Nat := 0
  tail : Bool := false
  /-- The remote CKPT_COPY that sent it; it has no tray (R396). -/
  node : Option NodeRef := none
  /-- Parts of a GET that have come: offset, bytes, value, poisoned code words. -/
  parts : List (Nat × Nat × Nat × Nat) := []
  value : Nat := 0
deriving DecidableEq, Repr

/-- A packet not yet answered (R333, R335): its operation, the packet, where its data lies, whether it has left, the link
and times of its sends, and how long its timers have paused. -/
structure EOut where
  op : Nat
  pkt : EPkt
  loc : Nat := 0
  sent : Bool := false
  link : Nat := 49
  first : Nat := 0
  last : Nat := 0
  paused : Nat := 0
  pausedAtLast : Nat := 0
  resent : Bool := false
deriving DecidableEq, Repr

/-- The Esrel port beyond its registers (R309 to R343): links, routes by destination with their round-robin weights, next
sequence numbers by target, operations, unanswered packets, filter records by source, BSIGNALs forwarded, arrived
packets that wait for a line, and JOINs held by slot. -/
structure El where
  links : SMap ELink := []
  routes : SMap Nat := []
  turns : SMap (List Int) := []
  nextSeq : SMap Nat := []
  nextOp : Nat := 0
  ops : SMap EOp := []
  out : List EOut := []
  filters : SMap Filter := []
  flooded : List (Nat × Nat × Nat × Nat) := []
  waiting : List EPkt := []
  joins : SMap (Nat × Nat) := []
deriving DecidableEq, Repr

/-- A message that the device has sent. -/
inductive OutMsg where
  /-- A reply to a packet (R265): its tag, status and results. -/
  | reply (tag status : Nat) (results : List Nat)
  /-- NOTIFY (R266): kind, queue and detail. -/
  | notify (kind queue detail : Nat)
  /-- A home's read of a line from its reload source (R217). -/
  | reloadRead (line : Nat)
  /-- HCPL: the completion of a host request (R348). -/
  | hostCpl (rtag status data : Nat)
  /-- DREAD, DWRITE or DATOMIC with its tag (R348, R353). -/
  | devReq (rtag : Nat) (r : DevReq)
  /-- A packet on a link; link 48 is the port's loopback (R310, R343). -/
  | esrel (link : Nat) (p : EPkt)
  /-- DISCOVER on a link (R314). -/
  | discover (link : Nat) (d : Discovery)
  /-- TSYNC_REQ with T1, and TSYNC_RSP with T1, T2, T3, DIST and whether it is usable (R31, R341, R342). -/
  | tsyncReq (link t1 : Nat)
  | tsyncRsp (link t1 t2 t3 dist : Nat) (locked : Bool)
  /-- An acknowledgement or a NAK on a link (R310). -/
  | linkAck (link seq : Nat) (nak : Bool)
  /-- A frame of the management chain as this stage passes it on (R420, R421). -/
  | chain (f : Frame)
  /-- What the TAP shifts out of the data register it has selected (R433). -/
  | tap (value : Nat)
deriving DecidableEq, Repr

/-- A SUBMIT whose buffer is being fetched from the host window (R272): the bytes that have come, by offset, and the
requests that are out. -/
structure SubmitJob where
  tag : Nat
  queue : Nat
  bytes : Nat
  data : SMap Byte := []
  waiting : Nat := 0
  failed : Nat := 0
deriving DecidableEq, Repr

/-- The UCIe port beyond its registers (R349, R355, R356): the next request tag, the requests
that wait and those that are out, the host die's credits, messages that wait, host requests that wait for a channel,
and the attempts of the training or retrain under way. -/
structure Uc where
  nextTag : Nat := 0
  waiting : List DevReq := []
  out : SMap DevReq := []
  zpkt : Nat := 0
  dreq : Nat := 0
  slots : Nat := 0
  outbox : List OutMsg := []
  held : List HeldReq := []
  /-- Failed tries of the training or the retrain under way (R356), and replays of the flit being replayed. -/
  attempts : Nat := 0
  replays : Nat := 0
deriving DecidableEq, Repr

/-- The power manager beyond its registers (R361 to R377). Power is in mW; the thermal cap is in units of 5 mW. -/
structure Pw where
  /-- What has taken effect of PM_CAP, PM_CLK_MODE and PM_LEND at a boundary. -/
  cap : Nat := 700
  fixed : Bool := false
  point : Nat := 60
  lendPoint : Nat := 0
  thermal : Nat := 140000
  lastEpoch : Nat := 0
  /-- Samples since the last point change took effect, within the epoch: their sum and number; the next sample is the one in
  which a change takes effect. -/
  sum : Nat := 0
  count : Nat := 0
  skip : Bool := false
  /-- Samples of the epoch, and the sums of each region's core-rail power over them. -/
  samples : Nat := 0
  regionSum : SMap Nat := []
  regionNow : SMap Nat := []
  /-- In this epoch a region has run below the ceiling point, or the duty has been below 16. -/
  below : Bool := false
  dutyLow : Bool := false
  /-- By region: stretches in this epoch, and epochs in a row within the limit. -/
  stretches : SMap Nat := []
  calm : SMap Nat := []
  /-- By sensor: the last reading and since when it has not changed; the sensors marked invalid. -/
  seen : SMap (Nat × Nat) := []
  bad : List Nat := []
  hotSince : Nat := 0
  /-- Droop detectors found outside their limits and disabled (R418), by their number in the device. -/
  detOff : List Nat := []
  /-- Regions whose voltage command failed keep the points of their last voltage (R443): the highest such point. -/
  railPoint : SMap Nat := []
  calDue : SMap Nat := []
deriving DecidableEq, Repr

/-- Machine-time discipline beyond its registers (R30, R33, R35, R341): `first_sample`, `after_step`, `phase_trim` in ppb x
2^8, the samples in a row within 10 ns, the times of the last sample, of the last accepted edge and of the entry to
HOLDOVER, and the request sent upstream: its link and T1. -/
structure Mt where
  first : Bool := true
  afterStep : Bool := false
  phase : Int := 0
  run : Nat := 0
  lastSample : Nat := 0
  lastEdge : Option Nat := none
  holdSince : Nat := 0
  req : Option (Nat × Nat) := none
deriving DecidableEq, Repr

/-! ### Boot, settings, images, the management chain (R398 to R433) -/

/-- A settings bank (R409): its sequence number, the persistent registers by offset (unlisted: the Reset value), and the
retired list. -/
structure Bank where
  seq : Nat
  regs : SMap Word := []
  retired : List Retired := []
deriving DecidableEq, Repr

/-- What no reset loses (R398, R404, R405, R408, R412): the valid settings banks and the bank written last, the commits
performed, the images in the slots (key 2 x KIND, plus 1 for slot B), the active slot of each KIND, INCARN, the next unused
middle tree, the SVN fuses by KIND, the revocation fuses, and the serial number. -/
structure Store where
  banks : SMap Bank := []
  last : Nat := 0
  commits : Nat := 0
  slots : SMap (List Byte) := []
  active : SMap Nat := []
  incarn : Nat := 0
  middle : Nat := 0
  svn : SMap Nat := []
  revoked : Nat := 0
  serial : Word := 0
deriving DecidableEq, Repr

/-- An operation on the store that waits for the one in progress (R413): from ST_CTRL on the chain, or IMAGE_DONE. -/
inductive StoreJob where
  | store
  | revert
  | image (kind : Nat) (bytes : List Byte)
deriving DecidableEq, Repr

/-- A SWITCH whose new image has not reported ready (R416, R417): its node, its KIND, and the slot active before. -/
structure Switching where
  node : NodeRef
  kind : Nat
  was : Nat
deriving DecidableEq, Repr

/-- The security processor's own memory (R407, R411, R413, R417): the commit in progress with its node, the operations that
wait, the SWITCH in progress, and the current middle tree with the leaves used of it. -/
structure Sp where
  job : Option (Bank × Option NodeRef) := none
  /-- Each with the machine time at which it came. -/
  jobs : List (Nat × StoreJob) := []
  switching : Option Switching := none
  tree : Option (Nat × Nat) := none
deriving DecidableEq, Repr

/-- Reset and boot (R398 to R401, R444): whether the device is held in reset, RESET_N low, the chain stage in bypass because
VDD_IO is down; what the boot found; links whose first training since boot has not ended. -/
structure Boot where
  held : Bool := false
  pinLow : Bool := false
  bypass : Bool := false
  input : BootInput := {}
  fresh : List Nat := []
deriving DecidableEq, Repr

/-- The chain stage beyond its registers (R422, R432, R433): the value of the previous READ, the recovery buffer by 64-bit
word, which port (true: the TAP) read a segment last, and the TAP's instruction. -/
structure Chain where
  prev : Option Word := none
  buf : SMap Word := []
  reader : Option Bool := none
  ir : Nat := 1
deriving DecidableEq, Repr

/-- A job of the region manager: the node of a REGION_CONTROL that waits for its region (R19). -/
structure RegionJob where
  down : List NodeRef := []
  up : List NodeRef := []
  enabling : Bool := false
deriving DecidableEq, Repr

/-! ### Error records -/

/-- An error record (R382). -/
structure ErrRec where
  seq : Nat := 0
  time : Nat := 0
  kind : Nat
  cls : Nat := 0
  qvalid : Bool := false
  status : Nat := 0
  unit : Nat := 0
  place : Nat := 0
  queue : Nat := 0
  context : Nat := 0
  launch : Nat := 0
  slot : Nat := 0
  object : Nat := 0
  valueA : Nat := 0
  valueB : Nat := 0
  detail : Nat := 0
  issued : Nat := 0
  paused : Nat := 0
  peer : Nat := 0
  jobset : Nat := 0
  epoch : Nat := 0
deriving DecidableEq, Repr

/-- The whole state of the device. -/
structure State where
  /-- The commands that wait, first in first out. -/
  pending : List Instr := []
  /-- Machine time: the count in ns and its 32 fractional bits (R27). -/
  now : Nat := 0
  nowFrac : Nat := 0
  /-- Nanoseconds in which no recovery paused the upper timers (R390), and, by context, those of them in which a tray
  of the context was halted (R78). -/
  upClock : Nat := 0
  ctxStall : SMap Nat := []
  /-- Every architected register, at its offset under R10; an unlisted one holds its reset value. -/
  regs : SMap Word := []
  /-- Bytes of the device physical address space (R20); an unlisted byte holds zero, but in an extent of `undef`. -/
  mem : SMap Byte := []
  /-- Extents whose unlisted bytes read as something else: base, bytes, and the number of the domain reset that left them
  undefined (R234), or none where they were zeroed since. The first that holds an address counts. -/
  undef : List (Nat × Nat × Option Nat) := []
  /-- 32 B code words whose poison differs from the default of their place (R208, R216). -/
  poison : SMap Bool := []
  cores : SMap Core := []
  launches : SMap Launch := []
  nextLaunch : Nat := 1
  nextUid : Nat := 1
  movers : SMap Mover := []
  /-- NOTIFY kind 5 has been sent in this sampling window (R384); the contexts whose decreasing signal has been recorded
  in it (R304). -/
  windowNotified : Bool := false
  windowDecreased : List Nat := []
  contexts : SMap Context := []
  queues : SMap Queue := []
  ranges : SMap Range := []
  allocs : List Alloc := []
  /-- Event objects and the physical address of the word of each (R299). -/
  eventObjs : SMap Nat := []
  /-- Tags of packets not yet answered (R265). -/
  unanswered : List Nat := []
  /-- Messages sent, in order. -/
  sent : List OutMsg := []
  /-- What the last read returned, and the status of the last register access (R267). -/
  value : Nat := 0
  status : Nat := 0
  channels : SMap Channel := []
  retireCand : List (Nat × Nat) := []
  wayCand : List (Nat × Nat) := []
  retired : List Retired := []
  partitions : SMap Partition := []
  mt : Mt := {}
  pw : Pw := {}
  el : El := {}
  /-- The memory object of the range that an export shows (R330). -/
  exportObj : SMap Nat := []
  /-- The end of the last sampling window, and sugar cycles in this window by queue and region (key 4 x queue + region). -/
  lastWindow : Nat := 0
  sugar : SMap Nat := []
  uc : Uc := {}
  submits : SMap SubmitJob := []
  /-- Lookups of the translation unit not yet counted in TU_STATUS.LOOKUPS, which counts 1,024 at a time. -/
  tuLookups : Nat := 0
  /-- Channels scrubbed since boot: every line of theirs that nothing has written since reads as poison (R208). -/
  rescrubbed : List Nat := []
  /-- The PRELOAD held on a releasing group (R201), and the PRELOAD that runs into a group. -/
  groupHeld : SMap NodeRef := []
  groupLoad : SMap NodeRef := []
  /-- Lines by line address (byte address / 128), the count of uses that orders L2 ways, the ways disabled in a set
  (key 32,768 x slice + set, bit w for way w), and the victims a slice has accepted in this budget interval. -/
  lines : SMap Line := []
  l2Clock : Nat := 0
  l2Off : SMap Nat := []
  victimUsed : SMap Nat := []
  victimBudget : SMap Nat := []
  /-- A domain-fatal fault has stopped every core (R234), its record, and how many domain resets there have been. -/
  domainStopped : Bool := false
  domainErr : Nat := 0
  domainResets : Nat := 0
  boot : Boot := {}
  store : Store := {}
  sp : Sp := {}
  chain : Chain := {}
  regions : SMap RegionJob := []
  /-- Since when FE_RECOVERY[5:0] has been non-zero without a break, and since when zero (R391). -/
  recSince : Option Nat := none
  calmSince : Nat := 0
  /-- When a front-end restart began, and whether a mismatch began it (R388). -/
  feSince : Nat := 0
  feFault : Bool := false
  /-- The model's own: register reads so far, which makes every free value of a cycle counter a fresh one. -/
  reads : Nat := 0
deriving DecidableEq, Repr

/-- The device right after reset (R398): every register at its Reset value, which `regs` lists only for queue 0, whose
FE_QUEUE_STATUS reads ACTIVE and PRIO 3 (R268); context 0; no memory listed; nothing waits. -/
def State.reset : State := { regs := [(1048, 196609)], contexts := [(0, {})] }

end Sys2Proof.Machine
end

