-- ==== Sys2Proof/Machine/Ops.lean ====
section
/-!
DEFINITION. Machine/Ops.lean: the named operations over the state that every family shares: register fields,
memory bytes and poison, cores, trays, timers, error records and tray-level faults.
-/
namespace Sys2Proof.Machine

/-! ### Registers (R9, R10) -/

/-- The offset of a register in the device register space (R10). -/
def regOffset (unit inst index : Nat) : Nat := unit * 134217728 + inst * 32768 + index * 8

def Fld.offset (f : Fld) (inst copy : Nat) : Nat := regOffset f.unit inst (f.index + copy)

/-- The whole register that a field lies in. -/
def State.regWord (s : State) (f : Fld) (inst copy : Nat) : Word :=
  SMap.get s.regs (f.offset inst copy) (BitVec.ofNat 64 f.rst)

/-- A field of a register. -/
def State.rget (s : State) (f : Fld) (inst : Nat := 0) (copy : Nat := 0) : Nat :=
  bits (s.regWord f inst copy).toNat f.lo f.len

/-- A word with one field replaced. -/
def putBits (w : Word) (lo len v : Nat) : Word :=
  BitVec.ofNat 64 (w.toNat - bits w.toNat lo len * 2 ^ lo + (v % 2 ^ len) * 2 ^ lo)

/-- Set a field of a register. -/
def State.rput (s : State) (f : Fld) (v : Nat) (inst : Nat := 0) (copy : Nat := 0) : State :=
  let w := putBits (s.regWord f inst copy) f.lo f.len v
  { s with regs := SMap.store s.regs (f.offset inst copy) (BitVec.ofNat 64 f.rst) w }

/-- Add to a counter field that saturates at its largest value (R12). -/
def State.rbump (s : State) (f : Fld) (n : Nat := 1) (inst : Nat := 0) (copy : Nat := 0) : State :=
  s.rput f (min (s.rget f inst copy + n) (2 ^ f.len - 1)) inst copy

def State.flag (s : State) (f : Fld) (inst : Nat := 0) (copy : Nat := 0) : Bool :=
  decide (s.rget f inst copy ≠ 0)

/-- Do the device's clocks run: not held in reset, not iced, not waiting for an image (R398, R401, R426)? The chain stage
and the TAP run without them. -/
def State.clocked (s : State) : Bool :=
  !(s.flag Fld.MC_FREEZE_STATUS_FROZEN) && !s.boot.held && decide (s.rget Fld.SP_BOOT_STATUS_STAGE ≠ 15)

/-- A command's effect is on everything but the queue of commands, which is not the device's. -/
def State.beside (s t : State) : State := { t with pending := s.pending }

/-- What an event of the clocked device makes of the state: nothing while its clocks stand. -/
def State.onClock (s t : State) : State := if s.clocked then s.beside t else s

/-- A truth value as a bit. -/
def b2n (b : Bool) : Nat := if b then 1 else 0

/-! ### Naming a core (R15) -/

/-- The core ID of a linear core number. -/
def coreId (n : Nat) : Nat := (n / 48) * 64 + (n % 48 / 8) * 8 + n % 8

/-- The linear core number of a core ID; none where BLOCK is 6 or 7. -/
def linearCore (id : Nat) : Option Nat :=
  if id < 256 ∧ bits id 3 3 < 6 then some (bits id 6 2 * 48 + bits id 3 3 * 8 + bits id 0 3) else none

def blockOf (core : Nat) : Nat := core / 8
def regionOf (core : Nat) : Nat := core / 48

/-! ### Memory (R20) -/

/-- The end of the HBM window. -/
def hbmEnd : Nat := 0x008000000000
def sramBase : Nat := 0x00C000000000
def sramEnd : Nat := 0x00C00C000000
def hostBase : Nat := 0x100000000000
def hostEnd : Nat := 0x200000000000

def isHost (a : Nat) : Bool := decide (hostBase ≤ a) && decide (a < hostEnd)
def isSram (a : Nat) : Bool := decide (sramBase ≤ a) && decide (a < sramEnd)
def isHbm (a : Nat) : Bool := decide (a < hbmEnd)

/-- The physical address of a byte of a core's local SRAM slot (R20). -/
def sramAddr (core off : Nat) : Nat := sramBase + core * 0x100000 + off

/-- What an unlisted byte of memory reads as: zero, or a free value where a domain reset left the extent undefined (R234). -/
def unlisted (u : List (Nat × Nat × Option Nat)) (a : Nat) : Byte :=
  match u.find? (fun e => decide (e.1 ≤ a) && decide (a < e.1 + e.2.1)) with
  | some (_, _, some k) => Config.freeByte k a
  | _ => 0

/-- A byte of memory. -/
def State.byte (s : State) (a : Nat) : Byte := SMap.get s.mem a (unlisted s.undef a)

/-- Write a byte of memory. -/
def State.putByte (s : State) (a : Nat) (b : Byte) : State := { s with mem := SMap.store s.mem a (unlisted s.undef a) b }

/-- `n` bytes from an address on, least significant first (R7). -/
def State.readLE (s : State) (a : Nat) : Nat → Nat
  | 0 => 0
  | n + 1 => (s.byte a).toNat + 256 * State.readLE s (a + 1) n

/-- The bytes of a memory with `n` bytes of a value written from an address on. -/
def memWriteLE (u : List (Nat × Nat × Option Nat)) (m : SMap Byte) (a : Nat) : Nat → Nat → SMap Byte
  | 0, _ => m
  | n + 1, v => memWriteLE u (SMap.store m a (unlisted u a) (BitVec.ofNat 8 v)) (a + 1) n (v / 256)

/-- `n` bytes of a value written from an address on. -/
def State.putLE (s : State) (a n v : Nat) : State := { s with mem := memWriteLE s.undef s.mem a n v }

/-- The areas of the carve-out that the front end zeroes at boot (R23, R454): all of it but the pool. -/
def carveBase (s : State) : Nat := s.rget Fld.FE_CARVEOUT_BASE_BASE
def objTableOff : Nat := 0
def errLogOff : Nat := 0x200000
def ringsOff : Nat := 0x280000
def mailboxOff : Nat := 0x480000
def filtersOff : Nat := 0x1480000
def journalOff : Nat := 0x1480000 + 585 * 0x100000
def poolOff : Nat := journalOff + 64 * 0x100000
def poolBytes : Nat := 1378 * 0x100000
def reservedOff : Nat := poolOff + poolBytes
def carveBytes : Nat := 0x80000000

/-- Is a physical address in the carve-out outside the command-buffer pool? -/
def inZeroedCarve (s : State) (a : Nat) : Bool :=
  let b := carveBase s
  decide (b ≤ a) && decide (a < b + carveBytes) && !(decide (b + poolOff ≤ a) && decide (a < b + reservedOff))

/-- The HBM channel of an address under the map of R192. -/
def channelOf (a : Nat) : Nat :=
  let line := a / 128
  let h := line >>> 7
  let f := bits h 0 7 ^^^ bits h 7 7 ^^^ bits h 14 7 ^^^ bits h 21 7 ^^^ bits h 28 6
  let v0 := bits line 0 7 ^^^ f
  let v := v0 ^^^ (bits line 2 2 ^^^ bits line 4 2)
  32 * bits v 0 2 + 16 * bits v 2 1 + bits v 3 4

/-- Whether a code word that nothing has written since the scrub reads as poison: HBM does (R208, R400 step 5), the
zeroed part of the carve-out does not (R454) unless its channel has been scrubbed again, and local SRAM does not. -/
def defaultPoison (s : State) (word : Nat) : Bool :=
  isHbm (32 * word) && !(inZeroedCarve s (32 * word) && !(s.rescrubbed.contains (channelOf (32 * word))))

/-- Is the 32 B code word poisoned? -/
def State.poisoned (s : State) (word : Nat) : Bool := SMap.get s.poison word (defaultPoison s word)

def State.setPoison (s : State) (word : Nat) (b : Bool) : State :=
  { s with poison := SMap.store s.poison word (defaultPoison s word) b }

/-- Does any code word of an extent read as poison? -/
def State.extentPoisoned (s : State) (a n : Nat) : Bool :=
  if n = 0 then false
  else (List.range ((a + n - 1) / 32 - a / 32 + 1)).any (fun i => s.poisoned (a / 32 + i))

/-- Clear the poison of the code words an extent covers whole (R208). -/
def State.clearWhole (s : State) (a n : Nat) : State :=
  let first := (a + 31) / 32
  let last := (a + n) / 32
  (List.range (last - first)).foldl (fun t i => t.setPoison (first + i) false) s

/-- Write `n` bytes: the words covered whole lose their poison, a word covered in part keeps it (R208). -/
def State.write (s : State) (a n v : Nat) : State :=
  (s.putLE a n v).clearWhole a n

/-- Write a list of bytes. -/
def State.writeBytes (s : State) (a : Nat) (bs : List Byte) : State :=
  let put := fun (m : SMap Byte × Nat) (b : Byte) => (SMap.store m.1 m.2 (unlisted s.undef m.2) b, m.2 + 1)
  ({ s with mem := (bs.foldl put (s.mem, a)).1 }).clearWhole a bs.length

/-- Set every byte of an extent to zero and clear its poison. -/
def State.zeroExtent (s : State) (a n : Nat) : State :=
  let s := { s with mem := s.mem.filter (fun c => !(decide (a ≤ c.1) && decide (c.1 < a + n))) }
  let hit := s.undef.any (fun e => decide (e.1 < a + n) && decide (a < e.1 + e.2.1))
  let s := if hit then { s with undef := (a, n, none) :: s.undef } else s
  { s with poison := s.poison.filter (fun c => !(decide (a / 32 ≤ c.1) && decide (c.1 < (a + n + 31) / 32))) }

/-! ### Cores and trays -/

def State.core (s : State) (n : Nat) : Core := SMap.get s.cores n {}
def State.setCore (s : State) (n : Nat) (c : Core) : State := { s with cores := SMap.store s.cores n {} c }
def State.mapCore (s : State) (n : Nat) (f : Core → Core) : State := s.setCore n (f (s.core n))

def Core.tray (c : Core) (slot : Nat) : Option Tray := SMap.find? c.trays slot
def State.tray (s : State) (core slot : Nat) : Option Tray := (s.core core).tray slot

def State.setTray (s : State) (core slot : Nat) (t : Tray) : State :=
  s.mapCore core (fun c => { c with trays := SMap.put c.trays slot t })

def State.mapTray (s : State) (core slot : Nat) (f : Tray → Tray) : State :=
  s.mapCore core (fun c => { c with trays := SMap.update c.trays slot f })

def State.launch (s : State) (serial : Nat) : Option Launch := SMap.find? s.launches serial
def State.mapLaunch (s : State) (serial : Nat) (f : Launch → Launch) : State :=
  { s with launches := SMap.update s.launches serial f }

def Core.sheet? (c : Core) (uid : Nat) : Option Sheet := c.sheets.find? (fun h => h.uid == uid)

def Core.accSet (c : Core) (i : Nat) : AccSet := SMap.get c.sets i {}
def Core.entry (c : Core) (i : Nat) : TqEntry := SMap.get c.tq i {}
def Core.row (c : Core) (i : Nat) : HoldRow := SMap.get c.rows i {}
def Core.table (c : Core) (i : Nat) : FnTable := SMap.get c.tables i {}

/-- The running path of a tray. -/
def Tray.path (t : Tray) : Option Path := t.paths.find? (fun p => p.id == t.running)

def Tray.mapPath (t : Tray) (id : Nat) (f : Path → Path) : Tray :=
  { t with paths := t.paths.map (fun p => if p.id = id then f p else p) }

/-! ### Status codes (R267) -/

def stOk : Nat := 0x00
def stPending : Nat := 0x01
def stFormat : Nat := 0x02
def stInvalidArgument : Nat := 0x03
def stPrivilege : Nat := 0x04
def stInvalidState : Nat := 0x05
def stQueueFull : Nat := 0x06
def stTagBusy : Nat := 0x07
def stTranslation : Nat := 0x08
def stDepFailed : Nat := 0x09
def stAborted : Nat := 0x0A
def stDestroyed : Nat := 0x0B
def stWatchdog : Nat := 0x0C
def stDomainReset : Nat := 0x0D
def stWindow : Nat := 0x10
def stBound : Nat := 0x11
def stMisaligned : Nat := 0x12
def stIllegal : Nat := 0x13
def stUncorrectable : Nat := 0x14
def stMatrixOperand : Nat := 0x15
def stVectorOperand : Nat := 0x16
def stSlicingExponent : Nat := 0x17
def stSlicingOrder : Nat := 0x18
def stSyncTimeout : Nat := 0x19
def stSyncObject : Nat := 0x1A
def stContained : Nat := 0x1B
def stDeliveryFailure : Nat := 0x1C
def stTargetReset : Nat := 0x1D
def stTrayArgument : Nat := 0x1E
def stBufferSpace : Nat := 0x1F

/-! ### Error records (R381 to R384) -/

/-- Hand a message over to its carrier. -/
def State.emit (s : State) (m : OutMsg) : State := { s with sent := s.sent ++ [m] }

/-- The state of the UCIe port (R356): 0 RESET, 1 TRAINING, 2 ACTIVE, 3 RETRAINING, 4 DISABLING, 5 DISABLED, 6 FAILED. -/
def State.ucState (s : State) : Nat := s.rget Fld.UC_LINK_STATUS_STATE

def OutMsg.isReply : OutMsg → Bool
  | .reply _ _ _ => true
  | _ => false

/-- Send a packet: at once when the port is ACTIVE and a credit is there, a NOTIFY only behind every reply; dropped and
counted when the port is down; otherwise it waits (R265, R349, R358). -/
def State.send (s : State) (m : OutMsg) : State :=
  let st := s.ucState
  if 4 ≤ st then s.rbump Fld.UC_STATS_LOST_REPLIES
  else
    let behind := if m.isReply then s.uc.outbox.any OutMsg.isReply else !s.uc.outbox.isEmpty
    if st = 2 ∧ 0 < s.uc.zpkt ∧ behind = false then { s with uc := { s.uc with zpkt := s.uc.zpkt - 1 } }.emit m
    else { s with uc := { s.uc with outbox := s.uc.outbox ++ [m] } }

/-- NOTIFY, a packet of the device with TAG 0 (R266). -/
def State.notify (s : State) (kind queue detail : Nat) : State := s.send (.notify kind queue detail)

/-- The words of a record (R382). -/
def ErrRec.words (r : ErrRec) : List Nat :=
  [r.seq, r.time,
   r.kind + r.cls * 2 ^ 8 + b2n r.qvalid * 2 ^ 11 + r.status * 2 ^ 12 + r.unit * 2 ^ 20 + (r.place % 256) * 2 ^ 24 +
     (r.queue % 1024) * 2 ^ 32 + (r.context % 64) * 2 ^ 42,
   r.launch % 2 ^ 32 + (r.slot % 64) * 2 ^ 32, r.object, r.valueA, r.valueB, r.detail, r.issued, r.paused,
   r.peer % 2 ^ 16 + (r.jobset % 2 ^ 16) * 2 ^ 16 + (r.epoch % 256) * 2 ^ 32, 0, 0, 0, 0, 0]

/-- Write 64-bit words from an address on. -/
def State.writeWords (s : State) (a : Nat) : List Nat → State
  | [] => s
  | w :: ws => State.writeWords (s.putLE a 8 w) (a + 8) ws

/-- Write a record of 64-bit words: the code words it covers whole lose their poison (R208). -/
def State.writeRecord (s : State) (a : Nat) (ws : List Nat) : State := (s.writeWords a ws).clearWhole a (8 * ws.length)

/-- The address of the record with a sequence number in the log's ring. -/
def errSlot (s : State) (seq : Nat) : Nat := carveBase s + errLogOff + 128 * ((seq - 1) % 4096)

/-- Write an error record under the next sequence number, with the machine time, into the log in the carve-out; the
oldest is overwritten when 4,096 are held. A record that names no queue raises NOTIFY kind 5, once in a sampling
window (R381, R384). -/
def State.logErr (s : State) (r : ErrRec) : State :=
  let seq := s.rget Fld.FE_ERRLOG_NEXT_SEQUENCE
  let s := s.writeRecord (errSlot s seq) { r with seq := seq, time := s.now }.words
  let held := s.rget Fld.FE_ERRLOG_STATUS_HELD
  let s := if held < 4096 then s.rput Fld.FE_ERRLOG_STATUS_HELD (held + 1) else s.rbump Fld.FE_ERRLOG_STATUS_OVERWRITTEN
  let s := s.rput Fld.FE_ERRLOG_NEXT_SEQUENCE (seq + 1)
  if r.qvalid || s.windowNotified then s
  else
    let s := { s with windowNotified := true }
    (s.notify 5 0 seq).rbump Fld.FE_ERRLOG_STATUS_NOTIFIED

/-- The sequence number the next record will have. -/
def State.nextErr (s : State) : Nat := s.rget Fld.FE_ERRLOG_NEXT_SEQUENCE

/-! ### Tray-level faults (R17) -/

/-- A launch has caused an error record: the first one is its node's ERROR (R283). -/
def Launch.caused (L : Launch) (record : Nat) : Launch :=
  { L with firstError := if L.firstError = 0 then record else L.firstError }

/-- A node has caused an error record: the first one is its ERROR (R283). -/
def Node.caused (n : Node) (record : Nat) : Node := { n with error := if n.error = 0 then record else n.error }

/-- Write an error record that a launch has caused. -/
def State.logFor (s : State) (launch : Nat) (r : ErrRec) : State :=
  (s.logErr r).mapLaunch launch (fun L => L.caused s.nextErr)

/-- A launch fails with a status: the status of the failure that ends it and the first record stand, and the front end is to
abort what is left of it (R17, R257, R283, R327). -/
def Launch.fail (L : Launch) (status record : Nat) : Launch :=
  { L with
    status := if L.status = 0 ∨ L.aborting = false then status else L.status
    firstError := (L.caused record).firstError
    aborting := true }

/-- The faulting launch's trays on the core stop: a status and the sequence number of its record (R17). -/
def State.trayStop (s : State) (core slot launch status record : Nat) : State :=
  -- an unfinished chain of the tray is dropped
  let s := s.mapCore core (fun c => { c with veq := c.veq.filter (fun e => e.closed || e.slot != slot) })
  s.mapLaunch launch (fun l =>
    let l := l.fail status record
    { l with stopped := if l.stopped.contains core then l.stopped else l.stopped ++ [core] })

/-- A tray-level fault: the error record of kind 0x01, and the launch's trays on the core stop (R17, R73, R383). -/
def State.trayFault (s : State) (core slot status : Nat) (object : Nat := 0) (lanes : Nat := 0) (win : Nat := 0) :
    State :=
  match s.tray core slot with
  | none => s
  | some t =>
    match s.launch t.launch with
    | none => s
    | some L =>
      let pc := match t.path with
        | some p => p.pc
        | none => 0
      let seq := s.rget Fld.FE_ERRLOG_NEXT_SEQUENCE
      let r : ErrRec := {
        kind := 0x01, cls := 2, qvalid := true, status := status, unit := 2, place := coreId core
        queue := L.queue, context := L.context, launch := L.serial, slot := slot, object := object
        detail := lanes + win * 2 ^ 32 + (pc % 2 ^ 24) * 2 ^ 40 }
      (s.logErr r).trayStop core slot t.launch status seq

/-- Demote an active tray to pending (R54). -/
def State.demote (s : State) (core slot : Nat) : State :=
  match s.tray core slot with
  | none => s
  | some t =>
    if t.active then
      (s.setTray core slot { t with active := false }).rbump Fld.CO_ISSUE_STATS_DEMOTE 1 core
    else s

/-- Does the tray stand between the members of a vector chain (R147, R148)? -/
def chainOpen (s : State) (core slot : Nat) : Bool := (s.core core).veq.any (fun e => e.slot == slot && !e.closed)

/-- A halted tray leaves its active slot at its next instruction boundary; between the members of a chain there is none
(R76, R148). -/
def settleHalt (core slot : Nat) (s : State) : State :=
  match s.tray core slot with
  | some t => if t.halted && !(chainOpen s core slot) then s.demote core slot else s
  | none => s

/-- Halt a tray: it is demoted, and DB_TRAY_HALTED shows it (R76). -/
def State.haltTray (s : State) (core slot : Nat) : State :=
  match s.tray core slot with
  | none => s
  | some t =>
    let resv := t.resv.map (fun r => { r with spurious := true })
    let s := s.setTray core slot { t with halted := true, stepping := false, resv := resv, disturbed := t.disturbed + 1 }
    let w := s.rget Fld.DB_TRAY_HALTED_HALTED core
    let s := s.rput Fld.DB_TRAY_HALTED_HALTED (w ||| 2 ^ slot) core
    settleHalt core slot s

/-- The armed breakpoints of a core that match a program counter of a list (R434). -/
def State.breakHits (s : State) (core context : Nat) (pcs : List Nat) : List Nat :=
  (List.range 8).filter (fun b =>
    s.flag Fld.DB_BRK_ENABLE core b && pcs.contains (s.rget Fld.DB_BRK_PC core b) &&
      (s.flag Fld.DB_BRK_ANY core b || decide (s.rget Fld.DB_BRK_CONTEXT core b = context)))

/-- A breakpoint's hit: the tray halts before issue (R434). -/
def State.breakHalt (s : State) (core slot : Nat) (pcs : List Nat) : State :=
  match s.tray core slot with
  | none => s
  | some t =>
    let ctx := match s.launch t.launch with
      | some L => L.context
      | none => 0
    let hit := (s.breakHits core ctx pcs).foldl (fun m b => m ||| 2 ^ b) (s.rget Fld.DB_DEBUG_STATUS_BRK_HIT core)
    let s := s.rput Fld.DB_DEBUG_STATUS_BRK_HIT hit core
    let s := s.rput Fld.DB_DEBUG_STATUS_LAST_SLOT slot core
    s.haltTray core slot

/-! ### Upper timers (R258, R259, R390) -/

/-- Do the upper timers stand still (R390, R391)? -/
def State.recovering (s : State) : Bool :=
  decide (s.rget Fld.FE_RECOVERY_SOURCES ≠ 0) && !(s.flag Fld.FE_RECOVERY_OVERRUN)

/-- The clock of a context's upper timers. -/
def State.clockOf (s : State) (context : Nat) : Nat := s.upClock - SMap.get s.ctxStall context 0

/-- Start an upper timer of a context. -/
def State.arm (s : State) (context span : Nat) : Timer := { span := span, mark := s.clockOf context }

/-- Has a timer of a context run out? -/
def State.ranOut (s : State) (context : Nat) (t : Timer) : Bool := decide (t.mark + t.span ≤ s.clockOf context)

/-- The contexts with a halted tray, resident or saved (R78, R79). -/
def State.haltedContexts (s : State) : List Nat :=
  let resident := s.cores.flatMap (fun c => (c.2.trays.filter (fun t => t.2.halted)).map (fun t => t.2.launch))
  let saved := s.launches.filterMap (fun l =>
    if l.2.saved.any (fun v => v.trays.any (fun t => t.2.halted)) then some l.1 else none)
  ((resident ++ saved).filterMap (fun n => (s.launch n).map (fun L => L.context))).eraseDups

/-- Let machine time pass: `dt` ns by the count, with what the upper timers' clocks make of it (R27, R78, R390). -/
def State.pass (s : State) (dt : Nat) : State :=
  let s := { s with now := s.now + dt }
  if s.recovering then s
  else
    { s with
      upClock := s.upClock + dt
      ctxStall := s.haltedContexts.foldl (fun m c => SMap.put m c (SMap.get m c 0 + dt)) s.ctxStall }

/-- Set or clear a source of recovery (R389); since when any or none is set is kept for R391. -/
def State.setRecovery (s : State) (bit : Nat) (on : Bool) : State :=
  let v := s.rget Fld.FE_RECOVERY_SOURCES
  let cleared := v - bits v bit 1 * 2 ^ bit
  let w := if on then cleared + 2 ^ bit else cleared
  let s := s.rput Fld.FE_RECOVERY_SOURCES w
  if w = 0 then { s with recSince := none, calmSince := if v = 0 then s.calmSince else s.now }
  else { s with recSince := some (if v = 0 then s.now else s.recSince.getD s.now) }

/-! ### Domain-fatal faults (R234) -/

/-- A domain-fatal fault is detected: every core stops issuing and its record is written (R234, R383). What follows is
the domain reset, which DOMAIN_RESET_DONE carries out. -/
def State.domainFatal (s : State) (unit place object cause : Nat) : State :=
  let s := s.logErr {
    kind := 0x0D, cls := 5, status := stDomainReset, unit := unit, place := place, object := object, valueA := cause }
  { s with domainStopped := true, domainErr := s.nextErr - 1 }

end Sys2Proof.Machine
end

