-- ==== Sys2Proof/Machine/Paths.lean ====
section
/-!
DEFINITION. Machine/Paths.lean: divergence of a tray (R60 to R64): the path order, splits and merges, and the end of
a path's turn.
-/
namespace Sys2Proof.Machine

/-- Can a path run? -/
def Path.runnable (p : Path) : Bool := p.wait.isNone

/-- The numbers of the tray's paths in path order, from the one after the running path round to it (R62). -/
def Tray.turnOrder (t : Tray) : List Nat :=
  let ids := t.paths.map (fun p => p.id)
  let before := ids.takeWhile (fun i => i != t.running)
  let after := (ids.dropWhile (fun i => i != t.running)).drop 1
  after ++ before ++ [t.running]

/-- Is a path waiting at the reconvergence address of the split, its innermost one? -/
def Path.waitsAt (p : Path) (split : Nat) : Bool :=
  decide (p.splits.head? = some split) && (match p.wait with
    | some w => decide (w.kind = .reconv)
    | none => false)

/-- Put a path that stands at its innermost open split's reconvergence address into its wait (R61). -/
def Tray.park (t : Tray) (id : Nat) : Tray :=
  t.mapPath id (fun p =>
    match p.splits.head?.bind (fun k => t.splits.find? (fun x => x.id == k)) with
    | some x => if x.reconv = some p.pc ∧ p.wait = none then { p with wait := some { kind := .reconv } } else p
    | none => p)

/-- Merge one split when every path in it waits at its address (R61): the merged path takes the place of the
earliest of them. A split whose lanes have all exited is closed. -/
def Tray.mergeSplit (t : Tray) (x : Split) : Tray :=
  let ins := t.paths.filter (fun p => p.splits.contains x.id)
  match ins with
  | [] => { t with splits := t.splits.filter (fun y => y.id != x.id) }
  | first :: _ =>
    if ins.all (fun p => p.waitsAt x.id) then
      let joined : Path :=
        { first with lanes := ins.foldl (fun m p => m ||| p.lanes) 0, splits := first.splits.drop 1, wait := none }
      let kept := t.paths.filter (fun p => !(p.splits.contains x.id) || p.id == first.id)
      let t := { t with paths := kept.map (fun (p : Path) => if p.id = first.id then joined else p) }
      let t := { t with splits := t.splits.filter (fun y => y.id != x.id) }
      t.park first.id
    else t

/-- Merge every split that can merge, inner ones first. -/
def Tray.mergeAll (t : Tray) : Nat → Tray
  | 0 => t
  | n + 1 => Tray.mergeAll (t.splits.foldr (fun x u => u.mergeSplit x) t) n

/-- End every reservation hold of the tray: a path switch came (R243, R244). -/
def Tray.switchResv (t : Tray) : Tray :=
  { t with resv := t.resv.map (fun r => { r with held := false, spurious := true }), disturbed := t.disturbed + 1 }

/-- Give the turn to the first path of an order that can run (R62). -/
def Tray.giveTurn (t : Tray) (order : List Nat) : Tray :=
  match order.find? (fun i => t.paths.any (fun p => p.id == i && p.runnable)) with
  | none => t
  | some i =>
    let t := if i = t.running then t else t.switchResv
    { (t.mapPath i (fun p => { p with issued := 0 })) with running := i }

/-- End the running path's turn (R62). -/
def Tray.endTurn (t : Tray) : Tray :=
  let order := t.turnOrder
  (t.mergeAll (t.splits.length + 1)).giveTurn order

/-- Does a path that has the turn wait for the result of its LOCKTRY, or for a fence that holds its tray? -/
def Path.awaitsResult (p : Path) : Bool :=
  match p.wait with
  | some w => (match w.kind with
    | .result _ => true
    | .fence _ _ => true
    | _ => false)
  | none => false

/-- Can some path of the tray run? A path whose LOCKTRY or fence has not ended keeps its turn. -/
def Tray.canRun (t : Tray) : Bool := t.paths.any (fun p => p.runnable || p.awaitsResult)

/-- The running path stands at its program counter: it waits, and its turn ends, at its reconvergence address. -/
def Tray.settle (t : Tray) : Tray :=
  let t := t.park t.running
  match t.path with
  | some p => if p.runnable then t else t.endTurn
  | none => t.endTurn

/-- Move the running path's program counter and end its turn if it arrives at its reconvergence address. -/
def Tray.arriveAt (t : Tray) (pc : Nat) : Tray :=
  (t.mapPath t.running (fun p => { p with pc := pc, issued := p.issued + 1 })).settle

/-- Split the running path: the lanes of `leaving` form a new path at `pc`, placed last; the others keep the running
path (R60, R63). The split records the reconvergence address, or none. -/
def Tray.splitOff (t : Tray) (leaving : Mask) (pc : Nat) (reconv : Option Nat) : Tray :=
  match t.path with
  | none => t
  | some p =>
    let x : Split := { id := t.nextSplit, reconv := reconv, lanes := p.lanes }
    let fresh : Path := { id := t.nextPath, pc := pc, lanes := leaving, splits := x.id :: p.splits }
    let stay : Path := { p with lanes := p.lanes &&& ~~~leaving, splits := x.id :: p.splits }
    let paths := t.paths.map (fun q => if q.id = p.id then stay else q) ++ [fresh]
    let t := { t with paths := paths, splits := x :: t.splits, nextSplit := t.nextSplit + 1, nextPath := t.nextPath + 1 }
    t.park fresh.id

/-- Failing lanes of a store-conditional or LOCKTRY leave the running path (R63): with a split open they belong to
the innermost one, otherwise they open a split that never merges. -/
def Tray.leaveFailing (t : Tray) (failing : Mask) (pc : Nat) : Tray :=
  match t.path with
  | none => t
  | some p =>
    match p.splits with
    | [] => t.splitOff failing pc none
    | _ =>
      let fresh : Path := { id := t.nextPath, pc := pc, lanes := failing, splits := p.splits }
      let stay : Path := { p with lanes := p.lanes &&& ~~~failing }
      let paths := t.paths.map (fun q => if q.id = p.id then stay else q) ++ [fresh]
      ({ t with paths := paths, nextPath := t.nextPath + 1 }).park fresh.id

/-- End lanes of the running path (R49, R62): a path without lanes goes, and its turn with it. -/
def Tray.exitLanes (t : Tray) (gone : Mask) (pc : Nat) : Tray :=
  let t := { t with live := t.live &&& ~~~gone, resv := t.resv.filter (fun r => !(Mask.has gone r.lane)) }
  match t.path with
  | none => t
  | some p =>
    let left := p.lanes &&& ~~~gone
    if left = 0 then
      let order := t.turnOrder
      let t := { t with paths := t.paths.filter (fun q => q.id != p.id) }
      (t.mergeAll (t.splits.length + 1)).giveTurn order
    else (t.mapPath p.id (fun q => { q with lanes := left })).arriveAt pc

/-- End a wait of a path: it may run again, unless it stands at its reconvergence address. If the tray had no path to
run, the turn passes to it. -/
def Tray.wake (t : Tray) (id : Nat) : Tray :=
  let t := (t.mapPath id (fun p => { p with wait := none })).park id
  let t := t.mergeAll (t.splits.length + 1)
  match t.path with
  | some p => if p.runnable then t else t.giveTurn t.turnOrder
  | none => t.giveTurn t.turnOrder

end Sys2Proof.Machine
end

