-- ==== Sys2Proof/Machine/Operands.lean ====
section
/-!
DEFINITION. Machine/Operands.lean: the operands of tray instructions (R42, R43), the lanes an instruction acts on, and
the one way every tray instruction is issued (R51, R59, R216).
-/
namespace Sys2Proof.Machine

/-- What an instruction sees at issue: the state, its core, slot, tray, running path and launch, the path's lanes, and
those of them whose predicate is true. -/
structure Ctx where
  s : State
  core : Nat
  slot : Nat
  t : Tray
  p : Path
  L : Launch
  act : Mask
  on : Mask
  /-- The scoreboard number of the instruction's own predicate, if it has one. -/
  guards : List Nat := []

/-- A predicate register as a lane mask; p7 reads as all true (R42). -/
def Tray.pred (t : Tray) (p : Nat) : Mask :=
  if p = 7 then BitVec.allOnes 32 else SMap.get t.preds p (Config.freePred t.seed p)

/-- A lane register (R43). -/
def Tray.reg (t : Tray) (r lane : Nat) : Lane := SMap.get t.regs (r * 32 + lane) (Config.freeLane t.seed r lane)

/-- Write a lane register. -/
def Tray.setReg (t : Tray) (r lane : Nat) (v : Lane) : Tray := { t with regs := SMap.put t.regs (r * 32 + lane) v }

/-- Write a predicate in the lanes of a mask. -/
def Tray.setPred (t : Tray) (p : Nat) (lanes val : Mask) : Tray :=
  { t with preds := SMap.put t.preds p ((t.pred p &&& ~~~lanes) ||| (val &&& lanes)) }

/-- Write one register of a result in its lanes. -/
def Tray.applyWrite (t : Tray) (w : LaneWrite) : Tray :=
  (Mask.lanes w.lanes).foldl (fun t l => t.setReg w.reg l (w.vals.getD l 0)) t

/-! ### Operand codes (R43) -/

def codeZero : Nat := 135

/-- A code that may stand as a 32-bit source. -/
def legalSrc (L : Launch) (code : Nat) : Bool := decide (code < L.regs) || (decide (128 ≤ code) && decide (code ≤ 135))

/-- A code that may stand as a 64-bit source: an even register with the next one, or ZERO. -/
def legalSrc64 (L : Launch) (code : Nat) : Bool :=
  decide (code = codeZero) || (decide (code % 2 = 0) && decide (code + 1 < L.regs))

def legalDst (L : Launch) (code : Nat) : Bool := decide (code < L.regs)
def legalDst64 (L : Launch) (code : Nat) : Bool := decide (code % 2 = 0) && decide (code + 1 < L.regs)

/-- A 32-bit source in one lane. -/
def Ctx.src (x : Ctx) (code lane : Nat) : Nat :=
  if code < 128 then (x.t.reg code lane).toNat
  else if code = 128 then lane
  else if code = 129 then x.t.index % 2 ^ 32
  else if code = 130 then
    (match (x.s.core x.core).sheet? x.t.sheet with
     | some h => h.index % 2 ^ 32
     | none => 0)
  else if code = 131 then x.core
  else if code = 132 then x.L.trays % 2 ^ 32
  else if code = 133 then x.s.now % 2 ^ 32
  else if code = 134 then (SMap.get x.t.mtimeHi lane (Config.freeMtimeHi x.t.seed lane)).toNat
  else 0

/-- A 64-bit source in one lane: the low half in the even register. -/
def Ctx.src64 (x : Ctx) (code lane : Nat) : Nat :=
  if code = codeZero then 0 else (x.t.reg code lane).toNat + (x.t.reg (code + 1) lane).toNat * 2 ^ 32

/-- A source of 32 or 64 bits. -/
def Ctx.srcW (x : Ctx) (wide : Bool) (code lane : Nat) : Nat := if wide then x.src64 code lane else x.src code lane

/-- The registers a source or destination code names. -/
def regsOf (code n : Nat) : List Nat := if code < 128 then (List.range n).map (fun i => code + i) else []

/-- The registers whose writes are pending in the tray's scoreboard (R51). -/
def Tray.pendingRegs (t : Tray) : List Nat := t.pend.flatMap (fun p => p.regs)

/-- Those whose writes come from a long-latency source (R54). -/
def Tray.longRegs (t : Tray) : List Nat := (t.pend.filter (fun p => p.longLatency)).flatMap (fun p => p.regs)

/-- Predicates with a pending write are numbered 256 to 262 in the scoreboard. -/
def predReg (p : Nat) : Nat := 256 + p

/-- The program counter latches the high half of machine time in the lanes that read MTIME_LO (R43). -/
def Ctx.latchMtime (x : Ctx) (codes : List Nat) : Ctx :=
  if codes.contains 133 then
    let hi : Lane := BitVec.ofNat 32 (x.s.now / 2 ^ 32)
    { x with t := { x.t with mtimeHi := (Mask.lanes x.on).foldl (fun m l => SMap.put m l hi) x.t.mtimeHi } }
  else x

/-! ### Issue -/

/-- May the device's cores run: not in reset, not frozen, not inside a domain reset. -/
def coresRun (s : State) : Bool := s.clocked && !s.domainStopped

/-- Is the tray's sheet being taken off its core (R19, R289)? -/
def leavingTray (s : State) (core : Nat) (t : Tray) : Bool :=
  match (s.core core).sheet? t.sheet with
  | some h => h.leaving
  | none => false

/-- The tray that an instruction is issued from, if it may issue (R51 conditions 1 and 2, R62, R76). -/
def issueCtx (o : TrayOp) (s : State) : Option Ctx :=
  match s.tray o.core o.slot with
  | none => none
  | some t =>
    match s.launch t.launch, t.path with
    | some L, some p =>
      if coresRun s && t.active && !t.yieldHold && ((!t.halted && !(t.stepping && t.stepIssued)) || chainOpen s o.core o.slot) && p.runnable &&
          !(L.stopped.contains o.core.val) && (!(leavingTray s o.core t) || chainOpen s o.core o.slot) then
        let pr := t.pred o.pred
        some { s := s, core := o.core, slot := o.slot, t := t, p := p, L := L, act := p.lanes,
               on := p.lanes &&& (if o.pneg then ~~~pr else pr)
               guards := if o.pred = 7 then [] else [predReg o.pred] }
      else none
    | _, _ => none

/-- Raise a tray-level fault for the instruction. -/
def Ctx.fault (x : Ctx) (status : Nat) (object : Nat := 0) (lanes : Nat := 0) (win : Nat := 0) : State :=
  x.s.trayFault x.core x.slot status object lanes win

def Ctx.illegal (x : Ctx) : State := x.fault stIllegal

/-- Note that the tray has issued an instruction: the launch's first issue, a STEP's one instruction, the count of
instructions, and a breakpoint passed (R77, R244, R280, R434). -/
def Ctx.noteIssue (x : Ctx) : Ctx :=
  let t := { x.t with
    stepIssued := x.t.stepIssued || x.t.stepping, lastIssued := some x.s.now
    stepPath := if x.t.stepping && !x.t.stepIssued then x.p.id else x.t.stepPath
    issueCount := x.t.issueCount + 1, brkSkip := false }
  let s := x.s.mapLaunch x.L.serial (fun L => { L with firstIssue := some (L.firstIssue.getD x.s.now) })
  { x with t := t, s := s }

/-- Put the tray back; a tray none of whose paths can run is demoted (R62). -/
def Ctx.put (x : Ctx) (t : Tray) : State :=
  let s := x.s.setTray x.core x.slot t
  if t.canRun then s else s.demote x.core x.slot

/-- Issue with a result in flight: the program counter moves on by `words` words of 8 B, and `pd` joins the
scoreboard. -/
def Ctx.issueWith (x : Ctx) (words : Nat) (pd : Option Pend) : State :=
  let x := x.noteIssue
  let t := match pd with
    | some p => { x.t with pend := x.t.pend ++ [p] }
    | none => x.t
  x.put (t.arriveAt (x.p.pc + words))

/-- A new number for an instruction in flight of the core. -/
def Ctx.serial (x : Ctx) : Nat := (x.s.core x.core).nextSerial

def Ctx.bumpSerial (x : Ctx) : Ctx :=
  { x with s := x.s.mapCore x.core (fun c => { c with nextSerial := c.nextSerial + 1 }) }

/-- The scoreboard check (R51 condition 4): none of the registers has a pending write. -/
def Ctx.clear (x : Ctx) (regs : List Nat) : Bool := regs.all (fun r => !(x.t.pendingRegs.contains r))

/-- The tray cannot issue yet; it is demoted when it waits on a long-latency source (R54). -/
def Ctx.blocked (x : Ctx) (regs : List Nat) : State :=
  if regs.any (fun r => x.t.longRegs.contains r) then x.s.demote x.core x.slot else x.s

/-- The program counters of the instruction and of the chain it opens, as the code memory holds them: a VEC word
(CLASS 7) with CHAIN set is followed by another member, 8 B on or 16 B with a literal (R145 to R147). -/
def Ctx.chainPcs (x : Ctx) : Nat → Nat → List Nat
  | 0, _ => []
  | n + 1, pc =>
    let w := x.s.readLE (x.L.codeBase + 8 * pc) 8
    if bits w 60 4 = 7 ∧ bits w 11 1 = 1 then pc :: Ctx.chainPcs x n (pc + 1 + bits w 12 1) else [pc]

/-- Does a breakpoint stop the tray before it issues (R434)? Not between the members of a chain. -/
def Ctx.atBreak (x : Ctx) : Bool :=
  !x.t.brkSkip && !(chainOpen x.s x.core x.slot) && !(x.s.breakHits x.core x.L.context (x.chainPcs 4 x.p.pc)).isEmpty

/-- The one way every tray instruction is issued. The tray must be able to issue; a poisoned code word faults before
the instruction issues (R216); an uncorrectable register-file word faults and writes nothing (R59). -/
def issueAny (o : TrayOp) (s : State) (body : Ctx → State) : State :=
  match issueCtx o s with
  | none => s
  | some x =>
    settleHalt o.core o.slot (if x.atBreak then s.breakHalt o.core o.slot (x.chainPcs 4 x.p.pc)
    else if s.extentPoisoned (x.L.codeBase + 8 * x.p.pc) 8 then x.fault stUncorrectable (x.L.codeBase + 8 * x.p.pc)
    else
      match o.rfEcc with
      | .clean => body x
      | .corrected => body { x with s := s.rbump Fld.CO_RF_ERRORS_CORRECTED 1 x.core }
      | .uncorrectable => { x with s := s.rbump Fld.CO_RF_ERRORS_UNCORRECTABLE 1 x.core }.fault stUncorrectable)

/-- Issue of an instruction that is no VEC instruction: between the members of a chain it is illegal (R148). -/
def issueTray (o : TrayOp) (s : State) (body : Ctx → State) : State :=
  issueAny o s (fun x => if chainOpen s x.core x.slot then x.illegal else body x)

/-- The scoreboard check in front of a body: a legal instruction with a pending operand does not issue. -/
def Ctx.withRegs (x : Ctx) (legal : Bool) (regs : List Nat) (body : State) : State :=
  if !legal then x.illegal else if x.clear (x.guards ++ regs) then body else x.blocked (x.guards ++ regs)

end Sys2Proof.Machine
end

