-- ==== Sys2Proof/Machine/Ctrl.lean ====
section
/-!
DEFINITION. Machine/Ctrl.lean: the CTRL class (R49, R56, R60 to R62): BR, BRD, YIELD, EXIT, PLOP and VOTE.
-/
namespace Sys2Proof.Machine

/-- A branch target: an offset of 24 bits in words of 8 B from the branch's own address, if it lies in the code
window (R49). -/
def branchTarget (x : Ctx) (field : Nat) : Option Nat :=
  let t : Int := (x.p.pc : Int) + signedOf 24 field
  if 0 ≤ t ∧ t < ((x.L.codeBytes / 8 : Nat) : Int) then some t.toNat else none

/-- Does the 16,384-instruction slice end at this branch (R62)? -/
def sliceEnds (x : Ctx) (field : Nat) : Bool := decide (16384 ≤ x.p.issued) && decide (signedOf 24 field ≤ 0)

/-- End the turn on a counted cause, if the running path still has it (R62). -/
def countedTurn (s : State) (core slot : Nat) (cause : Fld) (path : Nat) : State :=
  let s := s.rbump cause 1 core
  match s.tray core slot with
  | none => s
  | some t =>
    if t.running = path ∧ t.canRun then
      (if 1 < t.paths.length then s.setTray core slot t.endTurn
       else s.setTray core slot (t.mapPath path (fun p => { p with issued := 0 })))
    else s

/-- Move to a program counter, and end the turn when the slice is over. -/
def branchTo (x : Ctx) (field pc : Nat) (t : Tray) : State :=
  let s := x.put (t.arriveAt pc)
  if sliceEnds x field then countedTurn s x.core x.slot Fld.CO_PATH_SWITCH_SLICE x.p.id else s

/-- BR: the compiler marks it uniform; lanes that disagree make it illegal (R60). -/
def doBr (o : TrayOp) (s : State) : State :=
  issueTray o s (fun x =>
    let field := o.fld 24 24
    match branchTarget x field with
    | none => x.illegal
    | some target =>
      x.withRegs (decide (o.fld 0 24 = 0)) []
        (let y := x.noteIssue
         if x.on = 0 then branchTo y field (x.p.pc + 1) y.t
         else if x.on = x.act then branchTo y field target y.t
         else x.illegal))

/-- BRD: a divergent branch splits the running path; the fall-through lanes keep it (R60). -/
def doBrd (o : TrayOp) (s : State) : State :=
  issueTray o s (fun x =>
    let field := o.fld 24 24
    match branchTarget x field, branchTarget x (o.fld 0 24) with
    | some target, some reconv =>
      x.withRegs true []
        (let y := x.noteIssue
         if x.on = 0 then branchTo y field (x.p.pc + 1) y.t
         else if x.on = x.act then branchTo y field target y.t
         else branchTo y field (x.p.pc + 1) (y.t.splitOff x.on target (some reconv)))
    | _, _ => x.illegal)

/-- Is some pending tray of the core ready, as far as its paths and halts tell (R55)? -/
def pendingReady (s : State) (core : Nat) : Bool :=
  (s.core core).trays.any (fun e => !e.2.active && !e.2.halted && e.2.canRun)

/-- YIELD ends the turn; a tray with one path enters yield hold and gives its slot to a ready tray (R56, R62). -/
def doYield (o : TrayOp) (s : State) : State :=
  issueTray o s (fun x =>
    x.withRegs (decide (o.fld 0 48 = 0)) []
      (let y := x.noteIssue
       if x.on = 0 then y.put (y.t.arriveAt (x.p.pc + 1))
       else if 1 < x.t.paths.length then
         countedTurn (y.put (y.t.arriveAt (x.p.pc + 1))) x.core x.slot Fld.CO_PATH_SWITCH_YIELD x.p.id
       else
         let s := (y.put { y.t.arriveAt (x.p.pc + 1) with yieldHold := true }).rbump Fld.CO_PATH_SWITCH_YIELD 1 x.core
         if pendingReady s x.core then s.demote x.core x.slot else s))

/-- EXIT ends the lanes whose predicate is true (R49). -/
def doExit (o : TrayOp) (s : State) : State :=
  issueTray o s (fun x =>
    x.withRegs (decide (o.fld 0 48 = 0)) []
      (let y := x.noteIssue
       y.put (y.t.exitLanes x.on (x.p.pc + 1))))

/-- The function of PLOP: 0 AND, 1 OR, 2 XOR, 3 PA AND NOT PB, 4 PA OR NOT PB, 5 PA. -/
def plopFn (func : Nat) (a b : Mask) : Mask :=
  match func with
  | 0 => a &&& b
  | 1 => a ||| b
  | 2 => a ^^^ b
  | 3 => a &&& ~~~b
  | 4 => a ||| ~~~b
  | _ => a

def doPlop (o : TrayOp) (s : State) : State :=
  issueTray o s (fun x =>
    let pd := o.fld 40 3
    let pa := o.fld 32 3
    let pb := o.fld 24 3
    let func := o.fld 10 3
    let clean := decide (o.fld 43 5 = 0) && decide (o.fld 35 5 = 0) && decide (o.fld 27 5 = 0) &&
      decide (o.fld 13 11 = 0) && decide (o.fld 0 9 = 0)
    x.withRegs (clean && decide (pd ≠ 7) && decide (func < 6)) [predReg pd, predReg pa, predReg pb]
      (let a := x.t.pred pa
       let v := plopFn func (if o.fld 9 1 = 1 then ~~~a else a) (x.t.pred pb)
       x.bumpSerial.issueWith 1 (some {
         serial := x.serial, kind := .plain, regs := [predReg pd]
         preds := [{ p := pd, lanes := x.on, val := v }] })))

/-- VOTE counts the active lanes whose predicate is true: ANY and ALL write a predicate, BALLOT a register (R49). -/
def doVote (o : TrayOp) (s : State) : State :=
  issueTray o s (fun x =>
    let mode := o.fld 11 2
    let pa := o.fld 32 3
    let clean := decide (o.fld 35 5 = 0) && decide (o.fld 13 19 = 0) && decide (o.fld 0 11 = 0)
    let hits := x.on &&& x.t.pred pa
    if mode = 2 then
      let d := o.dst.toNat
      x.withRegs (clean && legalDst x.L d) [d, predReg pa]
        (x.bumpSerial.issueWith 1 (some {
          serial := x.serial, kind := .plain, regs := [d]
          writes := [{ reg := d, lanes := x.act, vals := laneNumbers.map (fun _ => hits) }] }))
    else
      let pd := o.fld 40 3
      let v : Mask := if mode = 0 then (if hits = 0 then 0 else BitVec.allOnes 32)
        else (if hits = x.on then BitVec.allOnes 32 else 0)
      x.withRegs (clean && decide (o.fld 43 5 = 0) && decide (pd ≠ 7) && decide (mode ≠ 3)) [predReg pd, predReg pa]
        (x.bumpSerial.issueWith 1 (some {
          serial := x.serial, kind := .plain, regs := [predReg pd]
          preds := [{ p := pd, lanes := x.act, val := v }] })))

def execBr (o : TrayOp) (s : State) : Out State := .next (s.onClock (doBr o s))
def execBrd (o : TrayOp) (s : State) : Out State := .next (s.onClock (doBrd o s))
def execYield (o : TrayOp) (s : State) : Out State := .next (s.onClock (doYield o s))
def execPlop (o : TrayOp) (s : State) : Out State := .next (s.onClock (doPlop o s))
def execVote (o : TrayOp) (s : State) : Out State := .next (s.onClock (doVote o s))

end Sys2Proof.Machine
end

