-- ==== Sys2Proof/Machine/Lines.lean ====
section
/-!
DEFINITION. Machine/Lines.lean: where a line lives (R192), the L1s (R186, R221, R222), the stacked L2 slices (R194 to
R196, R198) and the home's processing of requests and snoops (R223 to R230).
-/
namespace Sys2Proof.Machine

/-! ### The map of R192 -/

/-- Where an HBM line lives. -/
structure Home where
  channel : Nat
  index : Nat
  slice : Nat
  set : Nat
deriving DecidableEq, Repr

/-- map(A) of R192, for the line address L = A[47:7]. -/
def homeOf (line : Nat) : Home :=
  let h := line >>> 7
  let f := bits h 0 7 ^^^ bits h 7 7 ^^^ bits h 14 7 ^^^ bits h 21 7 ^^^ bits h 28 6
  let v0 := bits line 0 7 ^^^ f
  let v := v0 ^^^ (bits line 2 2 ^^^ bits line 4 2)
  let region := bits v 0 2
  { channel := 32 * region + 16 * bits v 2 1 + bits v 3 4, index := h
    slice := 6 * region + (h + bits v 2 5) % 6
    set := (bits h 0 15 ^^^ bits h 15 15 ^^^ bits h 30 4) ^^^ (bits v 2 5 <<< 10) }

def lineOf (a : Nat) : Nat := a / 128
def isHbmLine (line : Nat) : Bool := isHbm (128 * line)

/-- The line addresses that an extent touches. -/
def linesOf (a n : Nat) : List Nat :=
  if n = 0 then [] else (List.range ((a + n - 1) / 128 - a / 128 + 1)).map (fun i => a / 128 + i)

def State.line (s : State) (l : Nat) : Line := SMap.get s.lines l {}
def State.setLine (s : State) (l : Nat) (x : Line) : State := { s with lines := SMap.store s.lines l {} x }
def State.mapLine (s : State) (l : Nat) (f : Line → Line) : State := s.setLine l (f (s.line l))

/-- The slice a line's statistics go to. -/
def sliceOf (line : Nat) : Nat := (homeOf line).slice

/-! ### The stacked L2 -/

/-- The lines of one set of a slice. -/
def setLines (s : State) (slice set : Nat) : List (Nat × L2Way) :=
  s.lines.filterMap (fun e =>
    match e.2.slice with
    | some w => let h := homeOf e.1; if h.slice = slice ∧ h.set = set then some (e.1, w) else none
    | none => none)

def setKey (slice set : Nat) : Nat := 32768 * slice + set

/-- Is a way of a set disabled (R219)? -/
def wayOff (s : State) (slice set way : Nat) : Bool := Nat.testBit (SMap.get s.l2Off (setKey slice set) 0) way

/-- Ways of the set that are not disabled (R219). -/
def enabledWays (s : State) (slice set : Nat) : Nat :=
  ((List.range 16).filter (fun w => !(wayOff s slice set w))).length

/-- An enabled way of the set that holds no line. -/
def freeWay (s : State) (slice set : Nat) (ways : List (Nat × L2Way)) : Option Nat :=
  (List.range 16).find? (fun w => !(wayOff s slice set w) && !(ways.any (fun x => x.2.way == w)))

/-- Ways a set may lock (R198). -/
def lockLimit (s : State) (slice set : Nat) : Nat := min 12 (enabledWays s slice set - 4)

/-- The least recently used way that is not locked. -/
def lruOf (ways : List (Nat × L2Way)) : Option Nat :=
  ((ways.filter (fun w => w.2.lock.isNone)).foldl (fun (best : Option (Nat × Nat)) w =>
    match best with
    | none => some (w.1, w.2.stamp)
    | some b => if w.2.stamp < b.2 then some (w.1, w.2.stamp) else some b) none).map (fun b => b.1)

/-- Take a line out of its slice; memory already holds its data. -/
def dropWay (s : State) (l : Nat) : State := s.mapLine l (fun x => { x with slice := none })

/-- The next number of use. -/
def tick (s : State) : State := { s with l2Clock := s.l2Clock + 1 }

/-- Allocate a line in its home slice (R194): a full set gives up its least recently used unlocked way; an insertion at
the least recently used position takes stamp 0 (R188). -/
def l2Alloc (s : State) (l : Nat) (dirty lru : Bool) : State :=
  let s := tick s
  let stamp := if lru then 0 else s.l2Clock
  match (s.line l).slice with
  | some w => s.mapLine l (fun x => { x with slice := some { w with dirty := w.dirty || dirty, stamp := stamp } })
  | none =>
    if !(isHbmLine l) then s
    else
      let h := homeOf l
      let ways := setLines s h.slice h.set
      match freeWay s h.slice h.set ways with
      | some w => s.mapLine l (fun x => { x with slice := some { way := w, dirty := dirty, stamp := stamp } })
      | none =>
        match lruOf ways with
        | none => s
        | some v =>
          let w := ((s.line v).slice.map (fun y => y.way)).getD 0
          (dropWay s v).mapLine l (fun x => { x with slice := some { way := w, dirty := dirty, stamp := stamp } })

/-- A use of a line in its slice. -/
def l2Touch (s : State) (l : Nat) : State :=
  match (s.line l).slice with
  | none => s
  | some _ =>
    let s := tick s
    s.mapLine l (fun x => { x with slice := x.slice.map (fun w => { w with stamp := s.l2Clock }) })

/-- A clean victim's offer to a home that does not hold the line (R195, R196). -/
def offerClean (s : State) (l : Nat) : State :=
  let h := homeOf l
  let ways := setLines s h.slice h.set
  let budget := SMap.get s.victimBudget h.slice (s.rget Fld.L2_VICTIM_BUDGET_ACCEPTS h.slice)
  let used := SMap.get s.victimUsed h.slice 0
  let room := (freeWay s h.slice h.set ways).isSome
  let clean := ways.filter (fun w => !w.2.dirty && w.2.lock.isNone)
  if !room && clean.isEmpty then s.rbump Fld.L2_VICTIM_DECLINED_SET 1 h.slice
  else if budget ≤ used then s.rbump Fld.L2_VICTIM_DECLINED_BUDGET 1 h.slice
  else
    let victim := lruOf clean
    let way := match freeWay s h.slice h.set ways with
      | some w => w
      | none => (victim.bind (fun v => (s.line v).slice.map (fun y => y.way))).getD 0
    let s := if room then s else match victim with
      | some v => dropWay s v
      | none => s
    let s := tick s
    let s := s.mapLine l (fun x => { x with slice := some { way := way, stamp := s.l2Clock } })
    let s := { s with victimUsed := SMap.store s.victimUsed h.slice 0 (used + 1) }
    s.rbump Fld.L2_VICTIM_ACCEPTED 1 h.slice

/-- An L1 gives a line up to its home (R195, R222). -/
def victimOffer (s : State) (core l : Nat) : State :=
  match SMap.find? (s.line l).l1 core with
  | none => s
  | some st =>
    let s := s.mapLine l (fun x => { x with l1 := SMap.del x.l1 core })
    if st = .m then (l2Alloc s l true false).rbump Fld.L2_VICTIM_DIRTY_IN 1 (sliceOf l)
    else if (s.line l).slice.isSome then l2Touch s l
    else if isHbmLine l then offerClean s l
    else s

/-! ### The L1 (R186) -/

/-- The set of an L1 of `kib` KiB that a line falls in. -/
def l1SetOf (kib line : Nat) : Nat :=
  let a := line * 128
  let h16 := bits a 7 16 ^^^ bits a 23 16 ^^^ bits a 39 9
  64 * ((h16 >>> 6) % (kib / 64)) + h16 % 64

/-- The way the pseudo-LRU tree points at: bit 0 chooses the half, bits 1 and 2 the quarter, bits 3 to 6 the way. -/
def plruVictim (p : Nat) : Nat :=
  let a := bits p 0 1
  let b := bits p (1 + a) 1
  let c := bits p (3 + 2 * a + b) 1
  4 * a + 2 * b + c

/-- The tree after a use of a way: it points away from it. -/
def plruTouch (p way : Nat) : Nat :=
  let a := way / 4
  let b := way / 2 % 2
  let c := way % 2
  let put := fun (p i v : Nat) => p - bits p i 1 * 2 ^ i + v * 2 ^ i
  put (put (put p 0 (1 - a)) (1 + a) (1 - b)) (3 + 2 * a + b) (1 - c)

/-- Put a line in a state into a core's L1, evicting the set's pseudo-LRU way when no way is free. -/
def l1Put (s : State) (core l : Nat) (st : L1St) : State :=
  let c := s.core core
  if c.l1KiB = 0 then s
  else
    let si := l1SetOf c.l1KiB l
    let set := SMap.get c.l1 si {}
    let live := set.ways.filter (fun e => (SMap.find? (s.line e.2).l1 core).isSome)
    let (way, s) := match List.find? (fun (p : Nat × Nat) => p.2 == l) live with
      | some e => (e.1, s)
      | none =>
        match (List.range 8).find? (fun w => (SMap.find? live w).isNone) with
        | some w => (w, s)
        | none =>
          let w := plruVictim set.plru
          (w, match SMap.find? live w with
            | some v => victimOffer s core v
            | none => s)
    let set' : L1Set := { ways := SMap.put live way l, plru := plruTouch set.plru way }
    let s := s.mapCore core (fun c => { c with l1 := SMap.put c.l1 si set' })
    s.mapLine l (fun x => { x with l1 := SMap.put x.l1 core st })

/-! ### The home (R222 to R226, R230, R231) -/

/-- Does a core's reservation hold keep snoops of the line waiting (R243)? -/
def heldBy (s : State) (core l : Nat) : Bool :=
  (s.core core).trays.any (fun e => e.2.resv.any (fun r => r.held && r.line == l))

/-- A conflicting write reached the line: reservations on it are lost (R244). -/
def loseReservations (s : State) (l except : Nat) : State :=
  { s with cores := s.cores.map (fun e =>
      if e.1 = except then e
      else (e.1, { e.2 with trays := e.2.trays.map (fun t =>
        (t.1, { t.2 with resv := t.2.resv.map (fun r => if r.line = l then { r with conflict := true, held := false } else r) })) })) }

/-- The L1 that holds the line in M or E, or in F. -/
def ownerOf (x : Line) : Option Nat := (List.find? (fun (p : Nat × L1St) => p.2 == L1St.m || p.2 == L1St.e) x.l1).map (fun p => p.1)
def forwarder (x : Line) : Option Nat := (List.find? (fun (p : Nat × L1St) => p.2 == L1St.f) x.l1).map (fun p => p.1)

/-- The snoops a request causes (R222, R223, R225, R230, R231). -/
def snoopsFor (x : Line) (req : CohReq) (agent : Nat) : List (Nat × Snoop) :=
  let others := (x.l1.filter (fun e => e.1 != agent)).map (fun e => e.1)
  let invAll := others.map (fun c => (c, Snoop.inv))
  match req with
  | .rdShared =>
    (match ownerOf x with
     | some o => if o = agent then [] else [(o, .fwdS)]
     | none => if x.slice.isSome then [] else match forwarder x with
        | some f => if f = agent then [] else [(f, .fwdS)]
        | none => [])
  | .rdOnce =>
    (match ownerOf x with
     | some o => if o = agent then [] else [(o, .fwdOnce)]
     | none => if x.slice.isSome then [] else match forwarder x with
        | some f => [(f, .fwdOnce)]
        | none => [])
  | .rdOwn =>
    let src := (ownerOf x).orElse (fun _ => forwarder x)
    others.map (fun c => if src = some c then (c, Snoop.fwdO) else (c, Snoop.inv))
  | .upgrade => invAll
  | .claim => invAll
  | .wrThru => invAll
  | .wrInv => invAll
  | .atomic => invAll

/-- What an L1 does on a snoop (R222): its state afterwards, and whether dirty data goes to the home. -/
def snoopAct (st : L1St) (k : Snoop) : Option L1St × Bool :=
  match k, st with
  | .inv, .m => (none, true)
  | .inv, _ => (none, false)
  | .fwdO, _ => (none, false)
  | .fwdS, .m => (some .s, true)
  | .fwdS, _ => (some .s, false)
  | .fwdOnce, st => (some st, false)

/-- An L1 acts on a snoop of a line. -/
def applySnoop (s : State) (l core : Nat) (k : Snoop) : State :=
  match SMap.find? (s.line l).l1 core with
  | none => s
  | some st =>
    let (st', home) := snoopAct st k
    let s := if home then l2Alloc s l true false else s
    s.mapLine l (fun x => { x with l1 := match st' with
      | some v => SMap.put x.l1 core v
      | none => SMap.del x.l1 core })

/-- Statistics of a read served by a holder, by the slice or from HBM (R223). -/
def serveStats (s : State) (l : Nat) (forwarded : Bool) (allocate : Bool) : State :=
  let sl := sliceOf l
  if !(isHbmLine l) then s
  else if forwarded then s.rbump Fld.L2_COH_STATS_FORWARDS 1 sl
  else if (s.line l).slice.isSome then (l2Touch s l).rbump Fld.L2_STATS_HITS 1 sl
  else
    let s := s.rbump Fld.L2_STATS_MISSES 1 sl
    if allocate then l2Alloc s l false false else s

/-- The home completes a request whose snoops are all answered (R222, R223, R230, R231). -/
def finishReq (s : State) (l : Nat) (req : CohReq) (agent : Nat) (forwarded : Bool) : State :=
  match req with
  | .rdShared =>
    let s := serveStats s l forwarded true
    let x := s.line l
    let alone := (x.l1.filter (fun e => e.1 != agent)).isEmpty
    -- the newest sharer becomes F; the earlier F holder becomes S
    let s := s.mapLine l (fun x => { x with l1 := x.l1.map (fun e => if e.2 = L1St.f then (e.1, L1St.s) else e) })
    l1Put s agent l (if alone then .e else .f)
  | .rdOnce => serveStats s l forwarded true
  | .rdOwn =>
    let s := serveStats s l forwarded true
    let s := loseReservations s l agent
    l1Put s agent l .m
  | .upgrade =>
    let had := (SMap.find? (s.line l).l1 agent).isSome
    let s := if had then s else serveStats s l forwarded true
    l1Put (loseReservations s l agent) agent l .m
  | .claim => l1Put (loseReservations s l agent) agent l .m
  | .wrThru =>
    let s := loseReservations s l agent
    let s := l2Alloc s l true false
    s.mapLine l (fun x => { x with l1 := match SMap.find? x.l1 agent with
      | some _ => SMap.put x.l1 agent .e
      | none => x.l1 })
  | .wrInv => l2Alloc (loseReservations s l 1000) l true false
  | .atomic => l2Alloc (loseReservations s l 1000) l true false

/-- A request that an UPGRADE becomes when its copy was invalidated on the way (R226). -/
def effectiveReq (x : Line) (req : CohReq) (agent : Nat) : CohReq :=
  if req = .upgrade ∧ (SMap.find? x.l1 agent).isNone then .rdOwn else req

/-- The home takes up a request: it sends its snoops, or completes at once when none is needed. -/
def startReq (s : State) (l : Nat) (req : CohReq) (agent : Nat) : State :=
  let req := effectiveReq (s.line l) req agent
  let sn := snoopsFor (s.line l) req agent
  if sn.isEmpty then finishReq s l req agent false
  else
    let s := s.rbump Fld.L2_COH_STATS_SNOOPS sn.length (sliceOf l)
    s.mapLine l (fun x => { x with txn := some {
      req := req, agent := agent, snoops := sn.map (fun p => { core := p.1, kind := p.2, sentAt := s.now }) } })

/-- A request reaches the home: requests of one line are processed one at a time, in order (R226). -/
def arriveReq (s : State) (l : Nat) (req : CohReq) (agent : Nat) : State :=
  if (s.line l).txn.isSome || (s.line l).reloadAt.isSome then s.mapLine l (fun x => { x with queue := x.queue ++ [(req, agent)] })
  else startReq s l req agent

/-- The next request of a line, when the one before has completed. -/
def nextReq (s : State) (l : Nat) : Nat → State
  | 0 => s
  | n + 1 =>
    let x := s.line l
    if x.txn.isSome || x.reloadAt.isSome then s
    else match x.queue with
      | [] => s
      | (req, agent) :: rest =>
        nextReq (startReq (s.mapLine l (fun y => { y with queue := rest })) l req agent) l n

/-- A response reaches the home; when the last one has, the request completes and the next begins. -/
def arriveRsp (s : State) (l core : Nat) : State :=
  match (s.line l).txn with
  | none => s
  | some t =>
    if t.snoops.any (fun x => x.core == core && x.acted) then
      let rest := t.snoops.filter (fun x => x.core != core)
      let fwd := t.snoops.any (fun x => x.core == core && x.kind != Snoop.inv)
      if rest.isEmpty then
        let s := s.mapLine l (fun x => { x with txn := none })
        nextReq (finishReq s l t.req t.agent fwd) l ((s.line l).queue.length + 1)
      else s.mapLine l (fun x => { x with txn := some { t with snoops := rest } })
    else s

/-- Does a request write the line, or make its agent's copy the only one? -/
def CohReq.conflicts : CohReq → Bool
  | .rdShared | .rdOnce => false
  | .rdOwn | .upgrade | .claim | .wrThru | .wrInv | .atomic => true

/-- Does a hold of a core that has no L1 keep another agent's conflicting request waiting at the home (R186, R243, R245)? -/
def heldAtHome (s : State) (l : Nat) (req : CohReq) (agent : Nat) : Bool :=
  req.conflicts && s.cores.any (fun e => decide (e.1 ≠ agent) && decide (e.2.l1KiB = 0) && heldBy s e.1 l)

/-- A whole request at once: the snoops, their answers and the completion. None while the home is busy with the line or
a reservation hold keeps a snoop waiting. -/
def wholeReq (s : State) (l : Nat) (req : CohReq) (agent : Nat) : Option State :=
  let x := s.line l
  let req := effectiveReq x req agent
  let sn := snoopsFor x req agent
  if x.txn.isSome || x.reloadAt.isSome || sn.any (fun p => heldBy s p.1 l) || heldAtHome s l req agent then none
  else
    let s := if sn.isEmpty then s else s.rbump Fld.L2_COH_STATS_SNOOPS sn.length (sliceOf l)
    let s := sn.foldl (fun s p => applySnoop s l p.1 p.2) s
    some (finishReq s l req agent (sn.any (fun p => p.2 != Snoop.inv)))

/-- A non-caching agent's number (R220). -/
def agentNone : Nat := 1000

/-- A write by a non-caching agent invalidates every copy first (R230). Where a hold keeps a snoop waiting the hold is
taken as over: the agent's write is what the home performs next. -/
def invalidateCopies (s : State) (a n : Nat) : State :=
  (linesOf a n).foldl (fun s l =>
    if isHbmLine l then
      let s := (s.line l).l1.foldl (fun s e => applySnoop s l e.1 .inv) s
      loseReservations s l 1000
    else s) s

end Sys2Proof.Machine
end

