-- ==== Sys2Proof/Machine/Float.lean ====
section
/-!
DEFINITION. Machine/Float.lean: exact binary floating point by integer arithmetic, for the SIMT pipe (R45, R48),
the vector engine (R155 to R158), the scale step (R115) and recombination (R134). Every operation is computed
exactly and rounded once to nearest, ties to even, with subnormals kept.
-/
namespace Sys2Proof.Machine

/-- A binary interchange format: exponent and fraction widths in bits. -/
structure FFmt where
  ebits : Nat
  mbits : Nat
deriving DecidableEq, Repr

def fp64 : FFmt := { ebits := 11, mbits := 52 }
def fp32 : FFmt := { ebits := 8, mbits := 23 }
def bf16 : FFmt := { ebits := 8, mbits := 7 }
def fp16 : FFmt := { ebits := 5, mbits := 10 }

def FFmt.bias (f : FFmt) : Nat := 2 ^ (f.ebits - 1) - 1
def FFmt.width (f : FFmt) : Nat := 1 + f.ebits + f.mbits
def FFmt.signBit (f : FFmt) : Nat := 2 ^ (f.ebits + f.mbits)
def FFmt.infBits (f : FFmt) : Nat := (2 ^ f.ebits - 1) * 2 ^ f.mbits
/-- The canonical quiet NaN of a format (R157). -/
def FFmt.nanBits (f : FFmt) : Nat := f.infBits + 2 ^ (f.mbits - 1)
/-- The exponent of the unit of a subnormal of the format. -/
def FFmt.qmin (f : FFmt) : Int := 1 - (f.bias : Int) - (f.mbits : Int)

/-- A floating-point datum: a NaN (signalling or quiet), an infinity, or `m * 2 ^ e` with a sign. -/
inductive FV where
  | nan (signalling : Bool)
  | inf (neg : Bool)
  | fin (neg : Bool) (m : Nat) (e : Int)
deriving DecidableEq, Repr

/-- A result's bit pattern with the events of R158. -/
structure FR where
  bits : Nat
  inv : Bool := false
  ovf : Bool := false
  unf : Bool := false
deriving DecidableEq, Repr

/-- The datum a bit pattern stands for. -/
def FFmt.decode (f : FFmt) (b : Nat) : FV :=
  let neg := decide ((b / f.signBit) % 2 = 1)
  let ex := (b / 2 ^ f.mbits) % 2 ^ f.ebits
  let fr := b % 2 ^ f.mbits
  if ex = 2 ^ f.ebits - 1 then
    if fr = 0 then .inf neg else .nan (decide (fr < 2 ^ (f.mbits - 1)))
  else if ex = 0 then .fin neg fr f.qmin
  else .fin neg (fr + 2 ^ f.mbits) (f.qmin + ((ex : Int) - 1))

def FFmt.signed (f : FFmt) (neg : Bool) (b : Nat) : Nat := if neg then f.signBit + b else b

def FFmt.zero (f : FFmt) (neg : Bool) : Nat := f.signed neg 0
def FFmt.inf (f : FFmt) (neg : Bool) : Nat := f.signed neg f.infBits

/-- Round the magnitude `m * 2 ^ e` (plus a bit below it when `sticky`) to the format, to nearest even.
The result is a bit pattern without its sign; a value too large gives the pattern of infinity. -/
def FFmt.roundMag (f : FFmt) (m : Nat) (e : Int) (sticky : Bool) : Nat :=
  if m = 0 then 0 else
  let top : Int := (Nat.log2 m : Int) + e
  let q : Int := max (top - (f.mbits : Int)) f.qmin
  let sh : Int := q - e
  let mant : Nat :=
    if sh ≤ 0 then m * 2 ^ (-sh).toNat
    else
      let s := sh.toNat
      let hi := m >>> s
      let lo := m - (hi <<< s)
      let half := 2 ^ (s - 1)
      if lo > half ∨ (lo = half ∧ sticky) then hi + 1
      else if lo = half then (if hi % 2 = 1 then hi + 1 else hi)
      else hi
  let r : Nat :=
    if mant < 2 ^ f.mbits then mant
    else (q - f.qmin + 1).toNat * 2 ^ f.mbits + (mant - 2 ^ f.mbits)
  min r f.infBits

/-- One rounding of an exact non-special value with its events (R158): overflow when a finite value becomes
infinite, underflow when a non-zero value is delivered subnormal or zero, exact or not. -/
def FFmt.round (f : FFmt) (neg : Bool) (m : Nat) (e : Int) (sticky : Bool) : FR :=
  let r := f.roundMag m e sticky
  { bits := f.signed neg r, ovf := decide (r = f.infBits),
    unf := (decide (m ≠ 0) || sticky) && decide (r < 2 ^ f.mbits) }

def FFmt.nan (f : FFmt) (inv : Bool) : FR := { bits := f.nanBits, inv := inv }

def FV.isNaN : FV → Bool
  | .nan _ => true
  | _ => false

def FV.isSNaN : FV → Bool
  | .nan s => s
  | _ => false

def FV.isInf : FV → Bool
  | .inf _ => true
  | _ => false

def FV.isZero : FV → Bool
  | .fin _ m _ => decide (m = 0)
  | _ => false

def FV.neg : FV → Bool
  | .nan _ => false
  | .inf n => n
  | .fin n _ _ => n

/-- The signed integer `±m` scaled to the exponent `e`, for `e` at most its own. -/
def FV.scaled (v : FV) (e : Int) : Int :=
  match v with
  | .fin n m e' => let x : Int := (m * 2 ^ (e' - e).toNat : Nat); if n then -x else x
  | _ => 0

def FV.exp : FV → Int
  | .fin _ _ e => e
  | _ => 0

/-- Round a sum given as a signed integer at an exponent; an exact zero takes the sign `zneg`. -/
def FFmt.roundInt (f : FFmt) (s : Int) (e : Int) (zneg : Bool) : FR :=
  if s = 0 then { bits := f.zero zneg } else f.round (decide (s < 0)) s.natAbs e false

/-- `a + b`, one rounding. -/
def FFmt.add (f : FFmt) (x y : Nat) : FR :=
  let a := f.decode x
  let b := f.decode y
  match a, b with
  | .nan s, v => f.nan (s || v.isSNaN)
  | v, .nan s => f.nan (s || v.isSNaN)
  | .inf n, .inf n' => if n = n' then { bits := f.inf n } else f.nan true
  | .inf n, .fin _ _ _ => { bits := f.inf n }
  | .fin _ _ _, .inf n => { bits := f.inf n }
  | .fin n _ e, .fin n' _ e' =>
    let q := min e e'
    f.roundInt (a.scaled q + b.scaled q) q (n && n')

/-- The negative of a pattern. -/
def FFmt.flip (f : FFmt) (x : Nat) : Nat := if (x / f.signBit) % 2 = 1 then x - f.signBit else x + f.signBit

/-- `a - b`, one rounding. -/
def FFmt.sub (f : FFmt) (x y : Nat) : FR := f.add x (f.flip y)

/-- `a * b`, one rounding. -/
def FFmt.mul (f : FFmt) (x y : Nat) : FR :=
  let a := f.decode x
  let b := f.decode y
  let n := xor a.neg b.neg
  match a, b with
  | .nan s, v => f.nan (s || v.isSNaN)
  | v, .nan s => f.nan (s || v.isSNaN)
  | .inf _, v => if v.isZero then f.nan true else { bits := f.inf n }
  | v, .inf _ => if v.isZero then f.nan true else { bits := f.inf n }
  | .fin _ m e, .fin _ m' e' =>
    if m * m' = 0 then { bits := f.zero n } else f.round n (m * m') (e + e') false

/-- `a * b + c`, one rounding. A product of zero and infinity is invalid even beside a quiet NaN addend (R158). -/
def FFmt.fma (f : FFmt) (x y z : Nat) : FR :=
  let a := f.decode x
  let b := f.decode y
  let c := f.decode z
  let n := xor a.neg b.neg
  let badProduct := (a.isInf && b.isZero) || (a.isZero && b.isInf)
  if a.isNaN || b.isNaN || c.isNaN then
    f.nan (a.isSNaN || b.isSNaN || c.isSNaN || badProduct)
  else if badProduct then f.nan true
  else if a.isInf || b.isInf then
    (match c with
     | .inf n' => if n = n' then { bits := f.inf n } else f.nan true
     | _ => { bits := f.inf n })
  else
    match a, b, c with
    | .fin _ m e, .fin _ m' e', .fin nc mc ec =>
      let p : FV := .fin n (m * m') (e + e')
      let q := min (e + e') ec
      f.roundInt (p.scaled q + (FV.fin nc mc ec).scaled q) q (n && nc)
    | _, _, v => { bits := f.inf v.neg }

/-- `a / b`, correctly rounded. A finite non-zero value over zero gives infinity and counts overflow (R158). -/
def FFmt.div (f : FFmt) (x y : Nat) : FR :=
  let a := f.decode x
  let b := f.decode y
  let n := xor a.neg b.neg
  match a, b with
  | .nan s, v => f.nan (s || v.isSNaN)
  | v, .nan s => f.nan (s || v.isSNaN)
  | .inf _, .inf _ => f.nan true
  | .inf _, .fin _ _ _ => { bits := f.inf n }
  | .fin _ _ _, .inf _ => { bits := f.zero n }
  | .fin _ m e, .fin _ m' e' =>
    if m' = 0 then (if m = 0 then f.nan true else { bits := f.inf n, ovf := true })
    else if m = 0 then { bits := f.zero n }
    else
      let k := 2 * f.mbits + 6
      let num := m * 2 ^ k
      f.round n (num / m') (e - e' - (k : Int)) (decide (num % m' ≠ 0))

/-- The integer square root of a number below `2 ^ (2 * n)`, bit by bit from bit `n - 1`. -/
def isqrtBits (v : Nat) : Nat → Nat → Nat
  | 0, r => r
  | n + 1, r =>
    let c := r + 2 ^ n
    isqrtBits v n (if c * c ≤ v then c else r)

/-- The integer square root. -/
def isqrt (v : Nat) : Nat := isqrtBits v (Nat.log2 v / 2 + 1) 0

/-- The square root, correctly rounded. -/
def FFmt.sqrt (f : FFmt) (x : Nat) : FR :=
  match f.decode x with
  | .nan s => f.nan s
  | .inf n => if n then f.nan true else { bits := f.inf false }
  | .fin n m e =>
    if m = 0 then { bits := f.zero n }
    else if n then f.nan true
    else
      let k : Nat := 2 * f.mbits + 6 + ((e - (2 * f.mbits + 6 : Nat)) % 2).toNat
      let v := m * 2 ^ k
      let r := isqrt v
      f.round false r ((e - (k : Int)) / 2) (decide (r * r ≠ v))

/-- The order of two data that are not NaN; -0 and +0 are equal. -/
def FV.lt (a b : FV) : Bool :=
  match a, b with
  | .inf n, .inf n' => n && !n'
  | .inf n, .fin _ _ _ => n
  | .fin _ _ _, .inf n => !n
  | .fin _ _ e, .fin _ _ e' => let q := min e e'; decide (a.scaled q < b.scaled q)
  | _, _ => false

def FV.eq (a b : FV) : Bool := !a.isNaN && !b.isNaN && !(a.lt b) && !(b.lt a)

/-- The comparison of code 0 EQ, 1 NE, 2 LT, 3 LE, 4 GT, 5 GE (R46); false on a NaN, except NE (R48, R158). -/
def FV.cmp (code : Nat) (a b : FV) : Bool :=
  if a.isNaN || b.isNaN then decide (code = 1)
  else match code with
    | 0 => a.eq b
    | 1 => !(a.eq b)
    | 2 => a.lt b
    | 3 => !(b.lt a)
    | 4 => b.lt a
    | _ => !(a.lt b)

/-- The smaller value; min(-0, +0) is -0 (R152). -/
def FFmt.min (f : FFmt) (x y : Nat) : FR :=
  let a := f.decode x
  let b := f.decode y
  if a.isNaN || b.isNaN then f.nan (a.isSNaN || b.isSNaN)
  else if a.eq b then { bits := if a.neg then x else y }
  else { bits := if a.lt b then x else y }

/-- The larger value; max(-0, +0) is +0 (R152). -/
def FFmt.max (f : FFmt) (x y : Nat) : FR :=
  let a := f.decode x
  let b := f.decode y
  if a.isNaN || b.isNaN then f.nan (a.isSNaN || b.isSNaN)
  else if a.eq b then { bits := if a.neg then y else x }
  else { bits := if a.lt b then y else x }

/-- The magnitude; of a NaN the canonical one, uncounted (R158). -/
def FFmt.abs (f : FFmt) (x : Nat) : FR :=
  if (f.decode x).isNaN then f.nan false else { bits := x % f.signBit }

/-- The negative; of a NaN the canonical one, uncounted (R158). -/
def FFmt.negate (f : FFmt) (x : Nat) : FR :=
  if (f.decode x).isNaN then f.nan false else { bits := f.flip x }

/-- One conversion between formats, rounded to nearest even. -/
def FFmt.convert (src dst : FFmt) (x : Nat) : FR :=
  match src.decode x with
  | .nan s => dst.nan s
  | .inf n => { bits := dst.inf n }
  | .fin n m e => if m = 0 then { bits := dst.zero n } else dst.round n m e false

/-- A widening that is exact and keeps a signalling NaN signalling (R155). -/
def FFmt.widen (src dst : FFmt) (x : Nat) : Nat :=
  match src.decode x with
  | .nan s => if s then dst.infBits + 1 else dst.nanBits
  | .inf n => dst.inf n
  | .fin n m e => if m = 0 then dst.zero n else (dst.round n m e false).bits

/-- An integer, rounded to nearest even. -/
def FFmt.ofInt (f : FFmt) (v : Int) : FR := f.roundInt v 0 false

/-- The floor of `±m * 2 ^ e`. -/
def floorOf (neg : Bool) (m : Nat) (e : Int) : Int :=
  let x : Int := if neg then -(m : Int) else m
  if 0 ≤ e then x * (2 ^ e.toNat : Nat) else x / ((2 ^ (-e).toNat : Nat) : Int)

/-- `±m * 2 ^ e` rounded to an integer, to nearest even. -/
def rintOf (neg : Bool) (m : Nat) (e : Int) : Int :=
  let mag : Nat :=
    if 0 ≤ e then m * 2 ^ e.toNat
    else
      let s := (-e).toNat
      let hi := m >>> s
      let lo := m - (hi <<< s)
      let half := 2 ^ (s - 1)
      if lo > half then hi + 1 else if lo = half then (if hi % 2 = 1 then hi + 1 else hi) else hi
  if neg then -(mag : Int) else mag

/-- `±m * 2 ^ e` rounded toward zero. -/
def truncOf (neg : Bool) (m : Nat) (e : Int) : Int :=
  let mag : Nat := if 0 ≤ e then m * 2 ^ e.toNat else m >>> (-e).toNat
  if neg then -(mag : Int) else mag

/-- The nearest end of a range. -/
def clampInt (lo hi v : Int) : Int := if v < lo then lo else if hi < v then hi else v

/-- A float to an integer of a range: 0 for a NaN, the nearest end outside it (R48). -/
def FV.toIntSat (v : FV) (toZero : Bool) (lo hi : Int) : Int :=
  match v with
  | .nan _ => 0
  | .inf n => if n then lo else hi
  | .fin n m e => clampInt lo hi (if toZero then truncOf n m e else rintOf n m e)

/-- The exponent floor(log2 |x|) of a finite non-zero datum (R128). -/
def FV.ilog2 : FV → Int
  | .fin _ m e => (Nat.log2 m : Int) + e
  | _ => 0

/-- Exact scaling by a power of two with one rounding (scaleB_rne of R134). -/
def FFmt.scaleB (f : FFmt) (x : Nat) (k : Int) : FR :=
  match f.decode x with
  | .nan s => f.nan s
  | .inf n => { bits := f.inf n }
  | .fin n m e => if m = 0 then { bits := f.zero n } else f.round n m (e + k) false

end Sys2Proof.Machine
end

