-- ==== Sys2Proof/Machine/Narrow.lean ====
section
/-!
DEFINITION. Machine/Narrow.lean: the narrow integer formats (R106 to R108), the element formats of the vector
engine (R142), the exact dot-product update (R110, R111), stochastic rounding (R118 to R120) and the convert step
with its counts (R115 to R117, R156).
-/
namespace Sys2Proof.Machine

/-- The value of a ternary code; code 10 reads as zero (R107). -/
def ternaryVal (code : Nat) : Int := if code = 1 then 1 else if code = 3 then -1 else 0

/-- The width of a matrix format code: 0 8-bit, 1 4-bit, 2 2-bit, 3 ternary (R106). -/
def mxWidth (fmt : Nat) : Nat := if fmt = 0 then 8 else if fmt = 1 then 4 else 2

/-- The value of an element of a matrix format (R106, R107). -/
def mxVal (fmt : Nat) (isSigned : Bool) (field : Nat) : Int :=
  if fmt = 3 then ternaryVal field
  else if isSigned then signedOf (mxWidth fmt) field else (field : Int)

/-- Fields per 32-bit register (R83). -/
def mxFields (fmt : Nat) : Nat := 32 / mxWidth fmt

/-- k-steps of one array cycle: the wider of the two formats decides (R81). -/
def mxStepsPerCycle (fmtA fmtB : Nat) : Nat :=
  let w := max (mxWidth fmtA) (mxWidth fmtB)
  if w = 8 then 1 else if w = 4 then 2 else 4

/-- One accumulator update with its clamp (R110): the new value and whether it was clamped. -/
def accUpdate (acc p : Int) : Int × Bool :=
  let t := acc + p
  if t > 2147483647 then (2147483647, true)
  else if t < -2147483648 then (-2147483648, true)
  else (t, false)

/-- The sum of `n` products from index `k0` on. -/
def dotSum (a b : Nat → Int) (k0 : Nat) : Nat → Int
  | 0 => 0
  | n + 1 => dotSum a b k0 n + a (k0 + n) * b (k0 + n)

/-- The updates of one accumulator by one MMA: array cycles in order, `w` k-steps to a cycle (R110). The result
is the accumulator and how many updates were clamped. -/
def mmaCell (a b : Nat → Int) (w : Nat) (neg : Bool) : Nat → Int → Int × Nat
  | 0, acc => (acc, 0)
  | c + 1, acc =>
    let (acc1, n1) := mmaCell a b w neg c acc
    let p := dotSum a b (c * w) w
    let (acc2, hit) := accUpdate acc1 (if neg then -p else p)
    (acc2, if hit then n1 + 1 else n1)

/-- The element formats of a stream descriptor (R142). -/
inductive VFmt where
  | f64 | f32 | bf16 | f16 | i32 | i16 | s8 | u8 | s4 | u4 | s2 | u2 | tern
deriving DecidableEq, Repr

/-- The format of an FMT code; 13 to 15 are reserved (R142). -/
def VFmt.ofCode : Nat → Option VFmt
  | 0 => some .f64
  | 1 => some .f32
  | 2 => some .bf16
  | 3 => some .f16
  | 4 => some .i32
  | 5 => some .i16
  | 6 => some .s8
  | 7 => some .u8
  | 8 => some .s4
  | 9 => some .u4
  | 10 => some .s2
  | 11 => some .u2
  | 12 => some .tern
  | _ => none

def VFmt.width : VFmt → Nat
  | .f64 => 64
  | .f32 => 32
  | .bf16 => 16
  | .f16 => 16
  | .i32 => 32
  | .i16 => 16
  | .s8 => 8
  | .u8 => 8
  | .s4 => 4
  | .u4 => 4
  | .s2 => 2
  | .u2 => 2
  | .tern => 2

/-- The float format of an element format, if it is one. -/
def VFmt.float : VFmt → Option FFmt
  | .f64 => some Machine.fp64
  | .f32 => some Machine.fp32
  | .bf16 => some Machine.bf16
  | .f16 => some Machine.fp16
  | _ => none

/-- The range of an integer element format (R106, R116, R156). -/
def VFmt.range : VFmt → Int × Int
  | .i32 => (-2147483648, 2147483647)
  | .i16 => (-32768, 32767)
  | .s8 => (-128, 127)
  | .u8 => (0, 255)
  | .s4 => (-8, 7)
  | .u4 => (0, 15)
  | .s2 => (-2, 1)
  | .u2 => (0, 3)
  | .tern => (-1, 1)
  | _ => (0, 0)

/-- The value of an integer element. -/
def VFmt.intVal (f : VFmt) (field : Nat) : Int :=
  match f with
  | .tern => ternaryVal field
  | .u8 => field
  | .u4 => field
  | .u2 => field
  | _ => signedOf f.width field

/-- The 24-bit draw of an element (R119). -/
def srDraw (seed stream i : Nat) : Nat :=
  let two64 := 2 ^ 64
  let ctr := (stream <<< 40) ||| (i % 2 ^ 40)
  let s := (seed + 0x9E3779B97F4A7C15 * (ctr + 1)) % two64
  let z := ((s ^^^ (s >>> 30)) * 0xBF58476D1CE4E5B9) % two64
  let z := ((z ^^^ (z >>> 27)) * 0x94D049BB133111EB) % two64
  let z := z ^^^ (z >>> 31)
  z >>> 40

/-- What the convert step counts of one element (R116). -/
inductive Crumb where
  | none | clip | flush
deriving DecidableEq, Repr

/-- A converted element: its field, what the crumb counters count, and the IEEE events of a sink (R158). -/
structure Conv where
  bits : Nat
  crumb : Crumb := .none
  ovf : Bool := false
  unf : Bool := false
  inv : Bool := false
deriving DecidableEq, Repr

/-- Stochastic rounding of a finite datum to an integer with the draw `u` (R120). -/
def srInt (neg : Bool) (m : Nat) (e : Int) (u : Nat) : Int :=
  let f := floorOf neg m e
  let t := floorOf neg m (e + 24) - f * 16777216
  if (u : Int) < t then f + 1 else f

/-- A finite datum truncated toward zero to FP32, as a pattern without its sign; the pattern of infinity from
2 ^ 128 on (R120). -/
def truncFp32 (m : Nat) (e : Int) : Nat :=
  if m = 0 then 0 else
  let top : Int := (Nat.log2 m : Int) + e
  let q : Int := max (top - 23) fp32.qmin
  let sh : Int := q - e
  let mant : Nat := if sh ≤ 0 then m * 2 ^ (-sh).toNat else m >>> sh.toNat
  let r : Nat := if mant < 2 ^ 23 then mant else (q - fp32.qmin + 1).toNat * 2 ^ 23 + (mant - 2 ^ 23)
  min r fp32.infBits

/-- A pattern with negative zero replaced by positive zero (R117). -/
def FFmt.plusZero (f : FFmt) (b : Nat) : Nat := if b = f.signBit then 0 else b

/-- The convert step into a float format of 16 bits (R116, R117): rounded once, counted as clipped or flushed. -/
def convNarrowFloat (dst : FFmt) (x : FV) (sr : Option Nat) : Conv :=
  match x with
  | .nan _ => { bits := dst.nanBits }
  | .inf n => { bits := dst.inf n }
  | .fin n m e =>
    let mag : Nat :=
      match sr with
      | none => dst.roundMag m e false
      | some u =>
        let b := truncFp32 m e
        if b = fp32.infBits then dst.infBits
        else min ((b / 65536) + (if u / 256 < b % 65536 then 1 else 0)) dst.infBits
    { bits := dst.plusZero (dst.signed n mag)
      crumb := if mag = dst.infBits then .clip else if m ≠ 0 ∧ mag = 0 then .flush else .none }

/-- The convert step into an integer format (R116): the nearest end of the range outside it, 0 for a NaN. -/
def convInt (dst : VFmt) (x : FV) (sr : Option Nat) : Conv :=
  let (lo, hi) := dst.range
  match x with
  | .nan _ => { bits := 0, crumb := .clip }
  | .inf n => { bits := truncTo dst.width (if n then lo else hi), crumb := .clip }
  | .fin n m e =>
    let q := match sr with
      | none => rintOf n m e
      | some u => srInt n m e u
    let r := clampInt lo hi q
    { bits := truncTo dst.width r
      crumb := if q < lo ∨ hi < q then .clip else if m ≠ 0 ∧ r = 0 then .flush else .none }

/-- The sink of a float of the compute precision (R156). `src` is FP32 or FP64. -/
def sinkFloat (src : FFmt) (dst : VFmt) (x : Nat) (sr : Option Nat) : Conv :=
  let v := src.decode x
  match dst with
  | .f64 => { bits := Machine.fp64.plusZero (if v.isNaN then Machine.fp64.nanBits else src.widen Machine.fp64 x) }
  | .f32 =>
    if src = Machine.fp32 then { bits := Machine.fp32.plusZero (if v.isNaN then Machine.fp32.nanBits else x) }
    else
      let r := src.convert Machine.fp32 x
      { bits := Machine.fp32.plusZero r.bits, ovf := r.ovf, unf := r.unf, inv := r.inv }
  | .bf16 => convNarrowFloat Machine.bf16 v sr
  | .f16 => convNarrowFloat Machine.fp16 v none
  | d => convInt d v sr

/-- The sink of an int32 value (R156). -/
def sinkInt (dst : VFmt) (x : Int) (sr : Option Nat) : Conv :=
  let v : FV := .fin (decide (x < 0)) x.natAbs 0
  match dst with
  | .f64 => { bits := (Machine.fp64.ofInt x).bits }
  | .f32 => { bits := (Machine.fp32.ofInt x).bits }
  | .bf16 => convNarrowFloat Machine.bf16 v sr
  | .f16 => convNarrowFloat Machine.fp16 v none
  | d => convInt d v sr

end Sys2Proof.Machine
end

