-- ==== Sys2Proof/Machine/Scratch.lean ====
section
/-!
DEFINITION. Machine/Scratch.lean: the sheet's scratchpad, the extents of vector-engine streams in it and the hold they
put on tray accesses (R74, R142, R150, R185), and the crumb banks (R122).
-/
namespace Sys2Proof.Machine

/-- The sheet of an instruction's tray. -/
def Ctx.sheet (x : Ctx) : Option Sheet := (x.s.core x.core).sheet? x.t.sheet

/-- The physical address of a scratchpad offset of a sheet. -/
def Sheet.addr (h : Sheet) (core off : Nat) : Nat := sramAddr core (h.base + off)

/-- Bytes of one row of a stream: it starts on a byte (R142). -/
def Stream.rowBytes (d : Stream) (width : Nat) : Nat := (d.cols * width + 7) / 8

/-- The pitch of a stream's rows in bytes. -/
def Stream.pitchBytes (d : Stream) (width : Nat) : Nat := if d.pitch = 0 then d.rowBytes width else d.pitch * 16

/-- The extent of a stream: its first offset and its length in bytes. -/
def Stream.extent (d : Stream) : Nat × Nat :=
  let w := ((VFmt.ofCode d.fmt).map VFmt.width).getD 8
  (d.offset, (d.rows - 1) * d.pitchBytes w + d.rowBytes w)

def overlaps (a b : Nat × Nat) : Bool := decide (a.1 < b.1 + b.2) && decide (b.1 < a.1 + a.2)

/-- The size of a recombination region (R133) and of a function table (R163). -/
def regionBytes : Nat := 65600
def tableBytes : Nat := 4160

/-- The slice count of a class code 1 FP64-, 2 FP32-, 3 BF16-class (R125). -/
def sliceCount (cls : Nat) : Nat := if cls = 1 then 7 else if cls = 2 then 4 else 2

/-- The scratchpad extents that an instruction reads and writes: a list of sources and a list of destinations. -/
def VInstr.extents (v : VInstr) : List (Nat × Nat) × List (Nat × Nat) :=
  let ext := fun (d : Option Stream) => (d.toList).map Stream.extent
  match v.op with
  | 0x40 => ((v.srcA.toList).map (fun d => (d.offset, tableBytes)), [])
  | 0x50 => (ext v.srcA ++ ext v.dst, ext v.dst)
  | 0x51 =>
    -- the planes: plane i at OFFSET + (i - 1) * stride
    let planes := (v.dst.toList).flatMap (fun d =>
      (List.range (sliceCount (bits v.sub 1 2))).map (fun i => (d.offset + i * v.lit, d.extent.2)))
    (ext v.srcA ++ ext v.srcB, planes)
  | 0x52 => ((if v.tsrc then [] else ext v.srcB), (v.srcA.toList).map (fun d => (d.offset, regionBytes)))
  | 0x53 =>
    (ext v.srcB ++ ext v.srcC, ext v.dst ++ (v.srcA.toList).map (fun d => (d.offset, regionBytes)))
  | _ =>
    ((if v.tsrc then [] else ext v.srcA) ++ (if v.tsrc then [] else ext v.srcB) ++ ext v.srcC, ext v.dst)

/-- Does an access of a sheet's scratchpad overlap an extent of a queued or running VEC instruction of the sheet
(R150)? Such an access is held. -/
def veHolds (c : Core) (sheet : Nat) (ext : Nat × Nat) : Bool :=
  c.veq.any (fun e => e.sheet == sheet && e.members.any (fun v =>
    (v.extents.1 ++ v.extents.2).any (fun x => overlaps x ext)))

/-! ### Crumb banks (R122) -/

/-- The crumb bank that a launch holds on a core. -/
def bankOf (s : State) (core launch : Nat) : Option Nat :=
  (List.range 4).find? (fun b => s.flag Fld.CO_CRUMB_OWNER_VALID core b &&
    decide (s.rget Fld.CO_CRUMB_OWNER_LAUNCH core b = launch))

/-- Add to a 48-bit counter of a bank; one that saturates sets its overflow flag (R122, R159). -/
def bankAdd (s : State) (core bank : Nat) (count ovf : Fld) (n : Nat) : State :=
  if n = 0 then s
  else
    let v := s.rget count core bank + n
    let s := s.rput count (min v (2 ^ 48 - 1)) core bank
    if 2 ^ 48 ≤ v then s.rput ovf 1 core bank else s

/-- Count what an instruction of a launch lost or met, in its bank (R122, R159). -/
def State.addCrumbs (s : State) (core launch : Nat) (k : Crumbs) : State :=
  match bankOf s core launch with
  | none => s
  | some b =>
    let s := bankAdd s core b Fld.CO_CRUMB_SAT_COUNT Fld.CO_CRUMB_OWNER_SAT_OVF k.sat
    let s := bankAdd s core b Fld.CO_CRUMB_FLUSH_COUNT Fld.CO_CRUMB_OWNER_FLUSH_OVF k.flush
    let s := bankAdd s core b Fld.CO_CRUMB_CLIP_COUNT Fld.CO_CRUMB_OWNER_CLIP_OVF k.clip
    let s := bankAdd s core b Fld.CO_VE_INVALID_COUNT Fld.CO_VE_INVALID_OVF k.inv
    let s := bankAdd s core b Fld.CO_VE_OVERFLOW_COUNT Fld.CO_VE_OVERFLOW_OVF k.ovf
    bankAdd s core b Fld.CO_VE_UNDERFLOW_COUNT Fld.CO_VE_UNDERFLOW_OVF k.unf

/-- Assign a free bank to a launch, zeroed (R122). -/
def State.assignBank (s : State) (core launch context : Nat) : State :=
  match bankOf s core launch, (List.range 4).find? (fun b => !(s.flag Fld.CO_CRUMB_OWNER_VALID core b)) with
  | none, some b =>
    let z := fun (t : State) (f : Fld) => t.rput f 0 core b
    let s := [Fld.CO_CRUMB_SAT_COUNT, Fld.CO_CRUMB_FLUSH_COUNT, Fld.CO_CRUMB_CLIP_COUNT, Fld.CO_VE_INVALID_COUNT,
      Fld.CO_VE_OVERFLOW_COUNT, Fld.CO_VE_UNDERFLOW_COUNT, Fld.CO_CRUMB_OWNER_SAT_OVF, Fld.CO_CRUMB_OWNER_FLUSH_OVF,
      Fld.CO_CRUMB_OWNER_CLIP_OVF, Fld.CO_VE_INVALID_OVF, Fld.CO_VE_OVERFLOW_OVF, Fld.CO_VE_UNDERFLOW_OVF].foldl z s
    let s := s.rput Fld.CO_CRUMB_OWNER_VALID 1 core b
    let s := s.rput Fld.CO_CRUMB_OWNER_CONTEXT context core b
    s.rput Fld.CO_CRUMB_OWNER_LAUNCH launch core b
  | _, _ => s

/-- The bank's counts as totals. -/
def bankTotals (s : State) (core b : Nat) : Crumbs :=
  { sat := s.rget Fld.CO_CRUMB_SAT_COUNT core b, flush := s.rget Fld.CO_CRUMB_FLUSH_COUNT core b
    clip := s.rget Fld.CO_CRUMB_CLIP_COUNT core b, inv := s.rget Fld.CO_VE_INVALID_COUNT core b
    ovf := s.rget Fld.CO_VE_OVERFLOW_COUNT core b, unf := s.rget Fld.CO_VE_UNDERFLOW_COUNT core b
    crumbOvf := s.flag Fld.CO_CRUMB_OWNER_SAT_OVF core b || s.flag Fld.CO_CRUMB_OWNER_FLUSH_OVF core b ||
      s.flag Fld.CO_CRUMB_OWNER_CLIP_OVF core b
    ieeeOvf := s.flag Fld.CO_VE_INVALID_OVF core b || s.flag Fld.CO_VE_OVERFLOW_OVF core b ||
      s.flag Fld.CO_VE_UNDERFLOW_OVF core b }

def Crumbs.plus (a b : Crumbs) : Crumbs :=
  { sat := a.sat + b.sat, flush := a.flush + b.flush, clip := a.clip + b.clip, inv := a.inv + b.inv
    ovf := a.ovf + b.ovf, unf := a.unf + b.unf, crumbOvf := a.crumbOvf || b.crumbOvf
    ieeeOvf := a.ieeeOvf || b.ieeeOvf }

/-- When a launch's last sheet leaves a core its bank is added into the node's totals and freed (R123). -/
def State.closeBank (s : State) (core launch : Nat) : State :=
  match bankOf s core launch with
  | none => s
  | some b =>
    let k := bankTotals s core b
    let s := s.mapLaunch launch (fun L => { L with totals := L.totals.plus k })
    s.rput Fld.CO_CRUMB_OWNER_VALID 0 core b

end Sys2Proof.Machine
end

