-- ==== Sys2Proof/Machine/Special.lean ====
section
/-!
DEFINITION. Machine/Special.lean: RCP, RSQ, EX2 and LG2 (R48). The manual bounds their error at one unit in the
last place and fixes the result as a function of the input, so the model computes the results that the bound
allows and leaves the choice among them to `Config.specialPick`. A positive FP32 pattern is used as the number of
its place in the order of the format, so that its neighbours are the patterns one below and one above it.
-/
namespace Sys2Proof.Machine

/-- The largest FP32 pattern whose value is at most `m * 2 ^ e`; the pattern of infinity from 2 ^ 128 on. -/
def fp32Floor (m : Nat) (e : Int) : Nat :=
  if m = 0 then 0 else
  let top : Int := (Nat.log2 m : Int) + e
  let q : Int := max (top - 23) fp32.qmin
  let sh : Int := q - e
  let mant : Nat := if sh ≤ 0 then m * 2 ^ (-sh).toNat else m >>> sh.toNat
  let r : Nat := if mant < 2 ^ 23 then mant else (q - fp32.qmin + 1).toNat * 2 ^ 23 + (mant - 2 ^ 23)
  min r fp32.infBits

/-- Is the value of the pattern exactly `m * 2 ^ e`? -/
def fp32Exact (m : Nat) (e : Int) (p : Nat) : Bool :=
  match fp32.decode p with
  | .fin _ m' e' => let q := min e e'; decide (m * 2 ^ (e - q).toNat = m' * 2 ^ (e' - q).toNat)
  | _ => false

/-- The patterns within one unit in the last place of some value between `lo * 2 ^ e` and `hi * 2 ^ e`. -/
def withinUlp (lo hi : Nat) (e : Int) : List Nat :=
  let a := fp32Floor lo e
  let b := fp32Floor hi e
  if a = fp32.infBits then [a]
  else
    let below := if fp32Exact lo e a && decide (0 < a) then [a - 1] else []
    let above := if b = a && fp32Exact hi e b && decide (lo = hi) then [a + 1] else [b + 1]
    below ++ [a] ++ (if b = a then [] else [b]) ++ above.filter (fun p => decide (p ≤ fp32.infBits))

/-- The result among those allowed. -/
def pickSpecial (fn : Nat) (x : BitVec 32) (neg : Bool) (cands : List Nat) : Nat :=
  let r := cands.getD (Config.specialPick fn x % cands.length) fp32.nanBits
  fp32.signed neg r

/-- RCP: 1 / A. -/
def rcpFn (x : BitVec 32) : Nat :=
  match fp32.decode x.toNat with
  | .nan _ => fp32.nanBits
  | .inf n => fp32.zero n
  | .fin n m e =>
    if m = 0 then fp32.inf n
    else
      let lo := 2 ^ 80 / m
      let hi := if 2 ^ 80 % m = 0 then lo else lo + 1
      pickSpecial 0x20 x n (withinUlp lo hi (-80 - e))

/-- RSQ: 1 / sqrt A. -/
def rsqFn (x : BitVec 32) : Nat :=
  match fp32.decode x.toNat with
  | .nan _ => fp32.nanBits
  | .inf n => if n then fp32.nanBits else 0
  | .fin n m e =>
    if m = 0 then fp32.inf n
    else if n then fp32.nanBits
    else
      let m' := if e % 2 = 0 then m else 2 * m
      let e' := if e % 2 = 0 then e else e - 1
      -- 1 / sqrt (m' * 2 ^ e') = sqrt (2 ^ 160 / m') * 2 ^ (-80 - e' / 2)
      let v := 2 ^ 160 / m'
      let lo := isqrt v
      let hi := if lo * lo * m' = 2 ^ 160 then lo else lo + 1
      pickSpecial 0x21 x false (withinUlp lo hi (-80 - e' / 2))

/-- Fixed-point factor of 2 ^ (2 ^ -k), at 128 fractional bits: repeated square roots, rounded down or up. -/
def rootStep (up : Bool) (r : Nat) : Nat :=
  let v := r * 2 ^ 128
  let s := isqrt v
  if up && decide (s * s ≠ v) then s + 1 else s

/-- 2 raised to a fraction given by its bits, highest first, at 128 fractional bits. -/
def exp2Frac (up : Bool) : List Bool → Nat → Nat → Nat
  | [], _, acc => acc
  | b :: bs, root, acc =>
    let root' := rootStep up root
    let p := acc * root'
    let acc' := if b then (if up && decide (p % 2 ^ 128 ≠ 0) then p / 2 ^ 128 + 1 else p / 2 ^ 128) else acc
    exp2Frac up bs root' acc'

/-- EX2: 2 ^ A. -/
def ex2Fn (x : BitVec 32) : Nat :=
  match fp32.decode x.toNat with
  | .nan _ => fp32.nanBits
  | .inf n => if n then 0 else fp32.infBits
  | .fin n m e =>
    let f := floorOf n m e
    if 128 ≤ f then fp32.infBits
    else if f < -160 then pickSpecial 0x22 x false [0, 1]
    else
      -- the fraction of A, exactly, as bits below the binary point
      let k : Nat := (-e).toNat
      let fr : Nat := if 0 ≤ e then 0 else (if n then (2 ^ k - m % 2 ^ k) % 2 ^ k else m % 2 ^ k)
      let bs := (List.range k).map (fun i => Nat.testBit fr (k - 1 - i))
      let lo := exp2Frac false bs (2 ^ 129) (2 ^ 128)
      let hi := exp2Frac true bs (2 ^ 129) (2 ^ 128)
      pickSpecial 0x22 x false (withinUlp lo hi (f - 128))

/-- `n` bits of the binary logarithm of a number of [1, 2) held with 192 fractional bits, by repeated squaring. -/
def log2Frac (up : Bool) : Nat → Nat → Nat → Nat
  | 0, _, acc => acc
  | n + 1, v, acc =>
    let p := v * v
    let s := if up && decide (p % 2 ^ 192 ≠ 0) then p / 2 ^ 192 + 1 else p / 2 ^ 192
    if 2 ^ 193 ≤ s then log2Frac up n (if up && decide (s % 2 = 1) then s / 2 + 1 else s / 2) (2 * acc + 1)
    else log2Frac up n s (2 * acc)

/-- LG2: the binary logarithm of A. A value below zero gives the canonical NaN, the IEEE default (R45). -/
def lg2Fn (x : BitVec 32) : Nat :=
  match fp32.decode x.toNat with
  | .nan _ => fp32.nanBits
  | .inf n => if n then fp32.nanBits else fp32.infBits
  | .fin n m e =>
    if m = 0 then fp32.inf true
    else if n then fp32.nanBits
    else
      let t := Nat.log2 m
      let whole : Int := (t : Int) + e
      let v := (m * 2 ^ 192) / 2 ^ t
      let exact := decide (m = 2 ^ t)
      let lo : Int := whole * (2 ^ 80 : Nat) + (log2Frac false 80 v 0 : Int)
      let hi : Int := if exact then lo else whole * (2 ^ 80 : Nat) + (log2Frac true 80 v 0 : Int) + 1
      if lo = 0 ∧ hi = 0 then 0
      else if 0 ≤ lo then pickSpecial 0x23 x false (withinUlp lo.toNat hi.toNat (-80))
      else pickSpecial 0x23 x true (withinUlp (-hi).toNat (-lo).toNat (-80))

end Sys2Proof.Machine
end

