-- ==== Sys2Proof/Machine/Simt.lean ====
section
/-!
DEFINITION. Machine/Simt.lean: the SIMT pipe, classes SIMTI and SIMTF (R46 to R48): one shared issue operation and
one meaning for each row.
-/
namespace Sys2Proof

/-! ### Class-specific fields (R46) -/

def TrayOp.lit? (o : TrayOp) : Bool := decide (o.fld 12 1 = 1)
def TrayOp.pdst (o : TrayOp) : Nat := o.fld 9 3
def TrayOp.cmp (o : TrayOp) : Nat := o.fld 6 3
def TrayOp.uns (o : TrayOp) : Bool := decide (o.fld 5 1 = 1)
def TrayOp.w64 (o : TrayOp) : Bool := decide (o.fld 4 1 = 1)
/-- Words of 8 B the instruction takes: two with a literal. -/
def TrayOp.words (o : TrayOp) : Nat := if o.lit? then 2 else 1

/-- Bit [5] of SIMTF: FP64. Bit [4] is reserved there. -/
def TrayOp.dbl (o : TrayOp) : Bool := o.uns
def TrayOp.fmt (o : TrayOp) : Machine.FFmt := if o.dbl then Machine.fp64 else Machine.fp32

end Sys2Proof

namespace Sys2Proof.Machine

/-- What an operation reads: none of a source, 32 bits of it, or 64. -/
inductive SrcW where
  | no | w32 | w64
deriving DecidableEq, Repr

/-- What an operation writes. -/
inductive DstW where
  | w32 | w64 | pred
deriving DecidableEq, Repr

/-- The shape of a SIMT operation: its sources, its destination, and what else its row requires. -/
structure Shape where
  a : SrcW := .no
  b : SrcW := .no
  c : SrcW := .no
  d : DstW := .w32
  ok : Bool := true

/-- The width of a form with W64 or D. -/
def srcWide (wide : Bool) : SrcW := if wide then .w64 else .w32
def dstWide (wide : Bool) : DstW := if wide then .w64 else .w32

def legalOperand (L : Launch) (w : SrcW) (code : Nat) : Bool :=
  match w with
  | .no => decide (code = codeZero)
  | .w32 => legalSrc L code
  | .w64 => legalSrc64 L code

/-- Is the encoding legal (R42, R43, R46)? With LIT the literal replaces operand B and SRC_B holds 135. -/
def simtLegal (o : TrayOp) (L : Launch) (h : Shape) : Bool :=
  h.ok && decide (o.fld 0 4 = 0) &&
    legalOperand L h.a o.srcA.toNat &&
    (if o.lit? then decide (o.srcB.toNat = codeZero) else legalOperand L h.b o.srcB.toNat) &&
    legalOperand L h.c o.srcC.toNat &&
    (match h.d with
     | .w32 => legalDst L o.dst.toNat
     | .w64 => legalDst64 L o.dst.toNat
     | .pred => decide (o.dst.toNat = codeZero) && decide (o.pdst ≠ 7) && decide (o.cmp < 6))

def regsOfSrc (w : SrcW) (code : Nat) : List Nat :=
  match w with
  | .no => []
  | .w32 => regsOf code 1
  | .w64 => regsOf code 2

/-- The registers of the instruction in the scoreboard. -/
def simtRegs (o : TrayOp) (h : Shape) : List Nat :=
  regsOfSrc h.a o.srcA.toNat ++ regsOfSrc h.b o.srcB.toNat ++ regsOfSrc h.c o.srcC.toNat ++
    (match h.d with
     | .w32 => regsOf o.dst.toNat 1
     | .w64 => regsOf o.dst.toNat 2
     | .pred => [predReg o.pdst])

/-- The value of a source in a lane. -/
def Ctx.val (x : Ctx) (w : SrcW) (code lane : Nat) : Nat :=
  match w with
  | .no => 0
  | .w32 => x.src code lane
  | .w64 => x.src64 code lane

/-- Operand B: a register, or the literal in every lane (R46). -/
def Ctx.valB (x : Ctx) (o : TrayOp) (w : SrcW) (lane : Nat) : Nat :=
  if o.lit? then (match w with
    | .w64 => o.lit.toNat
    | _ => o.lit.toNat % 2 ^ 32)
  else x.val w o.srcB.toNat lane

/-- The value of the instruction's function in each of the 32 lanes. -/
def simtVals (x : Ctx) (o : TrayOp) (h : Shape) (fn : Nat → Nat → Nat → Nat → Nat) : List Nat :=
  laneNumbers.map (fun l => fn l (x.val h.a o.srcA.toNat l) (x.valB o h.b l) (x.val h.c o.srcC.toNat l))

/-- The result in flight: one register, an even pair, or a predicate, in the lanes whose predicate is true. -/
def simtPend (x : Ctx) (o : TrayOp) (h : Shape) (vals : List Nat) : Pend :=
  let d := o.dst.toNat
  match h.d with
  | .w32 =>
    { serial := x.serial, kind := .plain, regs := [d],
      writes := [{ reg := d, lanes := x.on, vals := vals.map (BitVec.ofNat 32) }] }
  | .w64 =>
    { serial := x.serial, kind := .plain, regs := [d, d + 1],
      writes := [{ reg := d, lanes := x.on, vals := vals.map (BitVec.ofNat 32) },
                 { reg := d + 1, lanes := x.on, vals := vals.map (fun v => BitVec.ofNat 32 (v / 2 ^ 32)) }] }
  | .pred =>
    { serial := x.serial, kind := .plain, regs := [predReg o.pdst],
      preds := [{ p := o.pdst, lanes := x.on, val := Mask.ofFn (fun l => decide (vals.getD l 0 ≠ 0)) }] }

/-- Issue of a SIMT instruction: legality, scoreboard, the values, and the result in flight. -/
def simtIssue (o : TrayOp) (h : Shape) (extra : List Nat) (fn : Ctx → Nat → Nat → Nat → Nat → Nat) (s : State) : State :=
  issueTray o s (fun x =>
    x.withRegs (simtLegal o x.L h) (simtRegs o h ++ extra)
      (let vals := simtVals x o h (fn x)
       let pd := simtPend x o h vals
       let y := (x.latchMtime [o.srcA.toNat, o.srcB.toNat, o.srcC.toNat]).bumpSerial
       y.issueWith o.words (some pd)))

/-! ### Integer functions of one lane (R47) -/

/-- The operand width of a form. -/
def opW (wide : Bool) : Nat := if wide then 64 else 32

/-- An operand read as signed, or as unsigned with UNS. -/
def asInt (n : Nat) (uns : Bool) (v : Nat) : Int := if uns then (v : Int) else signedOf n v

/-- A CMP B for code 0 EQ, 1 NE, 2 LT, 3 LE, 4 GT, 5 GE (R46). -/
def cmpInt (code : Nat) (a b : Int) : Bool :=
  match code with
  | 0 => decide (a = b)
  | 1 => decide (a ≠ b)
  | 2 => decide (a < b)
  | 3 => decide (a ≤ b)
  | 4 => decide (a > b)
  | _ => decide (a ≥ b)

/-- The arithmetic right shift of an `n`-bit value. -/
def shraN (n a k : Nat) : Nat := truncTo n (signedOf n a / ((2 ^ k : Nat) : Int))

/-- The count of one bits among the low `n` bits. -/
def popcount (v : Nat) : Nat → Nat
  | 0 => 0
  | n + 1 => popcount v n + (if Nat.testBit v n then 1 else 0)

/-- The count of leading zero bits among the low `n` bits. -/
def leadingZeros (v : Nat) : Nat → Nat
  | 0 => 0
  | n + 1 => if Nat.testBit v n then 0 else 1 + leadingZeros v n

/-- A two-operand form, narrow or wide. -/
def shape2 (o : TrayOp) : Shape := { a := srcWide o.w64, b := srcWide o.w64, d := dstWide o.w64 }
/-- A two-operand form that has no wide form. -/
def shape2n (o : TrayOp) : Shape := { a := .w32, b := .w32, d := .w32, ok := !o.w64 }

/-- ADD: A + B, wrapping. -/
def addLane (n a b : Nat) : Nat := (a + b) % 2 ^ n
/-- SUB: A - B, wrapping. -/
def subLane (n a b : Nat) : Nat := (a + (2 ^ n - b % 2 ^ n)) % 2 ^ n

def doAdd (o : TrayOp) (s : State) : State :=
  simtIssue o (shape2 o) [] (fun _ _ a b _ => addLane (opW o.w64) a b) s
def doSub (o : TrayOp) (s : State) : State :=
  simtIssue o (shape2 o) [] (fun _ _ a b _ => subLane (opW o.w64) a b) s
def doMul (o : TrayOp) (s : State) : State :=
  simtIssue o (shape2n o) [] (fun _ _ a b _ => (a * b) % 2 ^ 32) s
def doMulhi (o : TrayOp) (s : State) : State :=
  simtIssue o (shape2n o) [] (fun _ _ a b _ => truncTo 64 (asInt 32 o.uns a * asInt 32 o.uns b) / 2 ^ 32) s
def doMulwide (o : TrayOp) (s : State) : State :=
  simtIssue o { shape2n o with d := .w64 } [] (fun _ _ a b _ => truncTo 64 (asInt 32 o.uns a * asInt 32 o.uns b)) s
def doAnd (o : TrayOp) (s : State) : State := simtIssue o (shape2 o) [] (fun _ _ a b _ => a &&& b) s
def doOr (o : TrayOp) (s : State) : State := simtIssue o (shape2 o) [] (fun _ _ a b _ => a ||| b) s
def doXor (o : TrayOp) (s : State) : State := simtIssue o (shape2 o) [] (fun _ _ a b _ => a ^^^ b) s
def doNot (o : TrayOp) (s : State) : State :=
  simtIssue o { a := srcWide o.w64, d := dstWide o.w64 } [] (fun _ _ a _ _ => 2 ^ opW o.w64 - 1 - a) s
def doShl (o : TrayOp) (s : State) : State :=
  simtIssue o (shape2 o) [] (fun _ _ a b _ => (a * 2 ^ (b % opW o.w64)) % 2 ^ opW o.w64) s
def doShra (o : TrayOp) (s : State) : State :=
  simtIssue o (shape2 o) [] (fun _ _ a b _ => shraN (opW o.w64) a (b % opW o.w64)) s
def doShrl (o : TrayOp) (s : State) : State :=
  simtIssue o (shape2 o) [] (fun _ _ a b _ => a / 2 ^ (b % opW o.w64)) s
def doMin (o : TrayOp) (s : State) : State :=
  simtIssue o (shape2 o) [] (fun _ _ a b _ => if asInt (opW o.w64) o.uns b < asInt (opW o.w64) o.uns a then b else a) s
def doMax (o : TrayOp) (s : State) : State :=
  simtIssue o (shape2 o) [] (fun _ _ a b _ => if asInt (opW o.w64) o.uns a < asInt (opW o.w64) o.uns b then b else a) s
def doSetp (o : TrayOp) (s : State) : State :=
  simtIssue o { shape2 o with d := .pred } []
    (fun _ _ a b _ => (cmpInt o.cmp (asInt (opW o.w64) o.uns a) (asInt (opW o.w64) o.uns b)).toNat) s
def doSel (o : TrayOp) (s : State) : State :=
  simtIssue o (shape2 o) [predReg o.pdst] (fun x l a b _ => if Mask.has (x.t.pred o.pdst) l then a else b) s
def doMov (o : TrayOp) (s : State) : State :=
  simtIssue o { b := srcWide o.w64, d := dstWide o.w64 } [] (fun _ _ _ b _ => b) s

/-- A field of `k` bits extended to `n`: by its sign, or by zeros with UNS. -/
def extLane (k n : Nat) (uns : Bool) (a : Nat) : Nat := truncTo n (asInt k uns (a % 2 ^ k))

def doExt8 (o : TrayOp) (s : State) : State :=
  simtIssue o { a := .w32, ok := !o.w64 } [] (fun _ _ a _ _ => extLane 8 32 o.uns a) s
def doExt16 (o : TrayOp) (s : State) : State :=
  simtIssue o { a := .w32, ok := !o.w64 } [] (fun _ _ a _ _ => extLane 16 32 o.uns a) s
def doExt64 (o : TrayOp) (s : State) : State :=
  simtIssue o { a := .w32, d := .w64, ok := !o.w64 } [] (fun _ _ a _ _ => extLane 32 64 o.uns a) s
def doPopc (o : TrayOp) (s : State) : State :=
  simtIssue o { a := .w32, ok := !o.w64 } [] (fun _ _ a _ _ => popcount a 32) s
def doClz (o : TrayOp) (s : State) : State :=
  simtIssue o { a := .w32, ok := !o.w64 } [] (fun _ _ a _ _ => leadingZeros a 32) s

/-! ### Floating point of one lane (R48) -/

def shapeF1 (o : TrayOp) : Shape := { a := srcWide o.dbl, d := dstWide o.dbl, ok := !o.w64 }
def shapeF2 (o : TrayOp) : Shape := { a := srcWide o.dbl, b := srcWide o.dbl, d := dstWide o.dbl, ok := !o.w64 }
def shapeF3 (o : TrayOp) : Shape :=
  { a := srcWide o.dbl, b := srcWide o.dbl, c := srcWide o.dbl, d := dstWide o.dbl, ok := !o.w64 }
/-- A special function: FP32 only. -/
def shapeSpecial (o : TrayOp) : Shape := { a := .w32, ok := !o.w64 && !o.dbl }

def doFadd (o : TrayOp) (s : State) : State := simtIssue o (shapeF2 o) [] (fun _ _ a b _ => (o.fmt.add a b).bits) s
def doFsub (o : TrayOp) (s : State) : State := simtIssue o (shapeF2 o) [] (fun _ _ a b _ => (o.fmt.sub a b).bits) s
def doFmul (o : TrayOp) (s : State) : State := simtIssue o (shapeF2 o) [] (fun _ _ a b _ => (o.fmt.mul a b).bits) s
def doFfma (o : TrayOp) (s : State) : State := simtIssue o (shapeF3 o) [] (fun _ _ a b c => (o.fmt.fma a b c).bits) s
def doFmin (o : TrayOp) (s : State) : State := simtIssue o (shapeF2 o) [] (fun _ _ a b _ => (o.fmt.min a b).bits) s
def doFmax (o : TrayOp) (s : State) : State := simtIssue o (shapeF2 o) [] (fun _ _ a b _ => (o.fmt.max a b).bits) s
def doFabs (o : TrayOp) (s : State) : State := simtIssue o (shapeF1 o) [] (fun _ _ a _ _ => (o.fmt.abs a).bits) s
def doFneg (o : TrayOp) (s : State) : State := simtIssue o (shapeF1 o) [] (fun _ _ a _ _ => (o.fmt.negate a).bits) s
def doFsetp (o : TrayOp) (s : State) : State :=
  simtIssue o { shapeF2 o with d := .pred } []
    (fun _ _ a b _ => (FV.cmp o.cmp (o.fmt.decode a) (o.fmt.decode b)).toNat) s

/-- The float format of a CVT code: 2 FP32, 3 FP64, 4 BF16, 5 FP16; none for the integers. -/
def cvtFloat : Nat → Option FFmt
  | 2 => some Machine.fp32
  | 3 => some Machine.fp64
  | 4 => some Machine.bf16
  | 5 => some Machine.fp16
  | _ => none

/-- The range of an integer CVT code: 0 int32, 1 uint32. -/
def cvtRange (code : Nat) : Int × Int := if code = 0 then (-2147483648, 2147483647) else (0, 4294967295)

/-- CVT of one lane (R48): a BF16 or FP16 value occupies bits [15:0]. -/
def cvtLane (src dst : Nat) (toZero : Bool) (a : Nat) : Nat :=
  match cvtFloat src with
  | some f =>
    let v := a % 2 ^ f.width
    match cvtFloat dst with
    | some g => (f.convert g v).bits
    | none => let (lo, hi) := cvtRange dst; truncTo 32 ((f.decode v).toIntSat toZero lo hi)
  | none =>
    let i := asInt 32 (decide (src = 1)) a
    match cvtFloat dst with
    | some g => (g.ofInt i).bits
    | none => let (lo, hi) := cvtRange dst; truncTo 32 (clampInt lo hi i)

/-- FROM of CVT: bits [11:9]; TO: bits [8:6]; TRUNC: bit [5]. -/
def shapeCvt (o : TrayOp) : Shape :=
  { a := srcWide (decide (o.pdst = 3)), d := dstWide (decide (o.cmp = 3)),
    ok := !o.w64 && decide (o.pdst < 6) && decide (o.cmp < 6) && decide (o.pdst ≠ o.cmp) }

def doCvt (o : TrayOp) (s : State) : State :=
  simtIssue o (shapeCvt o) [] (fun _ _ a _ _ => cvtLane o.pdst o.cmp o.uns a) s
def doRcp (o : TrayOp) (s : State) : State :=
  simtIssue o (shapeSpecial o) [] (fun _ _ a _ _ => rcpFn (BitVec.ofNat 32 a)) s
def doRsq (o : TrayOp) (s : State) : State :=
  simtIssue o (shapeSpecial o) [] (fun _ _ a _ _ => rsqFn (BitVec.ofNat 32 a)) s
def doEx2 (o : TrayOp) (s : State) : State :=
  simtIssue o (shapeSpecial o) [] (fun _ _ a _ _ => ex2Fn (BitVec.ofNat 32 a)) s
def doLg2 (o : TrayOp) (s : State) : State :=
  simtIssue o (shapeSpecial o) [] (fun _ _ a _ _ => lg2Fn (BitVec.ofNat 32 a)) s

/-! ### The meanings -/

def execAdd (o : TrayOp) (s : State) : Out State := .next (s.onClock (doAdd o s))
def execSub (o : TrayOp) (s : State) : Out State := .next (s.onClock (doSub o s))
def execMul (o : TrayOp) (s : State) : Out State := .next (s.onClock (doMul o s))
def execMulhi (o : TrayOp) (s : State) : Out State := .next (s.onClock (doMulhi o s))
def execMulwide (o : TrayOp) (s : State) : Out State := .next (s.onClock (doMulwide o s))
def execAnd (o : TrayOp) (s : State) : Out State := .next (s.onClock (doAnd o s))
def execOr (o : TrayOp) (s : State) : Out State := .next (s.onClock (doOr o s))
def execXor (o : TrayOp) (s : State) : Out State := .next (s.onClock (doXor o s))
def execNot (o : TrayOp) (s : State) : Out State := .next (s.onClock (doNot o s))
def execShl (o : TrayOp) (s : State) : Out State := .next (s.onClock (doShl o s))
def execShra (o : TrayOp) (s : State) : Out State := .next (s.onClock (doShra o s))
def execShrl (o : TrayOp) (s : State) : Out State := .next (s.onClock (doShrl o s))
def execMin (o : TrayOp) (s : State) : Out State := .next (s.onClock (doMin o s))
def execMax (o : TrayOp) (s : State) : Out State := .next (s.onClock (doMax o s))
def execSetp (o : TrayOp) (s : State) : Out State := .next (s.onClock (doSetp o s))
def execSel (o : TrayOp) (s : State) : Out State := .next (s.onClock (doSel o s))
def execMov (o : TrayOp) (s : State) : Out State := .next (s.onClock (doMov o s))
def execExt8 (o : TrayOp) (s : State) : Out State := .next (s.onClock (doExt8 o s))
def execExt16 (o : TrayOp) (s : State) : Out State := .next (s.onClock (doExt16 o s))
def execExt64 (o : TrayOp) (s : State) : Out State := .next (s.onClock (doExt64 o s))
def execPopc (o : TrayOp) (s : State) : Out State := .next (s.onClock (doPopc o s))
def execClz (o : TrayOp) (s : State) : Out State := .next (s.onClock (doClz o s))
def execFadd (o : TrayOp) (s : State) : Out State := .next (s.onClock (doFadd o s))
def execFsub (o : TrayOp) (s : State) : Out State := .next (s.onClock (doFsub o s))
def execFmul (o : TrayOp) (s : State) : Out State := .next (s.onClock (doFmul o s))
def execFfma (o : TrayOp) (s : State) : Out State := .next (s.onClock (doFfma o s))
def execFmin (o : TrayOp) (s : State) : Out State := .next (s.onClock (doFmin o s))
def execFmax (o : TrayOp) (s : State) : Out State := .next (s.onClock (doFmax o s))
def execFabs (o : TrayOp) (s : State) : Out State := .next (s.onClock (doFabs o s))
def execFneg (o : TrayOp) (s : State) : Out State := .next (s.onClock (doFneg o s))
def execFsetp (o : TrayOp) (s : State) : Out State := .next (s.onClock (doFsetp o s))
def execCvt (o : TrayOp) (s : State) : Out State := .next (s.onClock (doCvt o s))
def execRcp (o : TrayOp) (s : State) : Out State := .next (s.onClock (doRcp o s))
def execRsq (o : TrayOp) (s : State) : Out State := .next (s.onClock (doRsq o s))
def execEx2 (o : TrayOp) (s : State) : Out State := .next (s.onClock (doEx2 o s))
def execLg2 (o : TrayOp) (s : State) : Out State := .next (s.onClock (doLg2 o s))

end Sys2Proof.Machine
end

