-- ==== Sys2Proof/Machine/Matrix.lean ====
section
/-!
DEFINITION. Machine/Matrix.lean: the matrix array (R80 to R105): fragments, MMA and SMMA, the row-hold buffer, the
tile queue, drains, sugar cycles.
-/
namespace Sys2Proof.Machine

/-- Registers of a fragment for `ks` k-steps (R83, R87). -/
def fragRegs (fmt ks : Nat) : Nat := (ks + mxFields fmt / 2 - 1) / (mxFields fmt / 2)

/-- Does a run of registers lie inside the launch's (R87)? -/
def runLegal (L : Launch) (base n : Nat) : Bool := decide (base + n ≤ min 128 L.regs)

/-- Element (p, k) of a fragment: lane p mod 32, field 2 (k mod E/2) + p div 32 of register k div E/2 (R83). A lane
whose predicate is false supplies zero (R84). -/
def fragElem (x : Ctx) (base fmt : Nat) (isSigned : Bool) (p k : Nat) : Int :=
  let half := mxFields fmt / 2
  let lane := p % 32
  if Mask.has x.on lane then
    let v := (x.t.reg (base + k / half) lane).toNat
    mxVal fmt isSigned (bits v (mxWidth fmt * (2 * (k % half) + p / 32)) (mxWidth fmt))
  else 0

/-- Position `pos` of a row-hold row; past 71 it reads as zero (R94). -/
def rowElem (c : Core) (row fmt : Nat) (isSigned : Bool) (pos : Nat) : Int :=
  if pos ≤ 71 then mxVal fmt isSigned ((c.row row).elems.getD pos 0) else 0

/-- Is an RHLD to the row in flight on the core? -/
def rowLoading (c : Core) (row : Nat) : Bool :=
  c.trays.any (fun e => e.2.pend.any (fun p => match p.kind with
    | .row r _ _ => r == row
    | _ => false))

/-- What stands in the way of a matrix instruction (R88). -/
inductive Gate where
  | go | wait | fault (status : Nat)
deriving DecidableEq, Repr

/-- The accumulator set's part of the issue rule (R88, R90). -/
def setGate (c : Core) (slot i : Nat) (zero : Bool) : Gate :=
  let a := c.accSet i
  match a.state with
  | .free => if zero then .go else .fault stMatrixOperand
  | .openTile => if a.owner = slot ∧ a.final then .go else .wait
  | .draining => .wait

/-- The rows' part of the issue rule (R88): valid, tagged with the context, of the format, none being loaded. -/
def rowsGate (c : Core) (context fmt : Nat) (rows : List Nat) : Gate :=
  if rows.any (fun r => rowLoading c r) then .wait
  else if rows.any (fun r => (c.row r).bad) then .fault stUncorrectable
  else if rows.all (fun r => (c.row r).valid && (c.row r).tag == context && (c.row r).fmt == fmt) then .go
  else .fault stMatrixOperand

/-- A fault before a wait, a wait before going on. -/
def Gate.and (a b : Gate) : Gate :=
  match a, b with
  | .fault st, _ => .fault st
  | _, .fault st => .fault st
  | .wait, _ => .wait
  | _, .wait => .wait
  | .go, .go => .go

/-- The tile-queue entry's part of the issue rule: a committing instruction needs it FREE (R88). -/
def commitGate (c : Core) (commit : Bool) (tq : Nat) : Gate :=
  if commit && decide ((c.entry tq).state ≠ TqState.free) then .wait else .go

/-- The results of all accumulators: the new tile and the number of clamped updates. -/
def updateTile (acc : SMap Int) (cells : List (Nat × Nat)) (f : Nat → Nat → Int → Int × Nat) : SMap Int × Nat :=
  cells.foldl (fun st mn =>
    let i := 64 * mn.1 + mn.2
    let (v, n) := f mn.1 mn.2 (SMap.get acc i 0)
    (SMap.store st.1 i 0 v, st.2 + n)) (acc, 0)

/-- The pairs (m, n) of `ms` rows and `ns` columns from `n0` on. -/
def cellsOf (ms n0 ns : Nat) : List (Nat × Nat) :=
  (List.range ms).flatMap (fun m => (List.range ns).map (fun n => (m, n0 + n)))

/-- The common fields of MMA and SMMA (R86, R97). -/
def mxSet (o : TrayOp) : Nat := o.fld 12 1
def mxZero (o : TrayOp) : Bool := decide (o.fld 11 1 = 1)
def mxCommit (o : TrayOp) : Bool := decide (o.fld 10 1 = 1)
def mxFmtA (o : TrayOp) : Nat := o.fld 8 2
def mxFmtB (o : TrayOp) : Nat := o.fld 6 2
def mxSA (o : TrayOp) : Bool := decide (o.fld 5 1 = 1)
def mxSB (o : TrayOp) : Bool := decide (o.fld 4 1 = 1)
def mxNeg (o : TrayOp) : Bool := decide (o.fld 3 1 = 1)
def mxTag (o : TrayOp) : Nat := o.fld 16 6

/-- Discard a set's tile (R90). -/
def Core.freeSet (c : Core) (i : Nat) : Core := { c with sets := SMap.store c.sets i {} {} }
def Core.freeEntry (c : Core) (i : Nat) : Core := { c with tq := SMap.store c.tq i {} {} }

/-- The issue of an MMA or SMMA whose operands are present: the tile, its counts, the commit (R90, R91, R110, R114). -/
def mxIssue (x : Ctx) (o : TrayOp) (tq occ : Nat) (cells : List (Nat × Nat)) (f : Nat → Nat → Int → Int × Nat) : State :=
  let i := mxSet o
  let c := x.s.core x.core
  let a := c.accSet i
  let start := if mxZero o then [] else a.acc
  let (tile, n) := updateTile start cells f
  let sat := min ((if mxZero o then 0 else a.sat) + n) 0xFFFFFFFF
  let set : AccSet := {
    state := if mxCommit o then .draining else .openTile
    owner := x.slot, acc := tile, sat := sat, final := false, entry := tq, tag := mxTag o }
  let entry : TqEntry := { state := .filling, sheet := x.t.sheet }
  let s := x.s.mapCore x.core (fun c =>
    let c := { c with sets := SMap.store c.sets i {} set, lastMop := x.L.serial, lastMopQueue := x.L.queue, mopIdle := 0 }
    if mxCommit o then { c with tq := SMap.store c.tq tq {} entry } else c)
  let s := s.addCrumbs x.core x.L.serial { sat := n }
  let s := s.rbump Fld.CO_MX_ACTIVITY_BUSY occ x.core
  let y := { x with s := s }
  y.bumpSerial.issueWith 1 (some {
    serial := x.serial, kind := .matrix i (if mxCommit o then some tq else none) })

/-- Run a body behind the issue rule. An uncorrectable word of the array faults and frees the set (R105). -/
def mxGated (x : Ctx) (o : TrayOp) (g : Gate) (body : Ctx → State) : State :=
  match g with
  | .wait => x.s
  | .fault st => x.fault st
  | .go =>
    match o.unitEcc with
    | .clean => body x
    | .corrected => body { x with s := x.s.rbump Fld.CO_MX_ERRORS_CORRECTED 1 x.core }
    | .uncorrectable =>
      let s := x.s.rbump Fld.CO_MX_ERRORS_UNCORRECTABLE 1 x.core
      { x with s := s.mapCore x.core (fun c => c.freeSet (mxSet o)) }.fault stUncorrectable

/-- The rows a GRID instruction names (R94). -/
def gridRows (row gw ks : Nat) : List Nat := (List.range (min 8 ((ks - 1) / gw + 1))).map (fun i => (row + i) % 8)

/-- MMA (R86, R87, R94, R110). -/
def doMma (o : TrayOp) (s : State) : State :=
  issueTray o s (fun x =>
    let c := s.core x.core
    let fa := mxFmtA o
    let fb := mxFmtB o
    let w := mxStepsPerCycle fa fb
    let occ := 2 * (o.fld 0 3 + 1)
    let ks := occ * w
    let na := fragRegs fa ks
    let nb := fragRegs fb ks
    let bsrc := o.fld 22 2
    let gw := o.fld 42 4
    let row := o.fld 29 3
    let shift := o.fld 25 4
    let tq := o.fld 46 2
    let a := o.srcA.toNat
    let b := o.srcB.toNat
    let legal := decide (o.fld 40 2 = 0) && decide (bsrc ≠ 3) && runLegal x.L a na &&
      (if bsrc = 2 then decide (1 ≤ gw) && decide (gw ≤ 9) else decide (gw = 0)) &&
      (if bsrc = 0 then runLegal x.L b nb else decide (o.fld 24 1 = 0) && decide (shift ≤ 8))
    let regs := (List.range na).map (fun i => a + i) ++ (if bsrc = 0 then (List.range nb).map (fun i => b + i) else [])
    let rows := if bsrc = 0 then [] else if bsrc = 1 then [row] else gridRows row gw ks
    let gate := (setGate c x.slot (mxSet o) (mxZero o)).and
      ((commitGate c (mxCommit o) tq).and (rowsGate c x.L.context fb rows))
    x.withRegs legal regs (mxGated x o gate (fun x =>
      let elemA := fun (m k : Nat) => fragElem x a fa (mxSA o) m k
      let elemB := fun (k n : Nat) =>
        if bsrc = 0 then fragElem x b fb (mxSB o) n k
        else if bsrc = 1 then rowElem c row fb (mxSB o) (shift + n)
        else rowElem c ((row + k / gw) % 8) fb (mxSB o) (shift + k % gw + n)
      mxIssue x o tq occ (cellsOf 64 0 64) (fun m n v => mmaCell (elemA m) (fun k => elemB k n) w (mxNeg o) occ v))))

/-- SMMA (R96, R97, R111). -/
def doSmma (o : TrayOp) (s : State) : State :=
  issueTray o s (fun x =>
    let c := s.core x.core
    let fa := mxFmtA o
    let fb := mxFmtB o
    let half := mxFields fb / 2
    let nb := o.fld 0 3 + 1
    let col := o.fld 42 6
    let tq := o.fld 40 2
    let row0 := o.fld 37 3
    let nrow := o.fld 34 3 + 1
    let b := o.srcB.toNat
    let legal := decide (o.fld 32 2 = 0) && decide (o.fld 22 2 = 0) && runLegal x.L b nb &&
      decide (col + nb * half ≤ 64)
    let rows := (List.range nrow).map (fun i => (row0 + i) % 8)
    let gate := (setGate c x.slot (mxSet o) (mxZero o)).and
      ((commitGate c (mxCommit o) tq).and (rowsGate c x.L.context fa rows))
    x.withRegs legal ((List.range nb).map (fun i => b + i)) (mxGated x o gate (fun x =>
      let elemA := fun (i k : Nat) => rowElem c ((row0 + i) % 8) fa (mxSA o) k
      let elemB := fun (k n : Nat) => fragElem x b fb (mxSB o) k (n - col)
      mxIssue x o tq nb (cellsOf nrow col (nb * half)) (fun i n v =>
        let p := dotSum (elemA i) (fun k => elemB k n) 0 64
        let (r, hit) := accUpdate v (if mxNeg o then -p else p)
        (r, b2n hit)))))

/-- A byte-packed field of `w` bits: element `p` of a row of scratchpad bytes. -/
def packedField (s : State) (addr w p : Nat) : Nat := bits (s.byte (addr + p * w / 8)).toNat (p * w % 8) w

/-- An access of the sheet's scratchpad by the load path: its bound (R73, R74), the engine's hold (R150) and the code
(R185). `ecc` is what the code says of the words read. -/
def scratchGate (x : Ctx) (ecc : Ecc) (off len : Nat) (body : Ctx → Sheet → State) : State :=
  match x.sheet with
  | none => x.s
  | some h =>
    if h.size < off + len then x.fault stWindow off x.on.toNat
    else if veHolds (x.s.core x.core) x.t.sheet (off, len) then x.s
    else if ecc = .uncorrectable ∨ x.s.extentPoisoned (h.addr x.core off) len then
      { x with s := x.s.rbump Fld.CO_LS_ERRORS_UNCORRECTABLE 1 x.core }.fault stUncorrectable (h.addr x.core off)
    else
      let s := if ecc = .corrected then x.s.rbump Fld.CO_LS_ERRORS_CORRECTED 1 x.core else x.s
      body { x with s := s } h

/-- FLD: fragment registers from a scratchpad panel (R98). -/
def doFld (o : TrayOp) (s : State) : State :=
  issueTray o s (fun x =>
    let n := o.fld 10 3 + 1
    let fmt := o.fld 8 2
    let w := mxWidth fmt
    let half := mxFields fmt / 2
    let d := o.dst.toNat
    let legal := decide (o.fld 16 8 = 0) && decide (o.fld 0 8 = 0) && runLegal x.L d n &&
      legalSrc64 x.L o.srcA.toNat && legalSrc x.L o.srcB.toNat
    let regs := (List.range n).map (fun i => d + i)
    x.withRegs legal (regs ++ regsOf o.srcA.toNat 2 ++ regsOf o.srcB.toNat 1)
      (match Mask.lowest x.on with
       | none => x.issueWith 1 none
       | some l =>
         let off := x.src64 o.srcA.toNat l
         let stride := x.src o.srcB.toNat l
         if off % 4 ≠ 0 ∨ stride % 4 ≠ 0 then x.fault stMatrixOperand off x.on.toNat
         else
           let len := (n * half - 1) * stride + 64 * w / 8
           scratchGate x o.unitEcc off len (fun x h =>
             let elem := fun (p k : Nat) => packedField x.s (h.addr x.core off + k * stride) w p
             let word := fun (r lane : Nat) => (List.range (mxFields fmt)).foldl (fun acc e =>
               acc + elem (lane + 32 * (e % 2)) (half * r + e / 2) * 2 ^ (w * e)) 0
             let write := fun (r : Nat) => ({
               reg := d + r, lanes := x.on
               vals := laneNumbers.map (fun lane => BitVec.ofNat 32 (word r lane)) } : LaneWrite)
             x.bumpSerial.issueWith 1 (some {
               serial := x.serial, kind := .fragment, regs := regs, writes := (List.range n).map write }))))

/-- RHLD: 72 elements into a row (R93). -/
def doRhld (o : TrayOp) (s : State) : State :=
  issueTray o s (fun x =>
    let row := o.fld 10 3
    let fmt := o.fld 8 2
    let w := mxWidth fmt
    let legal := decide (o.dst = 0) && decide (o.srcB = 0) && decide (o.srcC = 0) && decide (o.fld 0 8 = 0) &&
      legalSrc64 x.L o.srcA.toNat
    x.withRegs legal (regsOf o.srcA.toNat 2)
      (match Mask.lowest x.on with
       | none => x.issueWith 1 none
       | some l =>
         let off := x.src64 o.srcA.toNat l
         if rowLoading (s.core x.core) row then x.s
         else if off % 2 ≠ 0 then x.fault stMatrixOperand off x.on.toNat
         else scratchGate x o.unitEcc off (72 * w / 8) (fun x h =>
           let elems := (List.range 72).map (fun p => packedField x.s (h.addr x.core off) w p)
           x.bumpSerial.issueWith 1 (some { serial := x.serial, kind := .row row fmt elems }))))

/-- RHCLR: invalidate the rows of MASK (R82). -/
def doRhclr (o : TrayOp) (s : State) : State :=
  issueTray o s (fun x =>
    let legal := decide (o.dst = 0) && decide (o.srcA = 0) && decide (o.srcB = 0) && decide (o.srcC = 0) &&
      decide (o.fld 8 5 = 0)
    x.withRegs legal []
      (if x.on = 0 then x.issueWith 1 none
       else
         let drop := fun (c : Core) => (List.range 8).foldl (fun (c : Core) r =>
           if Nat.testBit (o.fld 0 8) r then { c with rows := SMap.del c.rows r } else c) c
         { x with s := x.s.mapCore x.core drop }.issueWith 1 none))

/-- The entry's part of the issue rule for TRD and TQDROP (R88). -/
def entryGate (c : Core) (sheet i : Nat) : Gate :=
  let e := c.entry i
  match e.state with
  | .free => .fault stMatrixOperand
  | .filling => if e.sheet = sheet then .wait else .fault stMatrixOperand
  | .ready => if e.sheet = sheet then .go else .fault stMatrixOperand

/-- An uncorrectable word of an entry faults its owner and frees the entry (R105). -/
def entryEcc (x : Ctx) (o : TrayOp) (i : Nat) (body : Ctx → State) : State :=
  match o.unitEcc with
  | .clean => body x
  | .corrected => body { x with s := x.s.rbump Fld.CO_MX_ERRORS_CORRECTED 1 x.core }
  | .uncorrectable =>
    let s := x.s.rbump Fld.CO_MX_ERRORS_UNCORRECTABLE 1 x.core
    { x with s := s.mapCore x.core (fun c => c.freeEntry i) }.fault stUncorrectable

/-- TRD: part of an entry into registers (R92). -/
def doTrd (o : TrayOp) (s : State) : State :=
  issueTray o s (fun x =>
    let i := o.fld 11 2
    let n := o.fld 8 3 + 1
    let base := o.fld 1 7
    let d := o.dst.toNat
    let legal := decide (o.srcA = 0) && decide (o.srcB = 0) && decide (o.srcC = 0) && decide (o.fld 0 1 = 0) &&
      decide (base + n ≤ 128) && runLegal x.L d n
    let regs := (List.range n).map (fun j => d + j)
    x.withRegs legal regs
      (if x.on = 0 then x.issueWith 1 none
       else
         let c := s.core x.core
         match entryGate c x.t.sheet i with
         | .wait => x.s
         | .fault st => x.fault st
         | .go => entryEcc x o i (fun x =>
             let e := c.entry i
             let write := fun (j : Nat) => ({
               reg := d + j, lanes := x.on
               vals := laneNumbers.map (fun l => BitVec.ofInt 32 (SMap.get e.vals (32 * (base + j) + l) 0)) } : LaneWrite)
             x.bumpSerial.issueWith 1 (some {
               serial := x.serial, kind := .tileRead, longLatency := true, regs := regs
               writes := (List.range n).map write }))))

/-- TQDROP: release an entry (R91). -/
def doTqdrop (o : TrayOp) (s : State) : State :=
  issueTray o s (fun x =>
    let i := o.fld 11 2
    let legal := decide (o.dst = 0) && decide (o.srcA = 0) && decide (o.srcB = 0) && decide (o.srcC = 0) &&
      decide (o.fld 0 11 = 0)
    x.withRegs legal []
      (if x.on = 0 then x.issueWith 1 none
       else match entryGate (s.core x.core) x.t.sheet i with
         | .wait => x.s
         | .fault st => x.fault st
         | .go => { x with s := x.s.mapCore x.core (fun c => c.freeEntry i) }.issueWith 1 none))

/-- ACLR: discard the tray's open tile; on a set it does not own it has no effect (R90). -/
def doAclr (o : TrayOp) (s : State) : State :=
  issueTray o s (fun x =>
    let i := o.fld 12 1
    let legal := decide (o.dst = 0) && decide (o.srcA = 0) && decide (o.srcB = 0) && decide (o.srcC = 0) &&
      decide (o.fld 0 12 = 0)
    x.withRegs legal []
      (let a := (s.core x.core).accSet i
       if x.on = 0 then x.issueWith 1 none
       else match a.state with
         | .draining => x.s
         | .free => x.issueWith 1 none
         | .openTile =>
           if a.owner = x.slot then { x with s := x.s.mapCore x.core (fun c => c.freeSet i) }.issueWith 1 none
           else x.issueWith 1 none))

/-- Take the matrix instruction that committed a set out of its tray's scoreboard. -/
def Tray.dropCommit (t : Tray) (set : Nat) : Tray :=
  { t with pend := t.pend.filter (fun p => match p.kind with
      | .matrix i (some _) => i != set
      | _ => true) }

/-- The drain of a set ends: its entry is READY with the tile, its TAG and its count, and the set is FREE (R90, R91,
R114). An entry whose sheet has left becomes FREE instead (R102). -/
def doDrainEnd (core set : Nat) (s : State) : State :=
  let c := s.core core
  let a := c.accSet set
  if a.state = .draining ∧ a.final then
    let e := c.entry a.entry
    let s := s.mapCore core (fun c =>
      let full : TqEntry := { state := .ready, sheet := e.sheet, vals := a.acc, tag := a.tag, sat := a.sat }
      let c := if (c.sheet? e.sheet).isSome then { c with tq := SMap.put c.tq a.entry full } else c.freeEntry a.entry
      c.freeSet set)
    s.mapTray core a.owner (fun t => t.dropCommit set)
  else s

/-- The effective tail of R100. -/
def sugarTail (s : State) (core : Nat) : Nat :=
  let cap := match s.launch (s.core core).lastMop with
    | some L => L.sugar
    | none => 0
  min (s.rget Fld.CO_MX_SUGAR_CTRL_TAIL core) cap

/-- One array cycle without an MMA or SMMA (R100): a sugar cycle, counted, if a set is OPEN or DRAINING and the array
has been unoccupied for no more than the effective tail. -/
def doSugarCycle (core : Nat) (s : State) : State :=
  let c := s.core core
  let busy := (c.accSet 0).state != .free || (c.accSet 1).state != .free
  if busy && decide (c.mopIdle < sugarTail s core) && coresRun s then
    let s := s.mapCore core (fun c => { c with mopIdle := c.mopIdle + 1 })
    let s := s.rbump Fld.CO_MX_ACTIVITY_SUGAR 1 core
    -- charged to the queue of the launch that last issued an MMA or SMMA here (R101)
    let k := 4 * c.lastMopQueue + regionOf core
    { s with sugar := SMap.put s.sugar k (SMap.get s.sugar k 0 + 1) }
  else s.mapCore core (fun c => { c with mopIdle := c.mopIdle + 1 })

def execMma (o : TrayOp) (s : State) : Out State := .next (s.onClock (doMma o s))
def execSmma (o : TrayOp) (s : State) : Out State := .next (s.onClock (doSmma o s))
def execFld (o : TrayOp) (s : State) : Out State := .next (s.onClock (doFld o s))
def execRhld (o : TrayOp) (s : State) : Out State := .next (s.onClock (doRhld o s))
def execRhclr (o : TrayOp) (s : State) : Out State := .next (s.onClock (doRhclr o s))
def execTrd (o : TrayOp) (s : State) : Out State := .next (s.onClock (doTrd o s))
def execTqdrop (o : TrayOp) (s : State) : Out State := .next (s.onClock (doTqdrop o s))
def execAclr (o : TrayOp) (s : State) : Out State := .next (s.onClock (doAclr o s))
def execAccumulatorDrainEnd (core : Fin 192) (set : Fin 2) (s : State) : Out State := .next (s.onClock (doDrainEnd core set s))
def execSugarCycle (core : Fin 192) (s : State) : Out State := .next (s.onClock (doSugarCycle core s))

end Sys2Proof.Machine
end

