-- ==== Sys2Proof/Machine/Mem.lean ====
section
/-!
DEFINITION. Machine/Mem.lean: the issue of the MEM class (R50, R72 to R74, R182, R188 to R190, R237, R243, R244): LD,
LDS, ST, SLD, SLDS, SST and LDRES, and what a lane's STC meets. STC, and what an access does when its data comes or its store
is accepted, are in Machine/LoadStore.lean.
-/
namespace Sys2Proof

/-! ### Fields of a window instruction (R72, R237) -/

def TrayOp.win (o : TrayOp) : Nat := o.fld 7 6
def TrayOp.sizeCode (o : TrayOp) : Nat := o.fld 4 3
def TrayOp.bytes (o : TrayOp) : Nat := 2 ^ o.sizeCode
def TrayOp.sem (o : TrayOp) : Nat := o.fld 0 2
def TrayOp.scope (o : TrayOp) : Nat := o.fld 2 2
def TrayOp.acq (o : TrayOp) : Bool := decide (o.sem = 1) || decide (o.sem = 3)
def TrayOp.rel (o : TrayOp) : Bool := decide (o.sem = 2) || decide (o.sem = 3)

end Sys2Proof

namespace Sys2Proof.Machine

/-- Registers that an access of `n` bytes uses: one up to 4 B, an even pair for 8 B, four from a multiple of 4 for
16 B (R50). -/
def regCount (n : Nat) : Nat := if n ≤ 4 then 1 else n / 4

def legalRegs (L : Launch) (code k : Nat) : Bool := decide (code % k = 0) && decide (code + k ≤ L.regs)

/-- The value of `k` registers from a code on, in one lane. -/
def Ctx.regsVal (x : Ctx) (code k lane : Nat) : Nat :=
  (List.range k).foldl (fun acc i => acc + (x.t.reg (code + i) lane).toNat * 2 ^ (32 * i)) 0

/-- The orders an instruction may carry (R237): acquire, release, both. -/
def semLegal (o : TrayOp) (acq rel both : Bool) : Bool :=
  match o.sem with
  | 0 => true
  | 1 => acq
  | 2 => rel
  | _ => both

/-! ### Order among a tray's accesses (R235, R236, R238) -/

def MemOp.laneMask (op : MemOp) : Mask := Mask.ofFn (fun l => op.lanes.any (fun a => a.lane == l))

def MemOp.isStore (op : MemOp) : Bool :=
  match op.kind with
  | .store => true
  | _ => false

def MemOp.extents (op : MemOp) : List (Nat × Nat) := op.lanes.map (fun a => (a.addr, op.size))

/-- Do two accesses touch a common byte? -/
def MemOp.meets (a b : MemOp) : Bool := a.extents.any (fun x => b.extents.any (fun y => overlaps x y))

/-- Accesses of the core that a tray's lanes have issued and that have not ended. -/
def trayOps (c : Core) (slot : Nat) : List MemOp := c.ops.filter (fun p => p.slot == slot)

/-- Every earlier access of the lanes that an acquire orders before a later one has been performed (R236, R238). An
acquire of tray scope is performed when it issues. -/
def acquiresDone (earlier : List MemOp) (lanes : Mask) : Bool :=
  earlier.all (fun p => !(p.acquire && decide (1 ≤ p.scope) && decide (p.laneMask &&& lanes ≠ 0)))

/-- Every earlier access of the lanes has been performed at a scope (R238): at tray scope on issue; at sheet scope a
store counts once it is in the store queue; at system scope the tray's remote operations count too. -/
def releaseDone (earlier : List MemOp) (t : Option Tray) (lanes : Mask) (scope : Nat) : Bool :=
  decide (scope = 0) ||
    (earlier.all (fun p => decide (p.laneMask &&& lanes = 0) || (p.isStore && decide (scope = 1))) &&
      (decide (scope < 3) || (match t with
        | some t => decide (t.remotes = 0)
        | none => true)))

/-- Every earlier access of the whole tray has been performed at a scope: what a fence waits for (R239). -/
def fenceDone (c : Core) (slot scope : Nat) (loadsOnly : Bool) : Bool :=
  decide (scope = 0) ||
    ((trayOps c slot).all (fun p => p.isStore && (loadsOnly || decide (scope = 1))) &&
      (decide (scope < 3) || (match c.tray slot with
        | some t => decide (t.remotes = 0)
        | none => true)))

/-! ### Stores as pieces -/

/-- A piece of a store: address, bytes, value. A 16 B access is two accesses of 8 B (R235). -/
abbrev Piece := Nat × Nat × Nat

def piecesOf (size : Nat) (a : LaneAcc) : List Piece :=
  if size = 16 then [(a.addr, 8, a.data % 2 ^ 64), (a.addr + 8, 8, a.data / 2 ^ 64)] else [(a.addr, size, a.data)]

/-- Are the pieces pairwise disjoint? -/
def piecesApart : List Piece → Bool
  | [] => true
  | p :: ps => ps.all (fun q => !(overlaps (p.1, p.2.1) (q.1, q.2.1))) && piecesApart ps

def insertPiece (k : Nat) (p : Piece) : List (Nat × Piece) → List (Nat × Piece)
  | [] => [(k, p)]
  | (j, q) :: rest => if k < j then (k, p) :: (j, q) :: rest else (j, q) :: insertPiece k p rest

/-- The pieces in the order in which they are written. Pieces that overlap are unordered writes (R235): the order among
them is a free value. -/
def orderPieces (serial : Nat) (ps : List Piece) : List Piece :=
  if piecesApart ps then ps
  else
    let keyed := ps.foldl (fun (acc : List (Nat × Piece) × Nat) p =>
      (insertPiece (Config.storeOrder serial acc.2) p acc.1, acc.2 + 1)) ([], 0)
    keyed.1.map (fun e => e.2)

/-- The pieces of a store in flight. -/
def MemOp.pieces (op : MemOp) : List Piece := orderPieces op.serial (op.lanes.flatMap (piecesOf op.size))

/-- Does a list of pieces cover a whole 32 B code word? -/
def coversWord (ps : List Piece) (w : Nat) : Bool :=
  (List.range 32).all (fun i => ps.any (fun p => decide (p.1 ≤ 32 * w + i) && decide (32 * w + i < p.1 + p.2.1)))

/-- Write pieces to memory: a code word they cover whole loses its poison (R208). -/
def State.writePieces (s : State) (ps : List Piece) : State :=
  let s := ps.foldl (fun s p => s.putLE p.1 p.2.1 p.2.2) s
  let words := (ps.flatMap (fun p => [p.1 / 32, (p.1 + p.2.1 - 1) / 32])).eraseDups
  words.foldl (fun s w => if coversWord ps w then s.setPoison w false else s) s

/-- Conflicting writes of one tray against the reservations of the other trays of its core (R244). -/
def loseOnCore (s : State) (core slot l : Nat) : State :=
  s.mapCore core (fun c => { c with trays := c.trays.map (fun e =>
    if e.1 = slot then e
    else (e.1, { e.2 with resv := e.2.resv.map (fun r => if r.line = l then { r with conflict := true, held := false } else r) })) })

/-! ### Issue -/

/-- The watchpoints of a core that match extents and a kind: 0 read, 1 write, 2 atomic (R435). -/
def watchHits (s : State) (core kind : Nat) (exts : List (Nat × Nat)) : Nat :=
  (List.range 4).foldl (fun m i =>
    let on := s.flag Fld.DB_WATCH_ENABLE core i &&
      (if kind = 0 then s.flag Fld.DB_WATCH_R core i
       else if kind = 1 then s.flag Fld.DB_WATCH_W core i else s.flag Fld.DB_WATCH_A core i)
    let ext := (s.rget Fld.DB_WATCH_BASE core i, 2 ^ s.rget Fld.DB_WATCH_SIZE core i)
    if on && exts.any (fun x => overlaps x ext) then m + 2 ^ i else m) 0

/-- Record a watchpoint's hit (R435). -/
def recordWatch (s : State) (core slot mask : Nat) : State :=
  if mask = 0 then s
  else
    let s := s.rput Fld.DB_DEBUG_STATUS_WATCH_HIT (s.rget Fld.DB_DEBUG_STATUS_WATCH_HIT core ||| mask) core
    s.rput Fld.DB_DEBUG_STATUS_LAST_SLOT slot core

/-- A memory access of the path lies behind its reserved load (R244). -/
def Ctx.touch (x : Ctx) : Ctx :=
  { x with t := { x.t with
      disturbed := x.t.disturbed + 1
      resv := x.t.resv.map (fun r => if r.path = x.p.id then { r with spurious := true } else r) } }

/-- The lanes that execute, each with its offset. -/
def Ctx.offsets (x : Ctx) (code : Nat) : List (Nat × Nat) := (Mask.lanes x.on).map (fun l => (l, x.regsVal code 2 l))

/-- The check of R73 on a list of lanes and offsets: none when it holds, else the failing lanes and the first failing
offset. -/
def windowFails (w : Option Window) (perm : Window → Bool) (size : Nat) (offs : List (Nat × Nat)) : Option (Mask × Nat) :=
  let bad := offs.filter (fun e => match w with
    | some w => !(perm w) || decide (w.bound < e.2 + size)
    | none => true)
  match bad with
  | [] => none
  | b :: _ => some (Mask.ofFn (fun l => bad.any (fun e => e.1 == l)), b.2)

def winR (w : Window) : Bool := w.r
def winW (w : Window) : Bool := w.w
def winA (w : Window) : Bool := w.a

/-- An instruction that reaches memory through a window: legality, the scoreboard, and the check of R73. With no lane
it only advances. -/
def windowAccess (o : TrayOp) (s : State) (perm : Window → Bool) (legal : Launch → Bool) (regs : List Nat)
    (body : Ctx → Window → List (Nat × Nat) → State) : State :=
  issueTray o s (fun x =>
    x.withRegs (decide (o.sizeCode < 5) && legalRegs x.L o.srcA.toNat 2 && legal x.L) (regsOf o.srcA.toNat 2 ++ regs)
      (if x.on = 0 then x.issueWith 1 none
       else
         let offs := x.offsets o.srcA.toNat
         match x.L.windows[o.win]? with
         | none => x.fault stWindow (offs.headD (0, 0)).2 x.on.toNat o.win
         | some w =>
           match windowFails (some w) perm o.bytes offs with
           | some (lanes, first) => x.fault stWindow first lanes.toNat o.win
           | none => body x w offs))

/-- The access as the load/store unit holds it. -/
def memOpOf (o : TrayOp) (x : Ctx) (w : Window) (kind : MemKind) (dst : Nat) (lanes : List LaneAcc) (watch : Nat) : MemOp :=
  { serial := x.serial, slot := x.slot, path := x.p.id, kind := kind, dst := dst, size := o.bytes
    acquire := o.acq, release := o.rel, scope := o.scope, policy := w.policy, near := w.near, window := o.win
    host := lanes.any (fun a => isHost a.addr), lanes := lanes, base := x.t.issueCount + 1
    disturbed := x.t.disturbed, watch := watch, pc := x.p.pc + 1 }

/-- Hand an access to the load/store unit and move on; a matching watchpoint halts the tray at the next boundary. -/
def Ctx.queueOp (x : Ctx) (op : MemOp) (pd : Option Pend) : State :=
  let x := x.bumpSerial
  let x := { x with s := x.s.mapCore x.core (fun c => { c with ops := c.ops ++ [op] }) }
  let s := x.issueWith 1 pd
  if op.watch = 0 then s else s.haltTray x.core x.slot

/-- LD, LDS and LDRES: a load whose data comes later. -/
def doLoad (o : TrayOp) (s : State) (kind : MemKind) (sizes : List Nat) (reserved : Bool) : State :=
  let k := regCount o.bytes
  windowAccess o s winR
    (fun L => decide (o.srcB.toNat = codeZero) && decide (o.srcC.toNat = codeZero) && sizes.contains o.sizeCode &&
      legalRegs L o.dst.toNat k && semLegal o true false false)
    (regsOf o.dst.toNat k)
    (fun x w offs =>
      let lanes := offs.map (fun e => ({ lane := e.1, addr := w.base + e.2 } : LaneAcc))
      let apart := lanes.any (fun a => isHost a.addr || isSram a.addr)
      if reserved && apart then x.fault stWindow (offs.headD (0, 0)).2 x.on.toNat o.win
      else if reserved && w.near then x.fault stTrayArgument (offs.headD (0, 0)).2 x.on.toNat o.win
      else
        let x := x.touch
        let exts := lanes.map (fun a => (a.addr, o.bytes))
        let op := memOpOf o x w kind o.dst.toNat lanes (watchHits x.s x.core 0 exts)
        x.queueOp op (some {
          serial := x.serial, kind := .external x.serial, longLatency := true, regs := regsOf o.dst.toNat k }))

/-- ST: a store through a window. -/
def doStore (o : TrayOp) (s : State) : State :=
  let k := regCount o.bytes
  windowAccess o s winW
    (fun L => decide (o.srcB.toNat = codeZero) && decide (o.dst.toNat = codeZero) && legalRegs L o.srcC.toNat k &&
      semLegal o false true false)
    (regsOf o.srcC.toNat k)
    (fun x w offs =>
      let lanes := offs.map (fun e => ({
        lane := e.1, addr := w.base + e.2, data := x.regsVal o.srcC.toNat k e.1 % 2 ^ (8 * o.bytes) } : LaneAcc))
      let x := x.touch
      let exts := lanes.map (fun a => (a.addr, o.bytes))
      x.queueOp (memOpOf o x w .store codeZero lanes (watchHits x.s x.core 1 exts)) none)

/-- What a lane's store-conditional meets (R71, R232, R244). -/
inductive StcEnd where
  | ok | conflict | spurious
deriving DecidableEq, Repr

/-- The outcome for one lane, given the lines that lower lanes of the instruction have won. -/
def stcLane (x : Ctx) (near : Bool) (won : List Nat) (a : LaneAcc) : StcEnd :=
  let l := lineOf a.addr
  match x.t.resv.find? (fun r => r.lane == a.lane) with
  | none => .spurious
  | some r =>
    if near || r.line != l then .spurious
    else if r.conflict then .conflict
    else if r.spurious || r.path != x.p.id || decide (16 < x.t.issueCount - r.base) then .spurious
    else if won.contains l then .conflict
    else
      match SMap.find? (x.s.line l).l1 x.core with
      | some .m => .ok
      | some .e => .ok
      -- DEDUCED, log entry 81: a core without an L1 keeps the reservation at the home, until a conflicting write
      | _ => if (x.s.core x.core).l1KiB = 0 then .ok else .conflict

/-- The outcomes of all lanes, in ascending order. -/
def stcLanes (x : Ctx) (near : Bool) : List LaneAcc → List Nat → List (LaneAcc × StcEnd)
  | [], _ => []
  | a :: rest, won =>
    let r := stcLane x near won a
    (a, r) :: stcLanes x near rest (if r = .ok then lineOf a.addr :: won else won)

/-- The tray after a verdict in its lanes (R62, R63): where every lane that executed failed, the turn ends; where some
did, the failing lanes leave the running path. -/
def verdict (s : State) (core slot : Nat) (t : Tray) (path pc : Nat) (ok failing : Mask) (cause : Fld) : State :=
  let t := if ok ≠ 0 ∧ failing ≠ 0 then t.leaveFailing failing pc else t
  let t := t.settle
  let s := s.setTray core slot t
  if ok = 0 ∧ failing ≠ 0 then countedTurn s core slot cause path else s

/-! ### Scratchpad accesses (R74, R150, R182, R185) -/

/-- A scratchpad access: the check of R73 against the sheet's allocation, the vector engine's hold, the order that
earlier acquires and the access's own release put on it, and the code's outcome. -/
def scratchAccess (o : TrayOp) (s : State) (legal : Launch → Bool) (regs : List Nat)
    (body : Ctx → Sheet → List (Nat × Nat) → State) : State :=
  issueTray o s (fun x =>
    x.withRegs (decide (o.sizeCode < 5) && legalRegs x.L o.srcA.toNat 2 && legal x.L) (regsOf o.srcA.toNat 2 ++ regs)
      (if x.on = 0 then x.issueWith 1 none
       else match x.sheet with
       | none => x.s
       | some h =>
         let offs := x.offsets o.srcA.toNat
         let ops := trayOps (x.s.core x.core) x.slot
         let bad := offs.filter (fun e => decide (h.size < e.2 + o.bytes))
         match bad with
         | b :: _ => x.fault stWindow b.2 (Mask.ofFn (fun l => bad.any (fun e => e.1 == l))).toNat
         | [] =>
           if offs.any (fun e => veHolds (x.s.core x.core) x.t.sheet (e.2, o.bytes)) then x.s
           else if !(acquiresDone ops x.on) || (o.rel && !(releaseDone ops (some x.t) x.on o.scope)) then x.s
           else
             let first := h.addr x.core (offs.headD (0, 0)).2
             match o.unitEcc with
             | .uncorrectable =>
               { x with s := x.s.rbump Fld.CO_LS_ERRORS_UNCORRECTABLE 1 x.core }.fault stUncorrectable first x.on.toNat
             | .corrected => body { x with s := x.s.rbump Fld.CO_LS_ERRORS_CORRECTED 1 x.core } h offs
             | .clean => body x h offs))

/-- A load's value in a register: 1 and 2 B extended to 32 bits. -/
def extendLoad (isSigned : Bool) (n v : Nat) : Nat := if isSigned then truncTo 32 (signedOf (8 * n) v) else v

/-- The register writes of loaded lanes: register i of lane l receives bits [32i+31:32i] of its value. -/
def loadWrites (dst size : Nat) (isSigned : Bool) (vals : List (Nat × Nat)) : List LaneWrite :=
  let lanes := Mask.ofFn (fun l => vals.any (fun e => e.1 == l))
  (List.range (regCount size)).map (fun i => {
    reg := dst + i, lanes := lanes
    vals := laneNumbers.map (fun l => match vals.find? (fun e => e.1 == l) with
      | some e => BitVec.ofNat 32 (extendLoad isSigned size e.2 >>> (32 * i))
      | none => 0) })

/-- SLD and SLDS. -/
def doSld (o : TrayOp) (s : State) (isSigned : Bool) (sizes : List Nat) : State :=
  let k := regCount o.bytes
  scratchAccess o s
    (fun L => decide (o.srcB.toNat = codeZero) && decide (o.srcC.toNat = codeZero) && sizes.contains o.sizeCode &&
      legalRegs L o.dst.toNat k && semLegal o true false false)
    (regsOf o.dst.toNat k)
    (fun x h offs =>
      let x := x.touch
      let bad := offs.filter (fun e => x.s.extentPoisoned (h.addr x.core e.2) o.bytes)
      match bad with
      | b :: _ =>
        { x with s := x.s.rbump Fld.CO_LS_ERRORS_UNCORRECTABLE 1 x.core }.fault stUncorrectable (h.addr x.core b.2)
          (Mask.ofFn (fun l => bad.any (fun e => e.1 == l))).toNat
      | [] =>
        let vals := offs.map (fun e => (e.1, x.s.readLE (h.addr x.core e.2) o.bytes))
        let watch := watchHits x.s x.core 0 (offs.map (fun e => (h.addr x.core e.2, o.bytes)))
        let s := x.bumpSerial.issueWith 1 (some {
          serial := x.serial, kind := .plain, regs := regsOf o.dst.toNat k
          writes := loadWrites o.dst.toNat o.bytes isSigned vals })
        if watch = 0 then s else (recordWatch s x.core x.slot watch).haltTray x.core x.slot)

/-- SST. -/
def doSst (o : TrayOp) (s : State) : State :=
  let k := regCount o.bytes
  scratchAccess o s
    (fun L => decide (o.srcB.toNat = codeZero) && decide (o.dst.toNat = codeZero) && legalRegs L o.srcC.toNat k &&
      semLegal o false true false)
    (regsOf o.srcC.toNat k)
    (fun x h offs =>
      let x := x.touch.bumpSerial
      let acc := fun (e : Nat × Nat) => ({
        lane := e.1, addr := h.addr x.core e.2, data := x.regsVal o.srcC.toNat k e.1 % 2 ^ (8 * o.bytes) } : LaneAcc)
      let ps := orderPieces x.serial ((offs.map acc).flatMap (piecesOf o.bytes))
      let watch := watchHits x.s x.core 1 (offs.map (fun e => (h.addr x.core e.2, o.bytes)))
      let s := { x with s := x.s.writePieces ps }.issueWith 1 none
      if watch = 0 then s else (recordWatch s x.core x.slot watch).haltTray x.core x.slot)

def execSld (o : TrayOp) (s : State) : Out State := .next (s.onClock (doSld o s false [0, 1, 2, 3, 4]))
def execSlds (o : TrayOp) (s : State) : Out State := .next (s.onClock (doSld o s true [0, 1]))
def execSst (o : TrayOp) (s : State) : Out State := .next (s.onClock (doSst o s))
def execLdres (o : TrayOp) (s : State) : Out State := .next (s.onClock (doLoad o s .reserved [2, 3] true))

end Sys2Proof.Machine
end

