-- ==== Sys2Proof/Machine/Atom.lean ====
section
/-!
DEFINITION. Machine/Atom.lean: the issue of the ATOM class (R50, R65, R67 to R70): one shared operation and one meaning
for each row, and the effect of an atomic on its word.
-/
namespace Sys2Proof.Machine

/-- The word that one lane's operation leaves (R65, R69, R70). -/
def atomApply (op : AtomOp) (w old a b : Nat) : Nat :=
  match op with
  | .add => (old + a) % 2 ^ w
  | .smin => if signedOf w a < signedOf w old then a else old
  | .smax => if signedOf w old < signedOf w a then a else old
  | .umin => min old a
  | .umax => max old a
  | .and => old &&& a
  | .or => old ||| a
  | .xor => old ^^^ a
  | .fadd => (fp32.add old a).bits
  | .swap => a
  | .cas => if old = a then b else old
  | .lockTry => if old = 0 then a else old

/-- The word that an atomic of the host port or of a packet leaves: it carries an operand, and CAS a compare value beside it, the
operand then being the new value (R322, R323, R347). -/
def messageAtomic (op : AtomOp) (w old operand compare : Nat) : Nat :=
  if op = .cas then atomApply op w old (compare % 2 ^ w) (operand % 2 ^ w)
  else atomApply op w old (operand % 2 ^ w) 0

/-- The lanes of one request, one after another: the word they leave and what each lane received (R69, R70). -/
def atomLanes (op : AtomOp) (w : Nat) : Nat → List LaneAcc → Nat × List (Nat × Nat)
  | old, [] => (old, [])
  | old, a :: rest =>
    let r := atomLanes op w (atomApply op w old a.data a.data2) rest
    (r.1, (a.lane, old) :: r.2)

/-- The shared issue of the ATOM class. -/
def doAtom (o : TrayOp) (s : State) (op : AtomOp) (fetch : Bool) : State :=
  let k := regCount o.bytes
  let wide := decide (k = 2)
  let pd := o.dst.toNat
  let src := fun (L : Launch) (code : Nat) => if wide then legalSrc64 L code else legalSrc L code
  let lock := decide (op = .lockTry)
  let dst := if lock then [predReg pd] else if fetch then regsOf pd k else []
  windowAccess o s winA
    (fun L =>
      (decide (o.sizeCode = 2) || (decide (o.sizeCode = 3) && decide (op ≠ .fadd))) &&
        src L o.srcB.toNat &&
        (if op = .cas then src L o.srcC.toNat else decide (o.srcC.toNat = codeZero)) &&
        (if lock then decide (pd < 7) else if fetch then legalRegs L pd k else decide (pd = codeZero)) &&
        (if lock then semLegal o true false false else semLegal o true true true))
    (dst ++ regsOf o.srcB.toNat k ++ (if op = .cas then regsOf o.srcC.toNat k else []))
    (fun x w offs =>
      let acc := fun (e : Nat × Nat) => ({
        lane := e.1, addr := w.base + e.2, data := x.srcW wide o.srcB.toNat e.1
        data2 := if op = .cas then x.srcW wide o.srcC.toNat e.1 else 0 } : LaneAcc)
      let lanes := offs.map acc
      let bad := lanes.filter (fun a => decide (a.addr % o.bytes ≠ 0))
      if lanes.any (fun a => isHost a.addr || isSram a.addr) then x.fault stWindow (offs.headD (0, 0)).2 x.on.toNat o.win
      else match bad with
      | b :: _ => x.fault stMisaligned b.addr (Mask.ofFn (fun l => bad.any (fun a => a.lane == l))).toNat o.win
      | [] =>
        let x := x.latchMtime [o.srcB.toNat, o.srcC.toNat]
        let x := x.touch
        let x := if decide (o.sem = 3) && decide (o.scope = 2) then
            { x with s := x.s.rbump Fld.CO_FENCE_STATS_DEVICE 1 x.core } else x
        let exts := lanes.map (fun a => (a.addr, o.bytes))
        let mop := memOpOf o x w (.atomic op fetch) pd lanes (watchHits x.s x.core 2 exts)
        let pend : Option Pend :=
          if dst.isEmpty then none
          else some { serial := x.serial, kind := .external x.serial, longLatency := true, regs := dst }
        if lock then
          -- the path keeps its turn until the result is there: its lanes may part on it (R62, R63)
          let y := x.noteIssue.bumpSerial
          let s := y.s.mapCore x.core (fun c => { c with ops := c.ops ++ [mop] })
          let t := { y.t with pend := y.t.pend ++ pend.toList }
          let t := t.mapPath x.p.id (fun p => { p with
            pc := x.p.pc + 1, issued := p.issued + 1, wait := some { kind := .result x.serial, started := x.s.now } })
          let s := s.setTray x.core x.slot t
          if mop.watch = 0 then s else s.haltTray x.core x.slot
        else x.queueOp mop pend)

def execAtomAdd (o : TrayOp) (s : State) : Out State := .next (s.onClock (doAtom o s .add false))
def execAtomFetchadd (o : TrayOp) (s : State) : Out State := .next (s.onClock (doAtom o s .add true))
def execAtomSmin (o : TrayOp) (s : State) : Out State := .next (s.onClock (doAtom o s .smin false))
def execAtomSminFetch (o : TrayOp) (s : State) : Out State := .next (s.onClock (doAtom o s .smin true))
def execAtomSmax (o : TrayOp) (s : State) : Out State := .next (s.onClock (doAtom o s .smax false))
def execAtomSmaxFetch (o : TrayOp) (s : State) : Out State := .next (s.onClock (doAtom o s .smax true))
def execAtomUmin (o : TrayOp) (s : State) : Out State := .next (s.onClock (doAtom o s .umin false))
def execAtomUminFetch (o : TrayOp) (s : State) : Out State := .next (s.onClock (doAtom o s .umin true))
def execAtomUmax (o : TrayOp) (s : State) : Out State := .next (s.onClock (doAtom o s .umax false))
def execAtomUmaxFetch (o : TrayOp) (s : State) : Out State := .next (s.onClock (doAtom o s .umax true))
def execAtomAnd (o : TrayOp) (s : State) : Out State := .next (s.onClock (doAtom o s .and false))
def execAtomAndFetch (o : TrayOp) (s : State) : Out State := .next (s.onClock (doAtom o s .and true))
def execAtomOr (o : TrayOp) (s : State) : Out State := .next (s.onClock (doAtom o s .or false))
def execAtomOrFetch (o : TrayOp) (s : State) : Out State := .next (s.onClock (doAtom o s .or true))
def execAtomXor (o : TrayOp) (s : State) : Out State := .next (s.onClock (doAtom o s .xor false))
def execAtomXorFetch (o : TrayOp) (s : State) : Out State := .next (s.onClock (doAtom o s .xor true))
def execAtomFadd (o : TrayOp) (s : State) : Out State := .next (s.onClock (doAtom o s .fadd false))
def execFetchfadd (o : TrayOp) (s : State) : Out State := .next (s.onClock (doAtom o s .fadd true))
def execAtomSwap (o : TrayOp) (s : State) : Out State := .next (s.onClock (doAtom o s .swap true))
def execAtomCas (o : TrayOp) (s : State) : Out State := .next (s.onClock (doAtom o s .cas true))
def execLocktry (o : TrayOp) (s : State) : Out State := .next (s.onClock (doAtom o s .lockTry true))

end Sys2Proof.Machine
end

