-- ==== Sys2Proof/Machine/Events.lean ====
section
/-!
DEFINITION. Machine/Events.lean: what ends a wait (R64, R248, R250, R252, R253, R255): counters, barriers and event words,
and the signal of an event word (R304).
-/
namespace Sys2Proof.Machine

/-! ### The end of a wait -/

/-- The stepped instruction of a tray has completed: the tray halts again and STEP_DONE is set (R77). -/
def stepDone (s : State) (core slot : Nat) : State :=
  (s.haltTray core slot).rput Fld.DB_TRAY_STATUS_STEP_DONE 1 core

/-- A wait of a path ends, with success or by its timeout: a SOFT wait writes PDST in every lane (R248). A stepped tray
halts without issuing further (R77). -/
def endWait (s : State) (core slot path : Nat) (ok : Bool) : State :=
  match s.tray core slot with
  | none => s
  | some t =>
    match t.paths.find? (fun p => p.id == path) with
    | none => s
    | some p =>
      match p.wait with
      | none => s
      | some w =>
        let all : Mask := BitVec.allOnes 32
        let t := if w.soft then t.setPred w.pdst all (if ok then all else 0) else t
        let s := s.setTray core slot (t.wake path)
        if t.stepping && t.stepIssued && t.stepPath == path then stepDone s core slot else s

/-- Every waiting path of the resident trays: core, slot, path and wait. -/
def waiters (s : State) : List (Nat × Nat × Nat × Wait) :=
  s.cores.flatMap (fun c => c.2.trays.flatMap (fun t => t.2.paths.filterMap (fun p =>
    p.wait.map (fun w => (c.1, t.1, p.id, w)))))

/-- The end of the waits that a test picks, each with success. -/
def endWaits (s : State) (pick : Nat → Nat → WaitKind → Bool) : State :=
  (waiters s).foldl (fun s e => if pick e.1 e.2.1 e.2.2.2.kind then endWait s e.1 e.2.1 e.2.2.1 true else s) s

/-! ### Counters (R250) -/

def reached (value target : Nat) : Bool := decide ((value + 2 ^ 32 - target % 2 ^ 32) % 2 ^ 32 < 2 ^ 31)

def State.counter (s : State) (core i : Nat) : Nat := s.rget Fld.CO_SYNC_VALUE_VALUE core i

/-- Evaluate every waiting CWAIT of a counter. -/
def wakeCounter (s : State) (core i : Nat) : State :=
  endWaits s (fun c _ k => decide (c = core) && (match k with
    | .counter j target => decide (j = i) && reached (s.counter core i) target
    | _ => false))

/-- Set a counter. -/
def State.setCounter (s : State) (core i v : Nat) : State :=
  wakeCounter (s.rput Fld.CO_SYNC_VALUE_VALUE v core i) core i

/-- Add to a counter, modulo 2^32. -/
def State.addCounter (s : State) (core i n : Nat) : State := s.setCounter core i ((s.counter core i + n) % 2 ^ 32)

/-! ### Event words (R255, R304, R453) -/

/-- The home has written a line: every EWAIT on a word of it is evaluated again; a poisoned word faults its waiter. -/
def wakeEvents (s : State) (l : Nat) : State :=
  (waiters s).foldl (fun s e =>
    match e.2.2.2.kind with
    | .event addr target =>
      if lineOf addr = l then
        if s.extentPoisoned addr 8 then
          (s.mapTray e.1 e.2.1 (fun t => t.wake e.2.2.1)).trayFault e.1 e.2.1 stUncorrectable addr
        else if target ≤ s.readLE addr 8 then endWait s e.1 e.2.1 e.2.2.1 true
        else s
      else s
    | _ => s) s

/-- The home takes a line for a step of its own: every L1 copy is invalidated and the line stands in the slice; a
NEAR_ATOMIC line is never cached (R231, R232). -/
def takeLine (s : State) (a : Nat) (near : Bool) : State :=
  if near || !(isHbm a) then s else l2Alloc (invalidateCopies s a 1) (lineOf a) true false

/-- A write of a non-caching agent at the home (R230): every L1 copy of the lines is invalidated, the bytes are written,
and the lines enter the slice at the position their POLICY gives. -/
def agentWrite (s : State) (a n v : Nat) (policy : Nat := 0) : State :=
  let s := invalidateCopies s a n
  let s := s.write a n v
  (linesOf a n).foldl (fun s l => wakeEvents (l2Alloc s l true (decide (policy = 3))) l) s

/-- The error record of a decreasing signal, at most one for each context in a sampling window (R304). -/
def recordDecrease (s : State) (a v c : Nat) (who : ErrRec) : State :=
  let s := s.rbump Fld.FE_EVENT_STATS_DECREASE
  if s.windowDecreased.contains who.context then s.rbump Fld.FE_EVENT_STATS_SUPPRESSED
  else
    { s with windowDecreased := who.context :: s.windowDecreased }.logFor who.launch
      { who with kind := 0x03, cls := 7, object := a, valueA := v, valueB := c }

/-- A signal of value v to the event word at a device address: one indivisible step at the word's home (R304). None when
the word is poisoned (R453). -/
def signalWord (s : State) (a v : Nat) (near : Bool) (who : ErrRec) : Option State :=
  if s.extentPoisoned a 8 then none
  else
    let s := takeLine s a near
    let c := s.readLE a 8
    if c < v then some (wakeEvents (s.write a 8 v) (lineOf a))
    else
      let s := s.rbump Fld.FE_EVENT_STATS_STALE
      some (if v < c then recordDecrease s a v c who else s)

/-! ### Barriers (R64, R252 to R254) -/

/-- Where a barrier stands: a sheet's own, a block hub's slot, or a slot of the device unit. -/
inductive BarAt where
  | sheet (core uid index : Nat)
  | block (block slot index : Nat)
  | device (slot index : Nat)
deriving DecidableEq, Repr

/-- The hub slots of a launch in a block, in ascending order. -/
def hubSlots (s : State) (block launch : Nat) : List Nat :=
  (List.range 16).filter (fun i => s.flag Fld.BK_BAR_SLOT_VALID block i && decide (s.rget Fld.BK_BAR_SLOT_LAUNCH block i = launch))

/-- The barrier that a tray's BAR of a scope and index names. -/
def barAt (s : State) (core : Nat) (t : Tray) (scope index : Nat) : Option BarAt :=
  match scope with
  | 0 => some (.sheet core t.sheet index)
  | 1 => (hubSlots s (blockOf core) t.launch)[index]?.map (fun k => .block (blockOf core) k index)
  | _ => ((s.launch t.launch).bind (fun L => L.dbar)).map (fun b => .device (b + index) index)

/-- The trays of a sheet that have not retired. -/
def sheetTrays (c : Core) (uid : Nat) : Nat := (c.trays.filter (fun e => e.2.sheet == uid)).length

/-- A barrier's count, expected count and sense bit. -/
def barState (s : State) : BarAt → Nat × Nat × Bool
  | .sheet core uid i =>
    let b := match (s.core core).sheet? uid with
      | some h => SMap.get h.barriers i {}
      | none => {}
    (b.count, sheetTrays (s.core core) uid, b.sense)
  | .block bk k _ => (s.rget Fld.BK_BAR_SLOT_COUNT bk k, s.rget Fld.BK_BAR_SLOT_EXPECTED bk k, s.flag Fld.BK_BAR_SLOT_SENSE bk k)
  | .device k _ =>
    (s.rget Fld.FE_DBAR_SLOT_COUNT 0 k, s.rget Fld.FE_DBAR_SLOT_EXPECTED 0 k, s.flag Fld.FE_DBAR_SLOT_SENSE 0 k)

/-- Set a barrier's count and sense bit. -/
def setBar (s : State) (b : BarAt) (count : Nat) (sense : Bool) : State :=
  match b with
  | .sheet core uid i =>
    s.mapCore core (fun c => { c with sheets := c.sheets.map (fun h =>
      if h.uid = uid then { h with barriers := SMap.put h.barriers i { count := count, sense := sense } } else h) })
  | .block bk k _ => (s.rput Fld.BK_BAR_SLOT_COUNT count bk k).rput Fld.BK_BAR_SLOT_SENSE (b2n sense) bk k
  | .device k _ => (s.rput Fld.FE_DBAR_SLOT_COUNT count 0 k).rput Fld.FE_DBAR_SLOT_SENSE (b2n sense) 0 k

/-- A tray's local sense bit of a barrier. -/
def Tray.senseOf (t : Tray) (scope index : Nat) : Bool := SMap.get t.senses (4 * scope + index) false

/-- The scope and index that name a barrier in a tray. -/
def BarAt.names : BarAt → Nat × Nat
  | .sheet _ _ i => (0, i)
  | .block _ _ i => (1, i)
  | .device _ i => (2, i)

/-- Complete a barrier's phase when its count has reached the expected count: the count goes to zero, S inverts, and
every waiting arrival completes (R252). -/
def barPhase (s : State) (b : BarAt) : State :=
  let (count, expected, sense) := barState s b
  if count = 0 ∨ count < expected then s
  else
    let s := setBar s b 0 (!sense)
    let (scope, index) := b.names
    endWaits s (fun core slot k =>
      match k, s.tray core slot with
      | .barrier sc i, some t =>
        decide (sc = scope) && decide (i = index) && decide (barAt s core t scope index = some b) &&
          decide (t.senseOf scope index = !sense)
      | _, _ => false)

/-- Does every lane of the tray that has not exited wait at the barrier? -/
def allAtBarrier (t : Tray) (scope index : Nat) : Bool :=
  !t.paths.isEmpty && t.paths.all (fun p => match p.wait with
    | some w => decide (w.kind = .barrier scope index)
    | none => false)

/-- A tray arrives at a barrier once every lane that has not exited has executed it and the full fence of R240 holds; an
arrival that its sense bit shows as counted before is not counted twice (R64, R252). -/
def tryArrive (s : State) (core slot : Nat) : State :=
  match s.tray core slot with
  | none => s
  | some t =>
    match t.paths.head?.bind (fun p => p.wait) with
    | none => s
    | some w =>
      match w.kind with
      | .barrier scope index =>
        let fenced := fenceDone (s.core core) slot (if scope = 0 then 1 else 2) false
        match barAt s core t scope index with
        | none => s
        | some b =>
          let (count, _, sense) := barState s b
          if allAtBarrier t scope index && fenced && decide (t.senseOf scope index = sense) then
            let s := s.setTray core slot { t with senses := SMap.put t.senses (4 * scope + index) (!sense) }
            barPhase (setBar s b (count + 1) sense) b
          else s
      | _ => s

/-- An access of a tray has ended: its fence or its arrival at a barrier may complete (R239, R240). -/
def trayProgress (s : State) (core slot : Nat) : State :=
  match s.tray core slot with
  | none => s
  | some t =>
    let s := t.paths.foldl (fun s p =>
      match p.wait with
      | some w =>
        (match w.kind with
         | .fence scope kind =>
           if fenceDone (s.core core) slot scope (decide (kind = 1)) then endWait s core slot p.id true else s
         | _ => s)
      | none => s) s
    tryArrive s core slot

end Sys2Proof.Machine
end

