-- ==== Sys2Proof/Machine/Hbm.lean ====
section
/-!
DEFINITION. Machine/Hbm.lean: the HBM channels and the stacked L2 as stores that can fail (R194 to R219): channel states,
retraining, the traffic generator, partitions, fills, reload, retirement, preload and way locking, victim offers.
-/
namespace Sys2Proof.Machine

/-! ### Channels (R206, R207) -/

def chanOnline : Nat := 0
def chanRetraining : Nat := 1
def chanDraining : Nat := 2
def chanOffline : Nat := 3
def chanTest : Nat := 4
def chanScrubbing : Nat := 5

def State.chanState (s : State) (ch : Nat) : Nat := s.rget (Fld.HM_CHAN_STATE_STATE (ch % 16)) 0 (ch / 16)
def State.chanPending (s : State) (ch : Nat) : Bool := s.flag (Fld.HM_CHAN_STATE_PENDING (ch % 16)) 0 (ch / 16)
def State.setChanPending (s : State) (ch : Nat) (b : Bool) : State :=
  s.rput (Fld.HM_CHAN_STATE_PENDING (ch % 16)) (b2n b) 0 (ch / 16)

def State.channel (s : State) (ch : Nat) : Channel := SMap.get s.channels ch {}
def State.mapChannel (s : State) (ch : Nat) (f : Channel → Channel) : State :=
  { s with channels := SMap.store s.channels ch {} (f (s.channel ch)) }

/-- Put a channel into a state; HBM retraining is a source of recovery while any channel is RETRAINING (R389). -/
def State.setChan (s : State) (ch st : Nat) : State :=
  let s := s.rput (Fld.HM_CHAN_STATE_STATE (ch % 16)) st 0 (ch / 16)
  s.setRecovery 2 ((List.range 128).any (fun c => decide (s.chanState c = chanRetraining)))

/-- The error record of a channel event (R383, kind 0x07). -/
def chanRecord (s : State) (ch cls before after failed : Nat) : State :=
  s.logErr { kind := 0x07, cls := cls, unit := 5, place := ch, object := ch, valueA := before, valueB := after, detail := failed }

/-- A retrain of the stack's channels is running. -/
def stackBusy (s : State) (ch : Nat) : Bool :=
  (List.range 16).any (fun i => decide (s.chanState (16 * (ch / 16) + i) = chanRetraining))

/-- Start a retrain of an ONLINE channel. Channels of one stack never retrain at the same time: a retrain that meets
another of its stack stays due (R209). -/
def startRetrain (s : State) (ch : Nat) (counted early : Bool) : State :=
  if stackBusy s ch then s.mapChannel ch (fun c => { c with due := s.now })
  else
    let s := s.mapChannel ch (fun c => { c with
      attempts := 0, early := early, retrains := if counted then min (c.retrains + 1) 0xFFFF else c.retrains })
    s.setChan ch chanRetraining

def skipRetrain (s : State) (ch : Nat) : State := s.mapChannel ch (fun c => { c with skipped := min (c.skipped + 1) 0xFF })

/-- Commands of HM_CHAN_CTRL (R207): 1 OFFLINE, 2 ONLINE, 3 TEST, 4 RETRAIN. The register keeps what was written. -/
def chanCommand (s : State) (ch cmd : Nat) : State :=
  let s := (s.rput Fld.HM_CHAN_CTRL_CHANNEL ch).rput Fld.HM_CHAN_CTRL_CMD cmd
  let st := s.chanState ch
  let refuse := s.setChanPending ch false
  match cmd with
  | 1 =>
    if st = chanOnline then s.setChan ch chanDraining
    else if st = chanRetraining then s.mapChannel ch (fun c => { c with offlineNext := true })
    else if st = chanDraining then s
    else if st = chanTest then s.setChan ch chanOffline
    else refuse
  | 2 =>
    if st = chanDraining then s.setChanPending ch true
    else if st = chanOffline ∨ st = chanTest then s.setChan ch chanScrubbing
    else refuse
  | 3 => if st = chanOffline then s.setChan ch chanTest else refuse
  | 4 => if st = chanOnline then startRetrain s ch false true else refuse
  | _ => s

/-- Requests in flight have completed: DRAINING becomes OFFLINE, and a held ONLINE takes effect (R206, R207). -/
def doChannelDrainEnd (ch : Nat) (s : State) : State :=
  if s.chanState ch ≠ chanDraining then s
  else
    let s := if (s.channel ch).attempts < 3 then chanRecord s ch 3 chanDraining chanOffline 0 else s
    let s := s.mapChannel ch (fun c => { c with attempts := 0 })
    if s.chanPending ch then (s.setChanPending ch false).setChan ch chanScrubbing else s.setChan ch chanOffline

/-- The code words of the channel's lines that some L1 or slice holds, with what their poison reads. -/
def cachedWords (s : State) (ch : Nat) : List (Nat × Bool) :=
  (s.lines.filter (fun e => decide (channelOf (128 * e.1) = ch) && (e.2.slice.isSome || !e.2.l1.isEmpty))).flatMap
    (fun e => (List.range 4).map (fun i => (4 * e.1 + i, s.poisoned (4 * e.1 + i))))

/-- The scrub writes a poisoned code word into every line of the channel (R208); cached lines keep their data. -/
def scrubChannel (s : State) (ch : Nat) : State :=
  let keep := cachedWords s ch
  let s := { s with
    poison := s.poison.filter (fun e => decide (channelOf (32 * e.1) ≠ ch) || !(isHbm (32 * e.1)))
    rescrubbed := if s.rescrubbed.contains ch then s.rescrubbed else s.rescrubbed ++ [ch] }
  keep.foldl (fun s e => s.setPoison e.1 e.2) s

/-- Training and scrub end: the channel is ONLINE, or OFFLINE when training fails (R206, R208). -/
def doScrubDone (ch : Nat) (pass : Bool) (s : State) : State :=
  if s.chanState ch ≠ chanScrubbing then s
  else if pass then (scrubChannel s ch).setChan ch chanOnline
  else s.setChan ch chanOffline

/-- A periodic retrain comes due (R209). -/
def doRetrainDue (ch : Nat) (s : State) : State :=
  let due := (s.channel ch).due
  let s := s.pass (due - s.now)
  let s := s.mapChannel ch (fun c => { c with due := due + s.rget Fld.HM_RETRAIN_PERIOD_PERIOD })
  if s.chanState ch = chanOnline then startRetrain s ch true false else skipRetrain s ch

/-- Corrected words of the window exceed the threshold (R209). -/
def doEarlyRetrain (ch : Nat) (s : State) : State :=
  let thresh := s.rget Fld.HM_RETRAIN_THRESH_CORRECTED
  if thresh = 0 ∨ (s.channel ch).windowCorrected ≤ thresh then s
  else if s.chanState ch = chanOnline then startRetrain s ch true true
  else skipRetrain s ch

/-- A retrain passes, or fails for the first, second or third time (R206, R209). -/
def doRetrainDone (ch : Nat) (pass : Bool) (s : State) : State :=
  if s.chanState ch ≠ chanRetraining then s
  else
    let c := s.channel ch
    if pass then
      let after := if c.offlineNext then chanDraining else chanOnline
      let s := if c.early then chanRecord s ch 1 chanRetraining after c.attempts else s
      (s.mapChannel ch (fun c => { c with attempts := 0, offlineNext := false, windowCorrected := 0 })).setChan ch after
    else if c.attempts + 1 < 3 then s.mapChannel ch (fun c => { c with attempts := c.attempts + 1 })
    else
      let s := chanRecord s ch 3 chanRetraining chanDraining 3
      let s := s.mapChannel ch (fun c => { c with attempts := 3, offlineNext := false })
      (skipRetrain s ch).setChan ch chanDraining

/-! ### The traffic generator (R210) -/

/-- A write of HM_TG_CTRL; START runs the generator on a channel in TEST while no run is busy. -/
def tgWrite (s : State) (ch pattern order lines : Nat) (start : Bool) : State :=
  let s := (s.rput Fld.HM_TG_CTRL_CHANNEL ch).rput Fld.HM_TG_CTRL_PATTERN pattern
  let s := (s.rput Fld.HM_TG_CTRL_ORDER order).rput Fld.HM_TG_CTRL_LINES lines
  if start && decide (s.chanState ch = chanTest) && !(s.flag Fld.HM_TG_STATUS_BUSY) then
    ((s.rput Fld.HM_TG_STATUS_BUSY 1).rput Fld.HM_TG_STATUS_MISMATCHES 0).rput Fld.HM_TG_STATUS_FIRST_FAIL 0
  else s

/-- A run ends with its mismatches and first failing index. -/
def doTgRunEnd (mismatches first : Nat) (s : State) : State :=
  if !(s.flag Fld.HM_TG_STATUS_BUSY) then s
  else
    let s := (s.rput Fld.HM_TG_STATUS_BUSY 0).rput Fld.HM_TG_STATUS_DONE 1
    (s.rput Fld.HM_TG_STATUS_MISMATCHES (min mismatches (2 ^ 24 - 1))).rput Fld.HM_TG_STATUS_FIRST_FAIL first

/-! ### Bandwidth partitions (R211 to R214) -/

def State.partition (s : State) (n : Nat) : Partition := SMap.get s.partitions n {}
def State.mapPartition (s : State) (n : Nat) (f : Partition → Partition) : State :=
  { s with partitions := SMap.put s.partitions n (f (s.partition n)) }

/-- Fields of a setting, as HM_PART_CTRL lays it out: GB/s, GB/s, units of 64 KiB. -/
def pcRate (w : Nat) : Nat := bits w 0 14
def pcFloor (w : Nat) : Nat := bits w 16 14
def pcBurst (w : Nat) : Nat := bits w 32 14
def pcEnable (w : Nat) : Bool := decide (bits w 48 1 = 1)
def pcBorrow (w : Nat) : Bool := decide (bits w 49 1 = 1)

/-- The whole register HM_PART_CTRL_n. -/
def partReg (s : State) (n : Nat) : Nat := (s.regWord Fld.HM_PART_CTRL_RATE 0 n).toNat

/-- Is a setting of partition n acceptable (R214)? -/
def partLegal (s : State) (n w : Nat) : Bool :=
  let floors := (List.range 16).foldl (fun acc k =>
    let v := if k = n then w else partReg s k
    if pcEnable v then acc + pcFloor v else acc) 0
  decide (pcFloor w ≤ pcRate w) && decide (1 ≤ pcBurst w) && decide (pcRate w ≤ 9420) && decide (floors ≤ 8000)

/-- The fields of HM_PART_CTRL: the bits that are not reserved. -/
def partBits (w : Nat) : Nat :=
  pcRate w + pcFloor w * 2 ^ 16 + pcBurst w * 2 ^ 32 + bits w 48 2 * 2 ^ 48

/-- A write of HM_PART_CTRL_n: INVALID_ARGUMENT, or kept until the next power epoch boundary (R214). -/
def partWrite (s : State) (n w : Nat) : State × Nat :=
  if partLegal s n w then
    ({ s with regs := SMap.store s.regs (Fld.HM_PART_CTRL_RATE.offset 0 n) 0 (BitVec.ofNat 64 (partBits w)) }, stOk)
  else (s, stInvalidArgument)

/-- The unit in which buckets hold tokens: 2^-16 bytes. -/
def tokenUnit : Nat := 65536

/-- A round of the division of a total: regions marked low have the least share, the others what is left in proportion to the
bytes asked there. -/
def shareRound (total least : Nat) (asked : List Nat) (low : List Bool) : List Nat :=
  let es := asked.zip low
  let sum := es.foldl (fun n e => if e.2 then n else n + e.1) 0
  let rest := total - least * (low.filter (fun b => b)).length
  es.map (fun e => if e.2 then least else rest * e.1 / sum)

/-- Give what rounding has left to the first region that is not low. -/
def topUp (short : Nat) : List (Nat × Bool) → List Nat
  | [] => []
  | (p, false) :: rest => (p + short) :: rest.map (fun e => e.1)
  | (p, true) :: rest => p :: topUp short rest

/-- The regions' shares of a total (R213): in proportion to the bytes asked there in the past epoch, none below one sixteenth,
the sum exact; equal where nothing was asked. -/
def shares (total : Nat) (asked : List Nat) : List Nat :=
  if asked.all (fun a => decide (a = 0)) then asked.map (fun _ => total / asked.length)
  else
    let least := total / 16
    let low := (List.range 3).foldl (fun low _ =>
      ((shareRound total least asked low).zip low).map (fun e => e.2 || decide (e.1 < least))) (asked.map (fun _ => false))
    let ps := shareRound total least asked low
    topUp (total - ps.foldl (· + ·) 0) (ps.zip low)

/-- The bytes asked in each region in the past epoch. -/
def Partition.askedList (p : Partition) : List Nat := (List.range 4).map (fun r => SMap.get p.basis r 0)

/-- Fill a regional bucket up to now. RATE in GB/s is RATE bytes per ns. -/
def Partition.fill (p : Partition) (now : Nat) : Partition :=
  let rates := shares (pcRate p.ctrl * tokenUnit) p.askedList
  let caps := shares (pcBurst p.ctrl * 65536 * tokenUnit) p.askedList
  let dt := now - p.filledAt
  { p with
    filledAt := now
    tokens := (List.range 4).map (fun r => (r, min (caps.getD r 0) (SMap.get p.tokens r 0 + dt * rates.getD r 0))) }

/-- May an access of 128 B of a partition be served at a region now (R212)? Borrowed service asks for an idle channel,
which the sender of the command stands for. -/
def partServe (s : State) (n region : Nat) : Option State :=
  let p := s.partition n
  if !(pcEnable p.ctrl) then
    some (s.mapPartition n (fun p => { p with bytes := p.bytes + 128, served := p.served + 128 }))
  else
    let p := p.fill s.now
    let p := { p with asked := SMap.put p.asked region (SMap.get p.asked region 0 + 128) }
    let have' := SMap.get p.tokens region 0
    if 128 * tokenUnit ≤ have' then
      some (s.mapPartition n (fun _ => { p with
        tokens := SMap.put p.tokens region (have' - 128 * tokenUnit), bytes := p.bytes + 128, served := p.served + 128 }))
    else if pcBorrow p.ctrl then
      some (s.mapPartition n (fun _ => { p with bytes := p.bytes + 128, served := p.served + 128 }))
    else none

/-- The partition of a context (R211). -/
def partitionOf (s : State) (context : Nat) : Nat := ((SMap.find? s.contexts context).map (fun c => c.partition)).getD 0

/-- HBM reads of a mover's job, charged to a context's partition as a whole: what the bucket holds is consumed, and the wait for
what it lacks is time (R211, R212). Lines that a cache holds are not read from HBM. -/
def chargeLines (s : State) (context : Nat) (ls : List Nat) : State :=
  let n := partitionOf s context
  (ls.filter (fun l => isHbmLine l && (s.line l).slice.isNone && (s.line l).l1.isEmpty)).foldl (fun s l =>
    let region := channelOf (128 * l) / 32
    s.mapPartition n (fun p =>
      let p := if pcEnable p.ctrl then p.fill s.now else p
      let asked := SMap.put p.asked region (SMap.get p.asked region 0 + 128)
      { p with asked := asked, tokens := SMap.update p.tokens region (fun t => t - 128 * tokenUnit), bytes := p.bytes + 128, served := p.served + 128 })) s

/-- A power epoch boundary: the setting written takes effect, and the shares follow the past epoch's requests (R213,
R214). -/
def partEpoch (s : State) : State :=
  (List.range 16).foldl (fun s n =>
    let w := partReg s n
    let p := s.partition n
    if w = 0 ∧ p = {} then s
    else
      let p := { p.fill s.now with basis := p.asked, asked := [], served := 0, ctrl := w }
      s.mapPartition n (fun _ => p.fill s.now)) s

/-- A sampling window ends: the last window's registers of the partitions (HM_PART_STATS, R437). -/
def partWindow (s : State) : State :=
  (List.range 16).foldl (fun s n =>
    let p := s.partition n
    let s := (s.rput Fld.HM_PART_STATS_KIB (min (p.bytes / 1024) (2 ^ 32 - 1)) 0 n).rput Fld.HM_PART_STATS_HELD
      (min p.held (2 ^ 32 - 1)) 0 n
    if p.bytes = 0 ∧ p.held = 0 then s else s.mapPartition n (fun p => { p with bytes := 0, held := 0 })) s

/-! ### Retirement (R218, R219, R303) -/

/-- The physical address of an object-table entry (R299). -/
def objAddr (s : State) (i : Nat) : Nat := carveBase s + 32 * i

/-- Is a granule on the retired list? -/
def granuleRetired (s : State) (g : Nat) : Bool := s.retired.contains (.granule g)

/-- TU_RETIRE_PENDING and the RETIRE_PENDING bits of the live ranges' objects (R303). -/
def showRetirePending (s : State) : State :=
  let holds := fun (r : Range) => s.retired.any (fun x => match x with
    | .granule g => decide (r.pbase ≤ g) && decide (g < r.pbase + r.ngran)
    | .way _ _ _ => false)
  let held := s.ranges.filter (fun e => holds e.2)
  let s := held.foldl (fun s e =>
    let a := objAddr s e.2.object + 8
    s.putLE a 8 (s.readLE a 8 ||| 2 ^ 12)) s
  let grans := (s.retired.filter (fun x => match x with
    | .granule g => s.ranges.any (fun e => decide (e.2.pbase ≤ g) && decide (g < e.2.pbase + e.2.ngran))
    | .way _ _ _ => false)).length
  (s.rput Fld.TU_RETIRE_PENDING_GRANULES grans).rput Fld.TU_RETIRE_PENDING_RANGES held.length

/-- Enter an entry in the retired list, or count it when 4,096 are held; the record of it (R218, R219, R383). -/
def retire (s : State) (x : Retired) (object t0 unit place : Nat) (isWay : Bool) : State :=
  let full := decide (4096 ≤ s.retired.length)
  let known := s.retired.contains x
  let s := s.logErr {
    kind := 0x09, cls := 0, unit := unit, place := place, object := object, valueA := t0, valueB := s.now
    detail := if full && !known then 2 else if isWay then 1 else 0 }
  if known then s
  else if full then s.rbump Fld.HM_RETIRE_STATUS_OVERFLOW
  else
    let s := { s with retired := s.retired ++ [x] }
    let s := (s.rput Fld.HM_RETIRE_STATUS_RETIRED s.retired.length).rput Fld.HM_RETIRE_STATUS_UNCOMMITTED 1
    showRetirePending s

def showCandidates (s : State) : State := s.rput Fld.HM_RETIRE_STATUS_CANDIDATES s.retireCand.length

/-- A code word of a line had to be corrected, or was uncorrectable, on a read (R218). -/
def lineFailure (s : State) (l : Nat) : State :=
  let window := s.rget Fld.HM_RETIRE_WINDOW_WINDOW
  let others := s.retireCand.filter (fun e => e.1 != l)
  match s.retireCand.find? (fun e => e.1 == l) with
  | some e =>
    if s.now - e.2 ≤ window then
      let s := showCandidates { s with retireCand := others }
      retire s (.granule (l / 32)) (l / 32 * 4096) e.2 5 (channelOf (128 * l)) false
    else showCandidates { s with retireCand := others ++ [(l, s.now)] }
  | none =>
    let kept := if 1024 ≤ others.length then others.drop 1 else others
    showCandidates { s with retireCand := kept ++ [(l, s.now)] }

/-- Locked ways of a set, leaving one line out. -/
def lockedWays (s : State) (slice set except : Nat) : Nat :=
  ((setLines s slice set).filter (fun w => w.2.lock.isSome && w.1 != except)).length

/-- A line's lock goes: its group keeps count, and PARTIAL when it was lost to a disabled way (R219). -/
def dropLock (s : State) (l : Nat) (partialBit : Bool) : State :=
  match (s.line l).slice.bind (fun w => w.lock) with
  | none => s
  | some g =>
    let s := s.mapLine l (fun x => { x with slice := x.slice.map (fun w => { w with lock := none }) })
    let s := s.rput Fld.L2_GROUP_LINES (s.rget Fld.L2_GROUP_LINES 0 g - 1) 0 g
    if partialBit then s.rput Fld.L2_GROUP_PARTIAL 1 0 g else s

/-- A way that failed twice is disabled at once: its line is written back, and a locked line moves to another way if a
lock is still allowed there (R219). -/
def disableWay (s : State) (slice set way : Nat) : State :=
  let off := SMap.get s.l2Off (setKey slice set) 0
  if enabledWays s slice set ≤ 12 then s
  else
    let line := (setLines s slice set).find? (fun w => w.2.way == way)
    let s := { s with l2Off := SMap.put s.l2Off (setKey slice set) (off + 2 ^ way) }
    let s := s.rbump Fld.L2_ERRORS_DISABLED 1 slice
    match line with
    | none => s
    | some (l, w) =>
      match w.lock with
      | none => dropWay s l
      | some g =>
        if lockedWays s slice set l < lockLimit s slice set then
          let s := l2Alloc (dropWay s l) l w.dirty false
          s.mapLine l (fun x => { x with slice := x.slice.map (fun w => { w with lock := some g }) })
        else
          let s := dropLock s l true
          l2Alloc (dropWay s l) l w.dirty false

/-- A way of a set fails (R219). -/
def wayFailure (s : State) (l : Nat) : State :=
  match (s.line l).slice with
  | none => s
  | some w =>
    let h := homeOf l
    let key := 16 * setKey h.slice h.set + w.way
    let others := s.wayCand.filter (fun e => e.1 != key)
    match s.wayCand.find? (fun e => e.1 == key) with
    | some e =>
      if s.now - e.2 ≤ s.rget Fld.HM_RETIRE_WINDOW_WINDOW then
        let s := { s with wayCand := others }
        if enabledWays s h.slice h.set ≤ 12 then s
        else
          let s := disableWay s h.slice h.set w.way
          retire s (.way h.slice h.set w.way) (h.slice + h.set * 2 ^ 5 + w.way * 2 ^ 20) e.2 4 h.slice true
      else { s with wayCand := others ++ [(key, s.now)] }
    | none => { s with wayCand := others ++ [(key, s.now)] }

/-! ### Reload (R217, R392) -/

/-- The SHARED_IMM range with a reload source that holds a line. -/
def reloadSource (s : State) (l : Nat) : Option Range :=
  let a := 128 * l
  ((s.ranges.map (fun e => e.2)).find? (fun r =>
    decide (r.rsrc ≠ 0) && decide (bits r.mattr 3 1 = 1) && decide (4096 * r.pbase ≤ a) && decide (a < 4096 * (r.pbase + r.ngran))))

/-- Is a line in a SHARED_IMM range? -/
def sharedImm (s : State) (l : Nat) : Bool :=
  let a := 128 * l
  s.ranges.any (fun e => decide (bits e.2.mattr 3 1 = 1) && decide (4096 * e.2.pbase ≤ a) && decide (a < 4096 * (e.2.pbase + e.2.ngran)))

/-- Poison every code word of a line (R216). -/
def poisonLine (s : State) (l : Nat) : State := (List.range 4).foldl (fun s i => s.setPoison (4 * l + i) true) s

def reloadRecord (s : State) (l cls kind dur detail : Nat) : State :=
  s.logErr { kind := 0x08, cls := cls, unit := 4, place := sliceOf l, object := 128 * l, valueA := kind, valueB := dur, detail := detail }

/-- The recovery bit of reloads (R389). -/
def showReloads (s : State) : State := s.setRecovery 3 (s.lines.any (fun e => e.2.reloadAt.isSome))

/-- A home finds an uncorrectable word in a line: it marks the line reloading and reads it from its source, or poisons the
word when there is none (R215 to R217). -/
def uncorrectableLine (s : State) (l word : Nat) : State :=
  match reloadSource s l with
  | some _ =>
    if (s.line l).reloadAt.isSome then s
    else
      let s := s.mapLine l (fun x => { x with reloadAt := some (s.now + 500000) })
      showReloads ((s.rbump Fld.L2_ERRORS_RELOADS 1 (sliceOf l)).emit (.reloadRead l))
  | none =>
    let s := s.setPoison word true
    if sharedImm s l then reloadRecord s l 7 0 0 1 else s

/-- The reload ends: every request that waited on the line is answered. -/
def reloadEnd (s : State) (l : Nat) : State :=
  let s := showReloads (s.mapLine l (fun x => { x with reloadAt := none }))
  nextReq s l ((s.line l).queue.length + 1)

/-- Reload data arrives, or a delivery failure or poison (R217). -/
def doReloadArrive (l : Nat) (ok : Bool) (data : BitVec 1024) (s : State) : State :=
  match (s.line l).reloadAt with
  | none => s
  | some due =>
    let kind := ((reloadSource s l).map (fun r => r.rsrc)).getD 0
    let dur := s.now - (due - 500000)
    if ok then
      let s := l2Alloc (s.write (128 * l) 128 data.toNat) l false false
      reloadEnd (reloadRecord s l 1 kind dur 0) l
    else reloadEnd (reloadRecord (poisonLine s l) l 7 kind dur 3) l

/-- The reload has not completed within 500 us: the line is poisoned (R217). -/
def doReloadTimeout (l : Nat) (s : State) : State :=
  match (s.line l).reloadAt with
  | none => s
  | some due =>
    let s := s.pass (due - s.now)
    let kind := ((reloadSource s l).map (fun r => r.rsrc)).getD 0
    reloadEnd (reloadRecord (poisonLine s l) l 7 kind 500000 2) l

/-! ### Errors found on an access (R185, R215, R216) -/

/-- What the code found for a line on its way to a requester: the counts, corrections and failures of R215, R218 and R219;
the word is the one the access reads first. -/
def noteLineEcc (s : State) (e : LineEcc) (core l word : Nat) : State :=
  let ch := channelOf (128 * l)
  match e with
  | .clean => s
  | .l1Corrected => s.rbump Fld.CO_LS_ERRORS_CORRECTED 1 core
  | .l1Uncorrectable => s
  | .l1Tag => s.domainFatal 2 (coreId core) (128 * l) 2
  | .l2Corrected => wayFailure (s.rbump Fld.L2_ERRORS_CORRECTED 1 (sliceOf l)) l
  | .l2Uncorrectable =>
    wayFailure (uncorrectableLine (s.rbump Fld.L2_ERRORS_UNCORRECTABLE 1 (sliceOf l)) l word) l
  | .l2Tag => s.domainFatal 4 (sliceOf l) (128 * l) 2
  | .hbmCorrected =>
    let s := s.mapChannel ch (fun c => { c with
      corrected := min (c.corrected + 1) 0xFFFFFF, windowCorrected := c.windowCorrected + 1 })
    lineFailure s l
  | .hbmUncorrectable =>
    let s := s.mapChannel ch (fun c => { c with uncorrectable := min (c.uncorrectable + 1) 0xFFFF })
    uncorrectableLine (lineFailure s l) l word
  | .flitPoisoned => s
  | .flitControl => s.domainFatal 4 (sliceOf l) (128 * l) 3

/-- What a channel does with a read of a line that no cache holds: served when ONLINE, held while it retrains, and
completed with poison in every other state (R206). -/
def channelRead (s : State) (l : Nat) : Option State :=
  let x := s.line l
  if !(isHbmLine l) || x.slice.isSome || !x.l1.isEmpty then some s
  else
    let st := s.chanState (channelOf (128 * l))
    if st = chanOnline then some s
    else if st = chanRetraining then none
    else some (poisonLine s l)

/-- A write that goes straight to a channel: held while it retrains, discarded and counted unless it is ONLINE. The
Bool says whether the bytes are written. -/
def channelWrite (s : State) (l : Nat) : Option (State × Bool) :=
  let ch := channelOf (128 * l)
  if !(isHbmLine l) then some (s, true)
  else
    let st := s.chanState ch
    if st = chanOnline then some (s, true)
    else if st = chanRetraining then none
    else some (s.mapChannel ch (fun c => { c with discarded := c.discarded + 1 }), false)

/-! ### Fills and victims (R194 to R196, R225) -/

/-- A home directory entry is recalled: every L1 copy is invalidated and any dirty data goes to HBM (R225). -/
def recallLine (s : State) (l : Nat) : State :=
  if (s.line l).slice.isSome || (s.line l).l1.isEmpty then s
  else
    let s := (s.mapLine l (fun x => { x with l1 := [] })).rbump Fld.L2_COH_STATS_RECALLS 1 (sliceOf l)
    wakeEvents s l

/-- A fill from HBM arrives at the home slice for a context's request: charged to its partition, served by its channel,
checked by the code, and allocated at the position of its POLICY (R188, R194, R206, R211, R212, R215). `recalled` names
the directory entry that the set gives up, if it is full (R225). -/
def doL2Fill (l context : Nat) (lru : Bool) (e : LineEcc) (recalled : Option Nat) (s : State) : State :=
  if !(isHbmLine l) || (s.line l).slice.isSome || (s.line l).reloadAt.isSome then s
  else
    let part := partitionOf s context
    match channelRead s l with
    | none => s
    | some s1 =>
      match partServe s1 part (channelOf (128 * l) / 32) with
      | none => s.mapPartition part (fun p => { p with held := p.held + 1 })
      | some s =>
        let s := s.rbump Fld.L2_STATS_MISSES 1 (sliceOf l)
        let s := l2Alloc s l false lru
        let s := noteLineEcc s e 0 l (4 * l)
        -- a home that reads a poisoned line of a SHARED_IMM range with a source refetches it (R392)
        let s := if s.extentPoisoned (128 * l) 128 && (reloadSource s l).isSome then uncorrectableLine s l (4 * l) else s
        match recalled with
        | some r => recallLine s r
        | none => s

/-- An L1 evicts a line and offers it to its home (R195); while the home serves a request to the line the offer waits,
which here means that it has not been made (R226). -/
def doVictimOffer (core l : Nat) (s : State) : State :=
  if (s.line l).txn.isSome then s
  else
    let dirty := decide (SMap.find? (s.line l).l1 core = some L1St.m)
    let s := victimOffer s core l
    if dirty then wakeEvents s l else s

/-- An interval of 1,024 XCLK cycles ends: the slice's budget for clean victims renews (R196). -/
def doBudgetInterval (slice : Nat) (s : State) : State :=
  { s with
    victimUsed := SMap.del s.victimUsed slice
    victimBudget := SMap.put s.victimBudget slice (s.rget Fld.L2_VICTIM_BUDGET_ACCEPTS slice) }

/-! ### Preload and way locking (R197 to R201) -/

def groupFree : Nat := 0
def groupLoading : Nat := 1
def groupLocked : Nat := 2
def groupReleasing : Nat := 3

/-- Fetch a line if it is absent and lock its way for a group: true when it counts as locked (R197, R198). -/
def lockLine (s : State) (l group : Nat) : State × Bool :=
  let s := if (s.line l).slice.isSome then s else l2Alloc s l (match ownerOf (s.line l) with | some _ => true | none => false) false
  match (s.line l).slice with
  | none => (s, false)
  | some w =>
    if w.lock.isSome then (s, true)
    else
      let h := homeOf l
      if lockedWays s h.slice h.set l < lockLimit s h.slice h.set then
        let s := s.mapLine l (fun x => { x with slice := some { w with lock := some group } })
        (s.rput Fld.L2_GROUP_LINES (s.rget Fld.L2_GROUP_LINES 0 group + 1) 0 group, true)
      else (s, false)

/-- The lines of a group become ordinary lines in their present positions (R201). -/
def unlockLines (s : State) (group : Nat) : State :=
  let s := { s with lines := s.lines.map (fun (e : Nat × Line) =>
    (e.1, { e.2 with slice := e.2.slice.map (fun (w : L2Way) => if w.lock = some group then { w with lock := none } else w) })) }
  s.rput Fld.L2_GROUP_LINES 0 0 group

def execChannelOffline (ch : Fin 128) (s : State) : Out State := .next (s.onClock (chanCommand s ch 1))
def execChannelOnline (ch : Fin 128) (s : State) : Out State := .next (s.onClock (chanCommand s ch 2))
def execChannelTest (ch : Fin 128) (s : State) : Out State := .next (s.onClock (chanCommand s ch 3))
def execChannelRetrain (ch : Fin 128) (s : State) : Out State := .next (s.onClock (chanCommand s ch 4))
def execChannelDrainEnd (ch : Fin 128) (s : State) : Out State := .next (s.onClock (doChannelDrainEnd ch s))
def execChannelScrubDone (ch : Fin 128) (pass : Bool) (s : State) : Out State := .next (s.onClock (doScrubDone ch pass s))
def execRetrainDue (ch : Fin 128) (s : State) : Out State := .next (s.onClock (doRetrainDue ch s))
def execEarlyRetrainTrigger (ch : Fin 128) (s : State) : Out State := .next (s.onClock (doEarlyRetrain ch s))
def execTgStart (ch : Fin 128) (pattern : Fin 4) (order : Bool) (lines : BitVec 32) (s : State) : Out State :=
  .next (s.onClock (tgWrite s ch pattern (b2n order) lines.toNat true))
def execTgRunEnd (mismatches : Nat) (first : BitVec 32) (s : State) : Out State := .next (s.onClock (doTgRunEnd mismatches first.toNat s))
def execL2Fill (line : Nat) (context : Fin 64) (lru : Bool) (ecc : LineEcc) (recalled : Option Nat) (s : State) : Out State :=
  .next (s.onClock (doL2Fill line context lru ecc recalled s))
def execVictimOffer (core : Fin 192) (line : Nat) (s : State) : Out State := .next (s.onClock (doVictimOffer core line s))
def execVictimBudgetInterval (slice : Fin 24) (s : State) : Out State := .next (s.onClock (doBudgetInterval slice s))

end Sys2Proof.Machine
end

