-- ==== Sys2Proof/Machine/LoadStore.lean ====
section
/-!
DEFINITION. Machine/LoadStore.lean: what an access of a tray does when its data comes or its store is accepted, and STC
(R71, R185 to R190, R206, R216, R222, R229, R231, R232, R235, R236, R241, R452).
-/
namespace Sys2Proof.Machine

/-! ### Order -/

/-- The accesses of a core in issue order before one of them. -/
def opsBefore (c : Core) (op : MemOp) : List MemOp := c.ops.filter (fun p => decide (p.serial < op.serial))

/-- Those of its own tray. -/
def ownBefore (c : Core) (op : MemOp) : List MemOp := (opsBefore c op).filter (fun p => p.slot == op.slot)

/-- May an access be performed now? Earlier acquires of its lanes, its own release, and the same-address order of its
tray hold it back; a store, atomic or reserved load also waits until earlier stores of its core to the same bytes are
accepted (R229, R235, R236, R241). -/
def mayPerform (c : Core) (op : MemOp) : Bool :=
  let own := ownBefore c op
  let forwards := match op.kind with
    | .load _ => !op.host
    | _ => false
  acquiresDone own op.laneMask &&
    (!op.release || releaseDone own (c.tray op.slot) op.laneMask op.scope) &&
    own.all (fun p => !(p.meets op) || (forwards && p.isStore && !p.host)) &&
    (forwards || (opsBefore c op).all (fun p => !(p.isStore && p.meets op)))

/-- Is a store in the queue visible to a tray of its core: its own tray's always, another tray's once what orders the
store before it at sheet scope is performed (R238, R241). -/
def storeVisible (c : Core) (p : MemOp) (slot serial : Nat) : Bool :=
  if p.slot = slot then decide (p.serial < serial)
  else
    let own := ownBefore c p
    acquiresDone own p.laneMask && (!p.release || releaseDone own none p.laneMask (min p.scope 1))

/-- The pieces of stores that the core has issued and that are not accepted, as a tray sees them, oldest first. -/
def forwarded (c : Core) (op : MemOp) : List (Nat × List Piece) :=
  (c.ops.filter (fun p => p.isStore && !p.host && storeVisible c p op.slot op.serial)).map (fun p => (p.serial, p.pieces))

/-- A byte with the queue's stores over it. -/
def overlayByte (s : State) (q : List (Nat × List Piece)) (a : Nat) : Nat :=
  q.foldl (fun v e => e.2.foldl (fun v p =>
    if p.1 ≤ a ∧ a < p.1 + p.2.1 then bits p.2.2 (8 * (a - p.1)) 8 else v) v) (s.byte a).toNat

def overlayLE (s : State) (q : List (Nat × List Piece)) (a : Nat) : Nat → Nat
  | 0 => 0
  | n + 1 => overlayByte s q a + 256 * overlayLE s q (a + 1) n

/-- Poison under a read, unless the queue's stores cover the code word whole (R208, R216). -/
def readPoisoned (s : State) (q : List (Nat × List Piece)) (a n : Nat) : Bool :=
  ((List.range ((a + n - 1) / 32 - a / 32 + 1)).map (fun i => a / 32 + i)).any (fun w =>
    s.poisoned w && !(q.any (fun e => coversWord e.2 w)))

/-! ### Lines -/

/-- The lines of an access, in order. -/
def MemOp.lines (op : MemOp) : List Nat := (op.lanes.flatMap (fun a => linesOf a.addr op.size)).eraseDups

/-- A line inserted at the least recently used position (R188, POLICY 3). -/
def streamLine (s : State) (l : Nat) (held : Bool) : State :=
  if held then s else s.mapLine l (fun x => { x with slice := x.slice.map (fun w => { w with stamp := 0 }) })

/-- Bring a line to a load (R188, R190, R222, R231, R232): a hit in the L1, or a request at the home. None while the home
cannot serve it. -/
def readLine (s : State) (core l policy : Nat) (near : Bool) : Option State :=
  if !(isHbmLine l) then some s
  else if near then channelRead s l
  else if (SMap.find? (s.line l).l1 core).isSome then
    some ((l1Put s core l ((SMap.find? (s.line l).l1 core).getD .s)).rbump Fld.CO_L1_STATS_HITS 1 core)
  else
    match channelRead s l with
    | none => none
    | some s =>
      let s := s.rbump Fld.CO_L1_STATS_MISSES 1 core
      let held := (s.line l).slice.isSome
      if policy = 3 ∨ (s.core core).l1KiB = 0 then
        (wholeReq s l .rdOnce core).map (fun s => if policy = 3 then streamLine s l held else s)
      else wholeReq s l .rdShared core

/-- Fetch a line in E or M for a reserved load (R243). -/
def ownLine (s : State) (core l : Nat) : Option State :=
  match SMap.find? (s.line l).l1 core with
  | some .m => some s
  | some .e => some s
  | st =>
    match channelRead s l with
    | none => none
    | some s => wholeReq s l (if st.isSome then .upgrade else .rdOwn) core

/-- What a store does to a line before its bytes are written (R188, R189, R222): ownership under WB and on a WNA hit,
a write-through otherwise. `whole` says that the instruction covers the line. The Bool says whether the home writes. -/
def writeLine (s : State) (core l policy : Nat) (near whole : Bool) : Option (State × Bool × Bool) :=
  if !(isHbmLine l) then some (s, true, true)
  else if near then (channelWrite s l).map (fun e => (e.1, e.2, true))
  else
    let st := SMap.find? (s.line l).l1 core
    let hit := st.isSome
    let own := (s.core core).l1KiB ≠ 0 ∧ (policy = 0 ∨ (policy = 2 ∧ hit))
    if own then
      match st with
      | some .m => some (s, true, false)
      | some .e => some (s.mapLine l (fun x => { x with l1 := SMap.put x.l1 core .m }), true, false)
      | _ =>
        if whole then (wholeReq s l .claim core).map (fun s => (s, true, false))
        else if hit then (wholeReq s l .upgrade core).map (fun s => (s, true, false))
        else (channelRead s l).bind (fun s => (wholeReq s l .rdOwn core).map (fun s => (s, true, false)))
    else
      let held := (s.line l).slice.isSome
      (wholeReq s l .wrThru core).map (fun s => (if policy = 3 then streamLine s l held else s, true, true))

/-- Fold over lines while each can be served. -/
def overLines (f : State → Nat → Option State) : List Nat → State → Option State
  | [], s => some s
  | l :: ls, s => (f s l).bind (overLines f ls)

/-! ### Local SRAM through a window (R452) -/

/-- Is a lane's access beyond the scratchpad extent of the target core's split? -/
def beyondSlot (s : State) (a n : Nat) : Bool :=
  isSram a && decide ((1024 - (s.core ((a - sramBase) / 0x100000)).l1KiB) * 1024 < (a - sramBase) % 0x100000 + n)

/-! ### The end of an access -/

/-- Take an access and its scoreboard entry away. -/
def dropOp (s : State) (core : Nat) (op : MemOp) : State :=
  let s := s.mapCore core (fun c => { c with ops := c.ops.filter (fun p => p.serial != op.serial) })
  s.mapTray core op.slot (fun t => { t with pend := t.pend.filter (fun p => p.serial != op.serial) })

/-- An access ends in a tray-level fault: a watchpoint's halt is taken back, since the fault wins (R435). -/
def failOp (s : State) (core : Nat) (op : MemOp) (status object : Nat) (lanes : Mask) : State :=
  let s := dropOp s core op
  let s := if op.watch = 0 then s else
    let s := s.mapTray core op.slot (fun t => { t with halted := false })
    let w := s.rget Fld.DB_TRAY_HALTED_HALTED core
    s.rput Fld.DB_TRAY_HALTED_HALTED (w - bits w op.slot 1 * 2 ^ op.slot) core
  s.trayFault core op.slot status object lanes.toNat op.window

/-- An access ends: its watchpoint's hit is recorded, and its tray's fence or barrier goes on. -/
def endOp (s : State) (core : Nat) (op : MemOp) : State :=
  trayProgress (recordWatch (dropOp s core op) core op.slot op.watch) core op.slot

/-- A load's values reach the registers (R50, R229). -/
def deliverLoad (s : State) (core : Nat) (op : MemOp) (isSigned : Bool) (vals : List (Nat × Nat)) : State :=
  let ws := loadWrites op.dst op.size isSigned vals
  let s := s.mapTray core op.slot (fun t => ws.foldl Tray.applyWrite t)
  endOp s core op

/-- A reserved load sets its lanes' reservations and begins the hold; a second one ends the first (R71, R243). The lanes
take their lines in ascending order, and the tray's L1 holds the last of them. -/
def setReservations (s : State) (core : Nat) (op : MemOp) : State :=
  s.mapTray core op.slot (fun t =>
    let held := ((op.lanes.getLast?).map (fun a => lineOf a.addr)).getD 0
    let mine := op.lanes.map (fun a => ({
      lane := a.lane, line := lineOf a.addr, path := op.path, held := decide (lineOf a.addr = held)
      spurious := decide (t.disturbed ≠ op.disturbed), base := op.base } : Reservation))
    let old := (t.resv.filter (fun r => !(Mask.has op.laneMask r.lane))).map (fun r => { r with held := false })
    { t with resv := old ++ mine })

/-! ### Atomics (R65, R67 to R70, R231) -/

/-- The requests of an atomic: one for each distinct address, in ascending order of the lowest lane (R68). -/
def atomGroups : List LaneAcc → List (Nat × List LaneAcc)
  | [] => []
  | a :: rest =>
    let gs := atomGroups rest
    match gs.find? (fun g => g.1 == a.addr) with
    | some g => (a.addr, a :: g.2) :: gs.filter (fun h => h.1 != a.addr)
    | none => (a.addr, [a]) :: gs

/-- The requests not yet performed. -/
def MemOp.groupsLeft (op : MemOp) : List (Nat × List LaneAcc) :=
  (atomGroups op.lanes).filter (fun g => g.2.any (fun a => (SMap.find? op.got a.lane).isNone))

/-- Perform one request at its target as one indivisible step. None while the home cannot take it; the Bool is false when
the word is poisoned and nothing is done. -/
def performGroup (s : State) (core : Nat) (op : MemOp) (g : Nat × List LaneAcc) : Option (State × Bool) :=
  let l := lineOf g.1
  let taken := if op.near then (channelRead s l).bind (fun s => (channelWrite s l).map (fun e => e.1))
    else (channelRead s l).bind (fun s => wholeReq s l .atomic agentNone)
  match taken with
  | none => none
  | some s =>
    if s.extentPoisoned g.1 op.size then some (s, false)
    else
      match op.kind with
      | .atomic f _ =>
        let r := atomLanes f (8 * op.size) (s.readLE g.1 op.size) g.2
        let s := (s.write g.1 op.size r.1)
        let s := loseReservations s l agentNone
        let got := r.2.foldl (fun m e => SMap.put m e.1 e.2) op.got
        let s := s.mapCore core (fun c => { c with ops := c.ops.map (fun p => if p.serial = op.serial then { p with got := got } else p) })
        some (wakeEvents s l, true)
      | _ => some (s, true)

/-- The access as the core holds it now. -/
def findOp (s : State) (core serial : Nat) : Option MemOp := (s.core core).ops.find? (fun p => p.serial == serial)

/-- Perform what is left of an atomic's requests, in order; the last component is the address of a poisoned word. -/
def performAll (s : State) (core serial : Nat) : Nat → Option (State × Option Nat)
  | 0 => some (s, none)
  | n + 1 =>
    match findOp s core serial with
    | none => some (s, none)
    | some op =>
      match op.groupsLeft with
      | [] => some (s, none)
      | g :: _ =>
        match performGroup s core op g with
        | none => none
        | some (s, false) => some (s, some g.1)
        | some (s, true) => performAll s core serial n

/-- A LOCKTRY's result reaches its path: each lane's success, and where failing and succeeding lanes go (R62, R63, R65). -/
def deliverLock (s : State) (core : Nat) (op : MemOp) : State :=
  let ok := Mask.ofFn (fun l => decide (SMap.find? op.got l = some 0))
  let on := op.laneMask
  let s := s.mapTray core op.slot (fun t => t.setPred op.dst on ok)
  let s := recordWatch (dropOp s core op) core op.slot op.watch
  match s.tray core op.slot with
  | none => s
  | some t =>
    let t := t.mapPath op.path (fun p => { p with wait := none })
    let s := verdict s core op.slot t op.path op.pc ok (on &&& ~~~ok) Fld.CO_PATH_SWITCH_LOCK_FAIL
    let s := match s.tray core op.slot with
      | some t => if t.canRun then s else s.demote core op.slot
      | none => s
    trayProgress s core op.slot

/-! ### The two events -/

/-- Data of an outstanding load, reserved load or fetching atomic arrives (R229). `e` is what the code found in the line
of the first lane. -/
def doLoadReturn (core k : Nat) (e : LineEcc) (s : State) : State :=
  match (s.core core).ops[k]? with
  | none => s
  | some op =>
    let c := s.core core
    let first := ((op.lanes.head?).map (fun a => a.addr)).getD 0
    let fl := lineOf first
    if op.host || !(mayPerform c op) || s.domainStopped then s
    else
      match e with
      | .l1Tag => noteLineEcc s e core fl (first / 32)
      | .l2Tag => noteLineEcc s e core fl (first / 32)
      | .flitControl => noteLineEcc s e core fl (first / 32)
      | .l1Uncorrectable =>
        -- a clean line is invalidated and refetched; a dirty one goes home poisoned and the access faults (R185)
        (match SMap.find? (s.line fl).l1 core with
         | some .m =>
           let s := (victimOffer s core fl).setPoison (first / 32) true
           failOp (s.rbump Fld.CO_LS_ERRORS_UNCORRECTABLE 1 core) core op stUncorrectable first op.laneMask
         | some _ =>
           (s.mapLine fl (fun x => { x with l1 := SMap.del x.l1 core })).rbump Fld.CO_LS_ERRORS_CORRECTED 1 core
         | none => s)
      | _ =>
        match op.kind with
        | .load isSigned =>
          let bad := op.lanes.filter (fun a => beyondSlot s a.addr op.size)
          (match bad with
           | b :: _ => failOp s core op stBound b.addr (Mask.ofFn (fun l => bad.any (fun a => a.lane == l)))
           | [] =>
             match overLines (fun s l => readLine s core l op.policy op.near) op.lines s with
             | none => s
             | some s =>
               let s := noteLineEcc s e core fl (first / 32)
               if s.lines.any (fun x => decide (op.lines.contains x.1 = true) && x.2.reloadAt.isSome) then s
               else
                 let q := forwarded c op
                 let bad := op.lanes.filter (fun a => readPoisoned s q a.addr op.size)
                 match bad, e with
                 | b :: _, _ => failOp s core op stUncorrectable b.addr (Mask.ofFn (fun l => bad.any (fun a => a.lane == l)))
                 | [], .flitPoisoned => failOp s core op stUncorrectable first op.laneMask
                 | [], _ => deliverLoad s core op isSigned (op.lanes.map (fun a => (a.lane, overlayLE s q a.addr op.size))))
        | .reserved =>
          (match overLines (fun s l => ownLine s core l) op.lines s with
           | none => s
           | some s =>
             let s := noteLineEcc s e core fl (first / 32)
             if s.lines.any (fun x => decide (op.lines.contains x.1 = true) && x.2.reloadAt.isSome) then s
             else
               let bad := op.lanes.filter (fun a => s.extentPoisoned a.addr op.size)
               match bad with
               | b :: _ => failOp s core op stUncorrectable b.addr (Mask.ofFn (fun l => bad.any (fun a => a.lane == l)))
               | [] =>
                 let s := setReservations s core op
                 deliverLoad s core op false (op.lanes.map (fun a => (a.lane, s.readLE a.addr op.size))))
        | .atomic f true =>
          let s := noteLineEcc s e core fl (first / 32)
          (match performAll s core op.serial op.lanes.length with
           | none => s
           | some (s, some a) => failOp s core op stUncorrectable a op.laneMask
           | some (s, none) =>
             match findOp s core op.serial with
             | none => s
             | some op =>
               if f = .lockTry then deliverLock s core op
               else deliverLoad s core op false (op.lanes.map (fun a => (a.lane, SMap.get op.got a.lane 0))))
        | _ => s

/-- A store, or an atomic that returns nothing, is accepted by its target (R189). -/
def doStoreAccepted (core k : Nat) (s : State) : State :=
  match (s.core core).ops[k]? with
  | none => s
  | some op =>
    if op.host || !(mayPerform (s.core core) op) || s.domainStopped then s
    else
      match op.kind with
      | .store =>
        let bad := op.lanes.filter (fun a => beyondSlot s a.addr op.size)
        (match bad with
         | b :: _ =>
           let lanes := op.lanes.filter (fun a => !(beyondSlot s a.addr op.size) && Config.sramDone op.serial a.lane)
           let s := s.writePieces (orderPieces op.serial (lanes.flatMap (piecesOf op.size)))
           failOp s core op stBound b.addr (Mask.ofFn (fun l => bad.any (fun a => a.lane == l)))
         | [] =>
           let ps := op.pieces
           let step := fun (r : Option (State × List Nat × List Nat)) (l : Nat) =>
             r.bind (fun e =>
               let whole := (List.range 4).all (fun i => coversWord ps (4 * l + i))
               (writeLine e.1 core l op.policy op.near whole).map (fun w =>
                 (w.1, (if w.2.1 then e.2.1 else l :: e.2.1), (if w.2.2 then l :: e.2.2 else e.2.2))))
           match op.lines.foldl step (some (s, [], [])) with
           | none => s
           | some (s, lost, home) =>
             let s := s.writePieces (ps.filter (fun p => !(lost.contains (lineOf p.1))))
             let s := op.lines.foldl (fun s l => loseOnCore s core op.slot l) s
             let s := home.foldl wakeEvents s
             endOp s core op)
      | .atomic _ false =>
        (match performAll s core op.serial op.lanes.length with
         | none => s
         | some (s, some a) => failOp s core op stUncorrectable a op.laneMask
         | some (s, none) => endOp s core op)
      | _ => s

/-- An atomic request reaches its target: the next request of the k-th access of the core is performed (R231). -/
def doAtomicAt (core k : Nat) (s : State) : State :=
  match (s.core core).ops[k]? with
  | none => s
  | some op =>
    match op.kind, op.groupsLeft with
    | .atomic _ _, g :: _ =>
      if !(mayPerform (s.core core) op) || s.domainStopped then s
      else match performGroup s core op g with
        | none => s
        | some (s, true) => s
        | some (s, false) => failOp s core op stUncorrectable g.1 op.laneMask
    | _, _ => s

/-! ### STC -/

/-- A line that a store-conditional writes: in the L1 it is M; a core that has no L1 writes it at the home (R186, R230, R243).
None while the home cannot take the write. -/
def stcTake (s : State) (core l : Nat) : Option State :=
  match SMap.find? (s.line l).l1 core with
  | some _ => some (s.mapLine l (fun z => { z with l1 := SMap.put z.l1 core .m }))
  | none => wholeReq s l .wrThru core

/-- STC: the lanes that still hold their reservations store (R71, R243, R244). -/
def doStc (o : TrayOp) (s : State) : State :=
  let k := regCount o.bytes
  let pd := o.dst.toNat
  windowAccess o s winW
    (fun L => decide (o.srcB.toNat = codeZero) && decide (pd < 7) && legalRegs L o.srcC.toNat k &&
      [2, 3].contains o.sizeCode && semLegal o false true false)
    (predReg pd :: regsOf o.srcC.toNat k)
    (fun x w offs =>
      let lanes := offs.map (fun e => ({
        lane := e.1, addr := w.base + e.2, data := x.regsVal o.srcC.toNat k e.1 % 2 ^ (8 * o.bytes) } : LaneAcc))
      let ops := trayOps (x.s.core x.core) x.slot
      if lanes.any (fun a => isHost a.addr || isSram a.addr) then x.fault stWindow (offs.headD (0, 0)).2 x.on.toNat o.win
      else if !(acquiresDone ops x.on) || (o.rel && !(releaseDone ops (some x.t) x.on o.scope)) then x.s
      else
        let res := stcLanes x w.near lanes []
        let pick := fun (e : StcEnd) => res.filter (fun p => p.2 = e)
        let okMask := Mask.ofFn (fun l => (pick .ok).any (fun p => p.1.lane == l))
        let watch := watchHits x.s x.core 2 (lanes.map (fun a => (a.addr, o.bytes)))
        let y := x.noteIssue.bumpSerial
        let won := (pick .ok).map (fun p => lineOf p.1.addr)
        let home := won.filter (fun l => (SMap.find? (x.s.line l).l1 x.core).isNone)
        match overLines (fun s l => stcTake s x.core l) won y.s with
        | none => x.s
        | some s =>
        let s := won.foldl (fun s l => loseOnCore s x.core x.slot l) s
        let s := s.writePieces (orderPieces x.serial ((pick .ok).flatMap (fun p => piecesOf o.bytes p.1)))
        let s := home.foldl wakeEvents s
        let s := s.rbump Fld.CO_RES_STATS_STC_OK (pick .ok).length x.core
        let s := s.rbump Fld.CO_RES_STATS_STC_CONFLICT (pick .conflict).length x.core
        let s := s.rbump Fld.CO_RES_STATS_STC_SPURIOUS (pick .spurious).length x.core
        let left := (y.t.resv.filter (fun r => !(Mask.has x.on r.lane))).map (fun r => { r with held := false })
        let pend : Pend := {
          serial := x.serial, kind := .plain, regs := [predReg pd]
          preds := [{ p := pd, lanes := x.on, val := okMask }] }
        let t := { y.t with resv := left, pend := y.t.pend ++ [pend] }
        let t := t.mapPath x.p.id (fun p => { p with pc := x.p.pc + 1, issued := p.issued + 1 })
        let s := verdict s x.core x.slot t x.p.id (x.p.pc + 1) okMask (x.on &&& ~~~okMask) Fld.CO_PATH_SWITCH_SC_FAIL
        let s := match s.tray x.core x.slot with
          | some t => if t.canRun then s else s.demote x.core x.slot
          | none => s
        if watch = 0 then s else (recordWatch s x.core x.slot watch).haltTray x.core x.slot)

def execStc (o : TrayOp) (s : State) : Out State := .next (s.onClock (doStc o s))

end Sys2Proof.Machine
end

