-- ==== Sys2Proof/Machine/Tray.lean ====
section
/-!
DEFINITION. Machine/Tray.lean: the life of trays and sheets: completion of instructions (R51, R75, R89), active slots
(R54 to R56), placement of sheets (R39, R40, R122, R184, R249, R251, R254), retirement (R41, R102, R123, R253), and the
debugger's HALT, STEP and RESUME (R76 to R79, R434).
-/
namespace Sys2Proof.Machine

/-! ### Completion of an instruction (R51, R75, R89) -/

/-- Take an entry of the scoreboard away and apply its result. -/
def Tray.finish (t : Tray) (p : Pend) (keep : Bool) : Tray :=
  let t := p.writes.foldl Tray.applyWrite t
  let t := p.preds.foldl (fun t w => t.setPred w.p w.lanes w.val) t
  if keep then t else { t with pend := t.pend.filter (fun q => q.serial != p.serial) }

/-- An instruction in flight completes. A committing matrix instruction is final here and completes at its drain's end
(R89); what the load/store unit or the vector engine still owes comes with their own events. -/
def doCompletion (core slot k : Nat) (s : State) : State :=
  match s.tray core slot with
  | none => s
  | some t =>
    match t.pend[k]? with
    | none => s
    | some p =>
      match p.kind with
      | .external _ => s
      | .row row fmt elems =>
        let ctx := ((s.launch t.launch).map (fun L => L.context)).getD 0
        let s := s.setTray core slot (t.finish p false)
        trayProgress (s.mapCore core (fun c =>
          { c with rows := SMap.put c.rows row { valid := true, fmt := fmt, tag := ctx, elems := elems } })) core slot
      | .matrix set commit =>
        -- instructions on one set complete in issue order (R80)
        let earlier := t.pend.take k
        if earlier.any (fun q => match q.kind with
            | .matrix i _ => i == set
            | _ => false) then s
        else
          let s := s.setTray core slot (t.finish p commit.isSome)
          let later := (t.pend.drop (k + 1)).any (fun q => match q.kind with
            | .matrix i _ => i == set
            | _ => false)
          trayProgress (s.mapCore core (fun c =>
            { c with sets := SMap.update c.sets set (fun a => { a with final := !later }) })) core slot
      | _ => trayProgress (s.setTray core slot (t.finish p false)) core slot

/-! ### Active and pending trays (R54 to R56) -/

/-- Trays of a core in active slots. -/
def activeCount (c : Core) : Nat := (c.trays.filter (fun e => e.2.active)).length

/-- Has the launch's work on the core stopped (R17, R257)? -/
def launchStopped (s : State) (core launch : Nat) : Bool :=
  match s.launch launch with
  | some L => L.stopped.contains core || L.aborting
  | none => true

/-- Could a pending tray be promoted (R55)? Whether its next instruction is blocked by its scoreboard shows when it issues. -/
def Tray.ready (t : Tray) (s : State) (core slot : Nat) : Bool :=
  !t.active && !t.yieldHold && t.canRun && (!t.halted || chainOpen s core slot) && !(launchStopped s core t.launch)

/-- An active tray that has been ineligible for 64 cycles while a pending tray is ready is demoted (R54). -/
def doDemoteTimeout (core slot : Nat) (s : State) : State :=
  if (s.core core).trays.any (fun e => e.1 != slot && e.2.ready s core e.1) then s.demote core slot else s

/-- A yield hold ends (R56). -/
def doYieldHoldEnd (core slot : Nat) (s : State) : State := s.mapTray core slot (fun t => { t with yieldHold := false })

/-- A ready pending tray takes a free active slot (R55); one that stands at a breakpoint halts instead (R434). -/
def doPromote (core slot : Nat) (s : State) : State :=
  match s.tray core slot with
  | none => s
  | some t =>
    if coresRun s && t.ready s core slot && decide (activeCount (s.core core) < 16) then
      match s.launch t.launch, t.path with
      | some L, some p =>
        let x : Ctx := { s := s, core := core, slot := slot, t := t, p := p, L := L, act := p.lanes, on := p.lanes }
        if x.atBreak then s.breakHalt core slot (x.chainPcs 4 p.pc)
        else (s.setTray core slot { t with active := true }).rbump Fld.CO_ISSUE_STATS_PROMOTE 1 core
      | _, _ => s
    else s

/-! ### Leaving a core (R41, R102, R123) -/

/-- A sheet leaves a core: its entries become FREE, those FILLING at the end of their drain; its launch's bank is closed
when no sheet of it is left there. -/
def sheetLeaves (s : State) (core : Nat) (h : Sheet) : State :=
  let s := s.mapCore core (fun c =>
    { c with
      sheets := c.sheets.filter (fun g => g.uid != h.uid)
      tq := c.tq.filter (fun e => e.2.sheet != h.uid || e.2.state == TqState.filling) })
  if (s.core core).sheets.any (fun g => g.launch == h.launch) then s else s.closeBank core h.launch

/-- Discard the OPEN sets a tray owns: CO_MX_ERRORS.DISCARDS counts them (R102). -/
def discardOpen (s : State) (core slot : Nat) : State :=
  let mine := (s.core core).sets.filter (fun e => e.2.owner == slot && e.2.state == AccState.openTile)
  let s := s.mapCore core (fun c => { c with sets := c.sets.filter (fun e => !(e.2.owner == slot && e.2.state == AccState.openTile)) })
  s.rbump Fld.CO_MX_ERRORS_DISCARDS mine.length core

/-- A tray leaves its slot. -/
def trayLeaves (s : State) (core slot : Nat) : State :=
  let s := s.mapCore core (fun c => { c with trays := SMap.del c.trays slot })
  let w := s.rget Fld.DB_TRAY_HALTED_HALTED core
  s.rput Fld.DB_TRAY_HALTED_HALTED (w - bits w slot 1 * 2 ^ slot) core

/-- The barriers a tray of a launch takes part in on a core. -/
def barriersOf (s : State) (core : Nat) (t : Tray) : List BarAt :=
  (List.range 3).flatMap (fun sc => (List.range 4).filterMap (fun i => barAt s core t sc i))

/-- A retired tray no longer counts at its barriers, which may complete a phase (R253). -/
def leaveBarriers (s : State) (bars : List BarAt) : State :=
  bars.foldl (fun s b =>
    let s := match b with
      | .sheet _ _ _ => s
      | .block bk k _ => s.rput Fld.BK_BAR_SLOT_EXPECTED (s.rget Fld.BK_BAR_SLOT_EXPECTED bk k - 1) bk k
      | .device k _ => s.rput Fld.FE_DBAR_SLOT_EXPECTED (s.rget Fld.FE_DBAR_SLOT_EXPECTED 0 k - 1) 0 k
    barPhase s b) s

/-- A gang launch's hub slots and device slots become free (R254, R263). -/
def freeGang (s : State) (L : Launch) : State :=
  let s := (List.range 24).foldl (fun s b => (hubSlots s b L.serial).foldl (fun s k =>
    [Fld.BK_BAR_SLOT_COUNT, Fld.BK_BAR_SLOT_EXPECTED, Fld.BK_BAR_SLOT_SENSE, Fld.BK_BAR_SLOT_VALID, Fld.BK_BAR_SLOT_CONTEXT,
      Fld.BK_BAR_SLOT_LAUNCH].foldl (fun s f => s.rput f 0 b k) s) s) s
  match L.dbar with
  | none => s
  | some base =>
    let s := (List.range 4).foldl (fun s i =>
      [Fld.FE_DBAR_SLOT_COUNT, Fld.FE_DBAR_SLOT_EXPECTED, Fld.FE_DBAR_SLOT_SENSE, Fld.FE_DBAR_SLOT_VALID,
        Fld.FE_DBAR_SLOT_CONTEXT].foldl (fun s f => s.rput f 0 0 (base + i)) s) s
    s.mapLaunch L.serial (fun L => { L with dbar := none })

/-- Nothing of a tray is in flight (R75). -/
def trayQuiet (s : State) (core slot : Nat) (t : Tray) : Bool :=
  t.pend.isEmpty && (trayOps (s.core core) slot).isEmpty && !((s.core core).veq.any (fun e => e.slot == slot)) &&
    decide (t.remotes = 0) && decide (t.descs = 0)

/-- A tray retires once every lane has executed EXIT and everything it issued has completed or been accepted; the last
tray retires its sheet (R41, R102, R174, R327). -/
def doRetire (core slot : Nat) (s : State) : State :=
  match s.tray core slot with
  | none => s
  | some t =>
    if t.live = 0 ∧ trayQuiet s core slot t = true then
      let bars := barriersOf s core t
      let s := trayLeaves (discardOpen s core slot) core slot
      let s := leaveBarriers s bars
      if sheetTrays (s.core core) t.sheet ≠ 0 then s
      else
        match (s.core core).sheet? t.sheet with
        | none => s
        | some h =>
          let s := sheetLeaves s core h
          let s := s.mapLaunch t.launch (fun L => { L with retired := L.retired + 1 })
          match s.launch t.launch with
          | some L => if L.sheets ≤ L.retired then freeGang s L else s
          | none => s
    else s

/-! ### Placement (R39, R40, R249, R254) -/

/-- Is the device a member of a job set (R6)? -/
def fabricMode (s : State) : Bool := (List.range 64).any (fun i => s.flag Fld.EL_JOBSET_STATE 0 i && s.flag Fld.EL_JOBSET_MEMBER 0 i)

def regionOn (s : State) (r : Nat) : Bool := decide (s.rget (Fld.PM_REGION_STATE_STATE r) = 0)

def coreOffline (s : State) (core : Nat) : Bool := Nat.testBit (s.rget Fld.BK_CORE_OFFLINE_CELLS (core / 8)) (core % 8)

/-- Does a core accept a sheet of a launch at a place in its scratchpad (R19, R39, R40, R171, R249, R386)? The place is a
multiple of 4 KiB. -/
def fitsCore (s : State) (L : Launch) (core base : Nat) : Bool :=
  let c := s.core core
  let used := c.trays.foldl (fun a e => a + ((s.launch e.2.launch).map (fun M => M.regs)).getD 0) 0
  let others := (c.sheets.filter (fun h => h.launch != L.serial)).filterMap (fun h => s.launch h.launch)
  decide (core < 192) && coresRun s && !(coreOffline s core) && !c.silent && regionOn s (regionOf core) &&
    decide (c.trays.length + L.trays ≤ 64) && decide (used + L.trays * L.regs ≤ 2048) &&
    (c.sheets.isEmpty || decide (c.l1KiB = L.l1)) && decide (base % 4096 = 0) &&
    decide (base + L.scratch ≤ (1024 - L.l1) * 1024) &&
    c.sheets.all (fun h => decide (h.size = 0) || decide (L.scratch = 0) || decide (base + L.scratch ≤ h.base) || decide (h.base + h.size ≤ base)) &&
    decide ((others.map (fun M => M.serial)).eraseDups.length < 4) &&
    others.all (fun M => decide (M.counterMask &&& L.counterMask = 0)) &&
    (!L.aligned ||
      (!(c.sheets.any (fun h => h.launch == L.serial)) &&
        (List.range 8).all (fun i => ((s.core (8 * (core / 8) + i)).sheets.filter (fun h => h.launch == L.serial)).all
          (fun h => decide (h.base = base)))))

/-- Change a core's L1 size: dirty lines go home, the L1 is invalidated, and what passes to scratchpad is zeroed (R184). -/
def changeSplit (s : State) (core kib : Nat) : State :=
  let old := (s.core core).l1KiB
  if old = kib then s
  else
    let s := s.lines.foldl (fun s e =>
      match SMap.find? e.2.l1 core with
      | none => s
      | some st =>
        let s := if st = .m then l2Alloc s e.1 true false else s
        s.mapLine e.1 (fun x => { x with l1 := SMap.del x.l1 core })) s
    let s := s.mapCore core (fun c => { c with l1KiB := kib, l1 := [] })
    let s := s.rbump Fld.CO_LS_ERRORS_SPLITS 1 core
    if kib < old then s.zeroExtent (sramAddr core ((1024 - old) * 1024)) ((old - kib) * 1024) else s

/-- The counters of a mask take a context's tag; one that changes its tag with a value is counted (R251). -/
def tagCounters (s : State) (core mask context : Nat) : State :=
  (List.range 48).foldl (fun s i =>
    if Nat.testBit mask i then
      let mine := s.flag Fld.CO_SYNC_VALUE_TAGGED core i && decide (s.rget Fld.CO_SYNC_VALUE_CONTEXT core i = context)
      if mine then s
      else
        let s := if s.counter core i = 0 then s else s.rbump Fld.CO_SYNC_STATS_INHERITED 1 core
        (s.rput Fld.CO_SYNC_VALUE_TAGGED 1 core i).rput Fld.CO_SYNC_VALUE_CONTEXT context core i
    else s) s

/-- Take a lock group to RELEASING; a PRELOAD that runs into it stops at its next line (R201). -/
def releaseGroup (s : State) (g : Nat) : State :=
  let st := s.rget Fld.L2_GROUP_STATE 0 g
  if st = groupLoading ∨ st = groupLocked then s.rput Fld.L2_GROUP_STATE groupReleasing 0 g else s

def releaseGroups (s : State) (context : Nat) : State :=
  (List.range 16).foldl (fun s g =>
    if s.rget Fld.L2_GROUP_CONTEXT 0 g = context ∧ s.rget Fld.L2_GROUP_STATE 0 g ≠ groupFree then releaseGroup s g else s) s

/-- In fabric mode a core clears its counters, rows and tables at a context switch, and the device releases the outgoing
context's lock groups (R95, R164, R263). -/
def clearCore (s : State) (core outgoing : Nat) : State :=
  let s := (List.range 48).foldl (fun s i =>
    [Fld.CO_SYNC_VALUE_VALUE, Fld.CO_SYNC_VALUE_CONTEXT, Fld.CO_SYNC_VALUE_TAGGED].foldl (fun s f => s.rput f 0 core i) s) s
  releaseGroups (s.mapCore core (fun c => { c with rows := [], tables := [] })) outgoing

/-- The first sheet of another context comes to a core that holds none: a switch at a node boundary (R263, R289). -/
def boundarySwitch (s : State) (core context : Nat) : State :=
  let c := s.core core
  let s := match c.lastContext with
    | none => s
    | some old =>
      if c.sheets.isEmpty ∧ old ≠ context then
        let s := s.rbump Fld.FE_SWITCH_STATS_BOUNDARY
        if fabricMode s then clearCore s core old else s
      else s
  s.mapCore core (fun c => { c with lastContext := some context })

/-- The free tray slots of a core, lowest first. -/
def freeSlots (c : Core) : List Nat := (List.range 64).filter (fun i => (SMap.find? c.trays i).isNone)

/-- A tray of a sheet that has not run. -/
def newTray (L : Launch) (uid index seed : Nat) : Tray :=
  { launch := L.serial, sheet := uid, index := index, seed := seed, stamp := seed
    paths := [{ id := 0, pc := 0, lanes := BitVec.allOnes 32 }] }

/-- Restart a saved tray's timers with what was left of them (R75, R78). -/
def rearm (s : State) (context : Nat) (t : Tray) : Tray :=
  let back := fun (tm : Timer) => { tm with mark := s.clockOf context - tm.mark }
  { t with paths := t.paths.map (fun p => { p with
      wait := p.wait.map (fun w => { w with timer := w.timer.map back, lend := w.lend.map back }) }) }

/-- What a sheet finds on the core that takes it: the split, the bank, the counters' tags, its zeroed scratchpad. -/
def prepareCore (s : State) (L : Launch) (core base : Nat) : State :=
  let s := boundarySwitch s core L.context
  let s := changeSplit s core L.l1
  let s := s.zeroExtent (sramAddr core base) L.scratch
  tagCounters (s.assignBank core L.serial L.context) core L.counterMask L.context

/-- Place the launch's next sheet (R39). -/
def placeNew (s : State) (L : Launch) (core base : Nat) : State :=
  let s := prepareCore s L core base
  let uid := s.nextUid
  let h : Sheet := {
    uid := uid, launch := L.serial, index := L.nextSheet, base := base, size := L.scratch, trays := L.trays, placedAt := s.now }
  let slots := (freeSlots (s.core core)).take L.trays
  let fresh := (slots.zip (List.range L.trays)).map (fun e => (e.1, newTray L uid e.2 (64 * uid + e.2)))
  let s := s.mapCore core (fun c => { c with
    sheets := c.sheets ++ [h], trays := fresh.foldl (fun m e => SMap.put m e.1 e.2) c.trays })
  let s := { s with nextUid := uid + 1 }
  s.mapLaunch L.serial (fun L => { L with nextSheet := L.nextSheet + 1 })

/-- Could a saved sheet's tiles and entries go back into their indices (R103)? -/
def holdsFree (c : Core) (v : SavedSheet) : Bool :=
  v.sets.all (fun e => (c.accSet e.1).state == AccState.free) && v.tq.all (fun e => (c.entry e.1).state == TqState.free)

/-- Restore a saved sheet (R75, R95, R103, R290). -/
def placeSaved (s : State) (L : Launch) (v : SavedSheet) (core base : Nat) : State :=
  let joins := (s.core core).sheets.any (fun h => h.launch == L.serial)
  let s := prepareCore s L core base
  let uid := s.nextUid
  let h : Sheet := { v.sheet with uid := uid, base := base, placedAt := s.now }
  let slots := (freeSlots (s.core core)).take v.trays.length
  let moved := slots.zip v.trays
  let slotFor := fun (old : Nat) => ((moved.find? (fun e => e.2.1 == old)).map (fun e => e.1)).getD 0
  let s := s.mapCore core (fun c => { c with
    sheets := c.sheets ++ [h]
    trays := moved.foldl (fun m e => SMap.put m e.1 { rearm s L.context e.2.2 with sheet := uid }) c.trays
    sets := v.sets.foldl (fun m e => SMap.put m e.1 { e.2 with owner := slotFor e.2.owner }) c.sets
    tq := v.tq.foldl (fun m e => SMap.put m e.1 { e.2 with sheet := uid }) c.tq
    rows := v.rows.foldl (fun m e => SMap.put m e.1 e.2) c.rows
    tables := v.tables.foldl (fun m e => SMap.put m e.1 e.2) c.tables })
  let a := sramAddr core base
  let s := { s with
    mem := v.bytes.foldl (fun m (e : Nat × Byte) => SMap.store m (a + e.1) (unlisted s.undef (a + e.1)) e.2) s.mem
    poison := v.poison.foldl (fun m (e : Nat × Bool) => SMap.put m (a / 32 + e.1) e.2) s.poison
    nextUid := uid + 1 }
  let s := if joins then s else v.counters.foldl (fun s e => s.rput Fld.CO_SYNC_VALUE_VALUE e.2.toNat core e.1) s
  let halted := (moved.filter (fun e => e.2.2.halted)).foldl (fun m e => m ||| 2 ^ e.1) (s.rget Fld.DB_TRAY_HALTED_HALTED core)
  s.rput Fld.DB_TRAY_HALTED_HALTED halted core

/-- Descriptors of saved sheets that were held go to the mover of the block their sheet is now in (R174). -/
def rehome (s : State) (v : SavedSheet) (core uid : Nat) : State :=
  let b := blockOf v.core
  let mine := ((SMap.get s.movers b {}).queue.filter (fun d => d.launch == v.sheet.launch && d.core == v.core))
  if mine.isEmpty then s
  else
    let slotNow := fun (d : Desc) => ((List.find? (fun (e : Nat × Tray) =>
      decide (e.2.sheet = uid) && decide ((SMap.find? v.trays d.slot).map (fun t => t.index) = some e.2.index)) (s.core core).trays).map
        (fun e => e.1)).getD d.slot
    let movers := SMap.update s.movers b (fun m => { m with queue := m.queue.filter (fun d => !(d.launch == v.sheet.launch && d.core == v.core)) })
    let here := SMap.get movers (blockOf core) {}
    { s with movers := SMap.put movers (blockOf core) { here with queue := here.queue ++ mine.map (fun d => { d with core := core, slot := slotNow d }) } }

/-- Place or restore sheets one after another; none when a core does not accept one. -/
def placeAll (s : State) (serial : Nat) : List (Nat × Nat) → Option State
  | [] => some s
  | (core, base) :: rest =>
    match s.launch serial with
    | none => none
    | some L =>
      if !(fitsCore s L core base) then none
      else
        match L.saved with
        | v :: vs =>
          if holdsFree (s.core core) v then
            let s := rehome (placeSaved s L v core base) v core s.nextUid
            placeAll (s.mapLaunch serial (fun L => { L with saved := vs })) serial rest
          else none
        | [] => if L.nextSheet < L.sheets then placeAll (placeNew s L core base) serial rest else none

/-- Sheets that shared a block share one again, and no two blocks become one (R174, R254). -/
def keepsBlocks (L : Launch) (spots : List (Nat × Nat)) : Bool :=
  let pairs := (L.saved.zip spots).map (fun e => (e.1.block, blockOf e.2.1))
  pairs.all (fun p => pairs.all (fun q => decide (p.1 = q.1) == decide (p.2 = q.2))) &&
    (!L.aligned || (L.saved.zip spots).all (fun p => (L.saved.zip spots).all (fun q =>
      !(decide (p.1.block = q.1.block) && decide (p.1.core < q.1.core)) || decide (p.2.1 < q.2.1))))

/-- Four free slots of the hub of a block. -/
def hubFree (s : State) (b : Nat) : List Nat := ((List.range 16).filter (fun i => !(s.flag Fld.BK_BAR_SLOT_VALID b i))).take 4

/-- A group of four free slots of the device unit, at a multiple of four. -/
def unitFree (s : State) : Option Nat :=
  ((List.range 16).find? (fun g => (List.range 4).all (fun i => !(s.flag Fld.FE_DBAR_SLOT_VALID 0 (4 * g + i))))).map (fun g => 4 * g)

/-- Give a gang launch its hub slots in every block it occupies and its slots in the device unit (R254); a restored one's
barriers come back with their count and sense bit. None when slots are missing. -/
def gangSlots (s : State) (L : Launch) (spots : List (Nat × Nat)) : Option State :=
  let blocks := (spots.map (fun p => blockOf p.1)).eraseDups
  let oldOf := fun (b : Nat) => (((L.saved.zip spots).find? (fun e => blockOf e.2.1 == b)).map (fun e => e.1.block)).getD 99
  match unitFree s with
  | none => none
  | some base =>
    if blocks.any (fun b => decide ((hubFree s b).length < 4)) then none
    else
      let live := fun (b : Nat) => (s.core b).trays
      let s := blocks.foldl (fun s b =>
        let mine := (List.range 8).foldl (fun n i => n + ((live (8 * b + i)).filter (fun e => e.2.launch == L.serial)).length) 0
        ((hubFree s b).zip (List.range 4)).foldl (fun s e =>
          let sv := SMap.get L.bars (4 * oldOf b + e.2) (0, false)
          let s := ((s.rput Fld.BK_BAR_SLOT_VALID 1 b e.1).rput Fld.BK_BAR_SLOT_LAUNCH L.serial b e.1).rput Fld.BK_BAR_SLOT_CONTEXT L.context b e.1
          ((s.rput Fld.BK_BAR_SLOT_EXPECTED mine b e.1).rput Fld.BK_BAR_SLOT_COUNT sv.1 b e.1).rput Fld.BK_BAR_SLOT_SENSE (b2n sv.2) b e.1) s) s
      let total := s.cores.foldl (fun n c => n + (c.2.trays.filter (fun e => e.2.launch == L.serial)).length) 0
      let s := (List.range 4).foldl (fun s i =>
        let k := base + i
        let sv := SMap.get L.bars (96 + i) (0, false)
        let s := (s.rput Fld.FE_DBAR_SLOT_VALID 1 0 k).rput Fld.FE_DBAR_SLOT_CONTEXT L.context 0 k
        ((s.rput Fld.FE_DBAR_SLOT_EXPECTED total 0 k).rput Fld.FE_DBAR_SLOT_COUNT sv.1 0 k).rput Fld.FE_DBAR_SLOT_SENSE (b2n sv.2) 0 k) s
      some (s.mapLaunch L.serial (fun L => { L with dbar := some base, bars := [] }))

/-- Does a launch have a MAILBOX argument? -/
def hasMailbox (L : Launch) : Bool := L.windows.any (fun w => w.mailbox)

/-- A launch with a MAILBOX argument takes a free mailbox page when it is placed; none when it finds no page (R23, R295). -/
def takeMailbox (s : State) (L : Launch) : Option State :=
  if !(hasMailbox L) || L.mailbox.isSome then some s
  else
    let taken := s.launches.filterMap (fun e => e.2.mailbox)
    match (List.range (taken.length + 1)).find? (fun p => !(taken.contains p) && decide (p < 4096)) with
    | none => none
    | some p =>
      let a := carveBase s + mailboxOff + 4096 * p
      some ((s.zeroExtent a 4096).mapLaunch L.serial (fun L => { L with
        mailbox := some p, windows := L.windows.map (fun w => if w.mailbox then { w with base := a } else w) }))

/-- The front end places sheets of a launch: one of an ordinary launch, all of a gang launch at once, saved ones first. A
launch under START_AT waits for it (R39, R254, R280). -/
def doPlace (launch : Nat) (spots : List (Nat × Nat)) (s : State) : State :=
  match s.launch launch with
  | none => s
  | some L =>
    let want := if L.gang then (if L.saved.isEmpty then L.sheets else L.saved.length) else 1
    let fresh := L.saved.isEmpty
    if L.aborting || decide (s.now < L.startAt) || decide (spots.length ≠ want) || (L.gang && fresh && decide (L.nextSheet ≠ 0)) then s
    else if !fresh && (L.gang || L.aligned) && !(keepsBlocks L spots) then s
    else
      match (takeMailbox s L).bind (fun s => placeAll s launch spots) with
      | none => s
      | some t => if L.gang then (gangSlots t L spots).getD s else t

/-! ### The debugger (R76 to R79) -/

/-- Do the CO and DB registers of a core answer? Not while its region is OFF (R19). -/
def coreReachable (s : State) (core : Nat) : Bool := decide (s.rget (Fld.PM_REGION_STATE_STATE (regionOf core)) ≠ 2)

/-- DB_TRAY_CTRL: 1 HALT, 2 STEP, 3 RESUME (R76, R77, R79). -/
def trayCommand (s : State) (core slot cmd : Nat) : State :=
  if !(coreReachable s core) then s
  else
    let s := (s.rput Fld.DB_TRAY_CTRL_SLOT slot core).rput Fld.DB_TRAY_CTRL_CMD cmd core
    let none' := s.rput Fld.DB_TRAY_STATUS_NO_EFFECT 1 core
    match s.tray core slot with
    | none => if cmd = 0 then s else none'
    | some t =>
      let w := s.rget Fld.DB_TRAY_HALTED_HALTED core
      let cleared := s.rput Fld.DB_TRAY_HALTED_HALTED (w - bits w slot 1 * 2 ^ slot) core
      let moved : Tray := { t with halted := false, brkSkip := true }
      match cmd with
      | 1 => s.haltTray core slot
      | 2 =>
        if t.halted then
          cleared.setTray core slot { moved with stepping := true, stepIssued := false, disturbed := t.disturbed + 1 }
        else none'
      | 3 => if t.halted then cleared.setTray core slot { moved with stepping := false, stepIssued := false } else s
      | _ => s

/-- A stepped instruction has completed: the tray halts again and STEP_DONE is set (R77). A wait that has not completed
keeps its tray in the wait. -/
def doStepComplete (core slot : Nat) (s : State) : State :=
  match s.tray core slot with
  | none => s
  | some t =>
    let waits := t.paths.any (fun p => decide (p.id = t.stepPath) && (match p.wait with
      | some w => w.kind != WaitKind.reconv
      | none => false))
    if t.stepping && t.stepIssued && !waits && t.pend.isEmpty && (trayOps (s.core core) slot).isEmpty &&
        !((s.core core).veq.any (fun e => e.slot == slot)) then stepDone s core slot
    else s

def execInstructionCompletion (core : Fin 192) (slot : Fin 64) (k : Nat) (s : State) : Out State :=
  .next (s.onClock (doCompletion core slot k s))
def execTrayDemoteTimeout (core : Fin 192) (slot : Fin 64) (s : State) : Out State := .next (s.onClock (doDemoteTimeout core slot s))
def execYieldHoldEnd (core : Fin 192) (slot : Fin 64) (s : State) : Out State := .next (s.onClock (doYieldHoldEnd core slot s))
def execTrayPromote (core : Fin 192) (slot : Fin 64) (s : State) : Out State := .next (s.onClock (doPromote core slot s))
def execTrayRetire (core : Fin 192) (slot : Fin 64) (s : State) : Out State := .next (s.onClock (doRetire core slot s))
def execTrayHalt (core : Fin 192) (slot : Fin 64) (s : State) : Out State := .next (s.onClock (trayCommand s core slot 1))
def execTrayStep (core : Fin 192) (slot : Fin 64) (s : State) : Out State := .next (s.onClock (trayCommand s core slot 2))
def execTrayResume (core : Fin 192) (slot : Fin 64) (s : State) : Out State := .next (s.onClock (trayCommand s core slot 3))
def execStepComplete (core : Fin 192) (slot : Fin 64) (s : State) : Out State := .next (s.onClock (doStepComplete core slot s))

end Sys2Proof.Machine
end

