-- ==== Sys2Proof/Machine/Port.lean ====
section
/-!
DEFINITION. Machine/Port.lean: what the device itself sends on the UCIe port (R347 to R349, R353 to R355): its requests,
in their streams and under the host die's credits, and its replies and NOTIFY.
-/
namespace Sys2Proof.Machine

/-- May a request be made at all: the port is not DISABLING, DISABLED or FAILED (R355, R356). -/
def hostReachable (s : State) : Bool := decide (s.ucState < 4)

/-- The streams of R354. -/
def streamTray (core slot : Nat) : Nat := core * 64 + slot
def streamMover (block : Nat) : Nat := 0xE000 + block
def streamFe : Nat := 0xF000
def streamReload : Nat := 0xF001

/-- Data slots that a request takes of the host die's credits (R348, R349). -/
def DevReq.slots (r : DevReq) : Nat :=
  match r.kind with
  | .read => 0
  | .write => (r.len + 15) / 16
  | .signal => 1

/-- A request tag that no outstanding request carries. -/
def freeTag (s : State) : Nat :=
  ((List.range 1025).map (fun i => (s.uc.nextTag + i) % 65536)).find? (fun t => (SMap.find? s.uc.out t).isNone) |>.getD 0

/-- Send the requests that wait, in the order in which they were made, while the port is ACTIVE and credits last; at most
1,024 are outstanding (R349, R354). -/
def pumpReqs (s : State) : Nat → State
  | 0 => s
  | n + 1 =>
    match s.uc.waiting with
    | [] => s
    | r :: rest =>
      if s.ucState = 2 ∧ 0 < s.uc.dreq ∧ r.slots ≤ s.uc.slots ∧ s.uc.out.length < 1024 then
        let tag := freeTag s
        let u := s.uc
        pumpReqs ({ s with uc := { u with
          waiting := rest, out := SMap.put u.out tag { r with started := s.upClock, sentAt := s.now }, nextTag := (tag + 1) % 65536, dreq := u.dreq - 1
          slots := u.slots - r.slots } }.emit (.devReq tag r)) n
      else s

def State.pumpRequests (s : State) : State := pumpReqs s s.uc.waiting.length

/-- Make a request: it takes its place behind those that wait. -/
def State.hostReq (s : State) (r : DevReq) : State :=
  { s with uc := { s.uc with waiting := s.uc.waiting ++ [r] } }.pumpRequests

/-- An extent of the host window as pieces that cross no 256 B boundary (R347). -/
def hostPieces (a : Nat) : Nat → Nat → List (Nat × Nat)
  | _, 0 => []
  | 0, _ => []
  | n, k + 1 =>
    let len := min n (256 - a % 256)
    (a - hostBase, len) :: hostPieces (a + len) (n - len) k

def piecesIn (a n : Nat) : List (Nat × Nat) := hostPieces a n (n / 256 + 2)

/-- Replies and NOTIFY that wait for a credit go out, replies first (R349). -/
def pumpMsgs (s : State) : Nat → State
  | 0 => s
  | n + 1 =>
    let u := s.uc
    if s.ucState = 2 ∧ 0 < u.zpkt then
      match u.outbox.find? OutMsg.isReply with
      | some m => pumpMsgs ({ s with uc := { u with zpkt := u.zpkt - 1, outbox := u.outbox.erase m } }.emit m) n
      | none =>
        match u.outbox with
        | [] => s
        | m :: rest => pumpMsgs ({ s with uc := { u with zpkt := u.zpkt - 1, outbox := rest } }.emit m) n
    else s

/-- Everything that waits at the port and may go out. -/
def State.pumpPort (s : State) : State := pumpMsgs s.pumpRequests s.uc.outbox.length

/-- The completion of a host request: dropped when the port is down (R358). -/
def State.hostCpl (s : State) (rtag status data : Nat) : State :=
  if s.ucState < 4 then s.emit (.hostCpl rtag status data) else s

/-- A reply to a packet (R265). -/
def State.reply (s : State) (tag status : Nat) (results : List Nat := []) : State := s.send (.reply tag status results)

/-! ### The device's own memory as the front end and the movers reach it -/

/-- Could a line be read now: not while its channel retrains and no cache holds it (R206). -/
def lineReady (s : State) (l : Nat) : Bool :=
  !(isHbmLine l) || (channelRead s l).isSome

/-- Could an extent be read now? -/
def extentReady (s : State) (a n : Nat) : Bool := (linesOf a n).all (fun l => lineReady s l)

/-- A read by an agent that does not cache (R230): lines that no cache holds come through their channels; a poisoned or
unreachable line reads as poison, a SHARED_IMM line with a source is refetched instead. The Bool says that the read
found no poison. -/
def agentRead (s : State) (a n : Nat) : State × Nat × Bool :=
  let s := (linesOf a n).foldl (fun s l => (channelRead s l).getD s) s
  (s, s.readLE a n, !(s.extentPoisoned a n))

/-- Is the channel of an address able to take a write of the front end: ONLINE or RETRAINING (R206, R285)? -/
def channelTakes (s : State) (a : Nat) : Bool :=
  !(isHbm a) ||
    (let st := s.chanState (channelOf a)
     decide (st = chanOnline) || decide (st = chanRetraining))

end Sys2Proof.Machine
end

