-- ==== Sys2Proof/Machine/Time.lean ====
section
/-!
DEFINITION. Machine/Time.lean: machine time (R27 to R36): the count and its rate, the discipline states, the servo, and the
writes to the MT registers.
-/
namespace Sys2Proof.Machine

def mtUnset : Nat := 0
def mtFree : Nat := 1
def mtAcquiring : Nat := 2
def mtLocked : Nat := 3
def mtHoldover : Nat := 4
def mtFault : Nat := 5

def State.mtState (s : State) : Nat := s.rget Fld.MT_STATUS_STATE

/-- Is machine time under discipline? -/
def State.mtDisciplined (s : State) : Bool := decide (2 ≤ s.mtState)

/-! ### The count (R27) -/

/-- Divide and round to the nearest integer, ties to even. -/
def divEven (num : Int) (den : Nat) : Int :=
  let q := num / (den : Int)
  let r := num % (den : Int)
  if 2 * r < den then q else if (den : Int) < 2 * r then q + 1 else if q % 2 = 0 then q else q + 1

/-- The rounded increment beyond 1, in units of 2^-32 ns (R27). -/
def mtIncrement (s : State) : Int := divEven (signedOf 32 (s.rget Fld.MT_RATE_RATE) * 2 ^ 24) 1000000000

/-- One MTCLK cycle. -/
def State.tick (s : State) : State :=
  let t := truncTo 96 ((s.now * 2 ^ 32 + s.nowFrac + 2 ^ 32 : Nat) + mtIncrement s)
  { s.pass (t / 2 ^ 32 - s.now) with nowFrac := t % 2 ^ 32 }

/-- MT_RATE = clamp(freq_trim + phase_trim) (R27, R35). -/
def setRate (s : State) : State :=
  let v := signedOf 32 (s.rget Fld.MT_FREQ_TRIM_TRIM) + s.mt.phase
  let v := if v < -128000000 then -128000000 else if 128000000 < v then 128000000 else v
  s.rput Fld.MT_RATE_RATE (truncTo 32 v)

/-- Set phase_trim. -/
def setPhase (s : State) (v : Int) : State := setRate { s with mt := { s.mt with phase := v } }

/-! ### States (R30) -/

/-- Entry to ACQUIRING. -/
def mtAcquire (s : State) : State :=
  { s.rput Fld.MT_STATUS_STATE mtAcquiring with mt := { s.mt with first := true, afterStep := false, run := 0 } }

/-- Entry to LOCKED: machine time is no longer steppable (R29). -/
def mtLock (s : State) : State := (s.rput Fld.MT_STATUS_STATE mtLocked).rput Fld.MT_STATUS_STEPPABLE 0

/-- Entry to FAULT: its record, the status bit and NOTIFY kind 3 (R30, R266, R383). -/
def mtToFault (s : State) : State :=
  let before := s.mtState
  let s := (s.rput Fld.MT_STATUS_STATE mtFault).rput Fld.MT_STATUS_FAULT_SEEN 1
  let s := { s with mt := { s.mt with run := 0 } }
  let e := truncTo 64 (signedOf 32 (s.rget Fld.MT_STATUS_LAST_OFFSET))
  let s := s.logErr { kind := 0x0E, cls := 7, unit := 14, object := e, valueA := before }
  s.notify 3 0 s.now

/-- A value between two steps of a register: the manual states no rounding. -/
def roundFree (num : Int) (den : Nat) : Int :=
  let q := num / (den : Int)
  if num % (den : Int) = 0 then q else if Config.roundUp num den then q + 1 else q

/-- A trim as its register holds it. -/
def trimWord (v : Int) : Nat := if -2 ^ 31 ≤ v ∧ v < 2 ^ 31 then truncTo 32 v else (Config.trimOutside v).toNat

/-- The state after a sample with offset e, in 1/32 ns (R30). -/
def mtJudge (s : State) (e : Int) : State :=
  let near := decide (-320 ≤ e) && decide (e ≤ 320)
  let far := decide (e < -1600) || decide (1600 < e)
  let run := if near then s.mt.run + 1 else 0
  let s := { s with mt := { s.mt with run := run } }
  let st := s.mtState
  if st = mtAcquiring then (if 4 ≤ run then mtLock s else s)
  else if st = mtLocked then (if far then mtAcquire s else s)
  else if st = mtHoldover then (if far then mtToFault s else mtLock s)
  else if st = mtFault then (if 4 ≤ run then mtLock s else s)
  else s

/-- A discipline sample: the servo (R35). `e` in 1/32 ns, positive when the local count is ahead; `period` in ns. -/
def mtSample (s : State) (e : Int) (period : Nat) (fabric : Bool) : State :=
  let ns := roundFree e 32
  let sat := if ns < -2 ^ 31 then -2 ^ 31 else if 2 ^ 31 - 1 < ns then 2 ^ 31 - 1 else ns
  let s := (s.rput Fld.MT_STATUS_LAST_OFFSET (truncTo 32 sat)).rput Fld.MT_STATUS_USING_FABRIC (b2n fabric)
  let s := { s with mt := { s.mt with lastSample := s.now } }
  let acquiring := decide (s.mtState = mtAcquiring)
  if acquiring && s.mt.first && s.flag Fld.MT_STATUS_STEPPABLE then
    let t := truncTo 96 ((s.now * 2 ^ 32 + s.nowFrac : Nat) - e * 2 ^ 27)
    let s := mtJudge s e
    { s with now := t / 2 ^ 32, nowFrac := t % 2 ^ 32
             mt := { s.mt with first := false, afterStep := true, lastSample := t / 2 ^ 32 } }
  else
    let freq := signedOf 32 (s.rget Fld.MT_FREQ_TRIM_TRIM)
    let direct := acquiring && s.mt.afterStep
    let delta := if direct then roundFree (e * 8 * 1000000000) period else roundFree (e * 2 * 1000000000) period
    let s := s.rput Fld.MT_FREQ_TRIM_TRIM (trimWord (freq - delta))
    let s := { s with mt := { s.mt with first := false, afterStep := s.mt.afterStep && !direct } }
    mtJudge (setPhase s (-(roundFree (e * 8 * 1000000000) period))) e

/-- Is a PPS edge valid: one was accepted within 1.1 s? -/
def ppsValid (s : State) : Bool :=
  match s.mt.lastEdge with
  | some t => decide (s.now - t ≤ 1100000000)
  | none => false

/-- Are samples of a source in use (R31)? -/
def usesPps (s : State) : Bool :=
  s.mtDisciplined && (decide (s.rget Fld.MT_CTRL_SOURCE = 1) || decide (s.rget Fld.MT_CTRL_SOURCE = 3))

def usesFabric (s : State) : Bool :=
  s.mtDisciplined && s.flag Fld.MT_UPSTREAM_VALID &&
    (decide (s.rget Fld.MT_CTRL_SOURCE = 2) || (decide (s.rget Fld.MT_CTRL_SOURCE = 3) && !(ppsValid s)))

/-- An edge of TIME_PPS with the pin low before it and high after it for so many ns (R33): it marks a whole second. -/
def doPps (low high : Nat) (s : State) : State :=
  let apart := match s.mt.lastEdge with
    | some t => decide (500000000 ≤ s.now - t)
    | none => true
  if 2000 ≤ low ∧ 2000 ≤ high ∧ apart = true then
    let s := s.rput Fld.MT_PPS_CAPTURE_COUNT s.now
    let s := { s with mt := { s.mt with lastEdge := some s.now } }
    if usesPps s then
      let sub := (s.now % 1000000000 : Nat)
      let e : Int := if sub < 500000000 then sub else (sub : Int) - 1000000000
      let s := mtSample s (32 * e) 1000000000 false
      { s with mt := { s.mt with lastEdge := some s.now } }
    else s
  else s.rbump Fld.MT_PPS_GLITCH_COUNT

/-- The sample period in use. -/
def mtPeriod (s : State) : Nat :=
  if s.flag Fld.MT_STATUS_USING_FABRIC then s.rget Fld.MT_SYNC_PERIOD_PERIOD else 1000000000

/-- No sample for 1.1 periods (R30, R35): phase_trim drops to zero, and LOCKED becomes HOLDOVER. -/
def doSampleMissed (s : State) : State :=
  if s.mtDisciplined then
    let due := s.mt.lastSample + mtPeriod s * 11 / 10
    let s := setPhase (s.pass (due - s.now)) 0
    if s.mtState = mtLocked then
      { s.rput Fld.MT_STATUS_STATE mtHoldover with mt := { s.mt with holdSince := s.now } }
    else s
  else s

/-- Holdover has lasted longer than MT_HOLDOVER_LIMIT (R30). -/
def doHoldoverExpire (s : State) : State :=
  if s.mtState = mtHoldover then
    mtToFault (s.pass (s.mt.holdSince + s.rget Fld.MT_HOLDOVER_LIMIT_LIMIT + 1 - s.now))
  else s

/-! ### Writes (R29, R32) -/

/-- May the count be stepped by software? -/
def mtSteppable (s : State) : Bool := s.flag Fld.MT_STATUS_STEPPABLE && decide (s.mtState ≤ 2)

/-- MT_SET. -/
def mtSet (v : Nat) (s : State) : State × Nat :=
  if mtSteppable s then
    let s := { s.rput Fld.MT_SET_VALUE v with now := v % 2 ^ 64, nowFrac := 0 }
    (if s.mtState = mtUnset then s.rput Fld.MT_STATUS_STATE mtFree else s, stOk)
  else (s, stInvalidState)

/-- MT_STEP. -/
def mtStep (v : Nat) (s : State) : State × Nat :=
  if mtSteppable s then
    let t := (s.now : Int) + signedOf 64 (v % 2 ^ 64)
    if t < 0 ∨ 2 ^ 64 ≤ t then (s, stInvalidArgument)
    else ({ s.rput Fld.MT_STEP_OFFSET v with now := t.toNat }, stOk)
  else (s, stInvalidState)

/-- MT_CTRL. -/
def mtCtrl (v : Nat) (s : State) : State × Nat :=
  let src := bits v 0 2
  let en := bits v 2 1
  if src = 2 ∧ s.rget Fld.MT_UPSTREAM_VALID = 0 then (s, stInvalidState)
  else
    let was := s.flag Fld.MT_CTRL_ENABLE && s.flag Fld.MT_CTRL_SOURCE
    let old := s.rget Fld.MT_CTRL_SOURCE
    let s := (s.rput Fld.MT_CTRL_SOURCE src).rput Fld.MT_CTRL_ENABLE en
    let on := decide (en = 1) && decide (src ≠ 0)
    let s :=
      if !on && s.mtDisciplined then
        let s := s.rput Fld.MT_STATUS_STATE mtFree
        setPhase { s with mt := { s.mt with req := none } } 0
      else if on && !was && decide (s.mtState ≤ 1) then
        mtAcquire { s with mt := { s.mt with lastSample := s.now } }
      else if on && decide (src ≠ old) then { s with mt := { s.mt with req := none } }
      else s
    (s, stOk)

/-- MT_UPSTREAM: links 48 to 63 are rejected; samples of an old link stop at once. -/
def mtUpstream (v : Nat) (s : State) : State × Nat :=
  if 48 ≤ bits v 0 6 then (s, stInvalidArgument)
  else
    let changed := decide (bits v 0 6 ≠ s.rget Fld.MT_UPSTREAM_LINK) || decide (bits v 6 1 = 0)
    let s := (s.rput Fld.MT_UPSTREAM_LINK (bits v 0 6)).rput Fld.MT_UPSTREAM_VALID (bits v 6 1)
    (if changed then { s with mt := { s.mt with req := none } } else s, stOk)

/-- MT_FREQ_TRIM. -/
def mtFreqTrim (v : Nat) (s : State) : State × Nat := (setRate (s.rput Fld.MT_FREQ_TRIM_TRIM v), stOk)

/-- A write to a KRW register: from a user queue it has no effect and answers PRIVILEGE (R13). The state keeps the status. -/
def krwWrite (kernel : Bool) (f : State → State × Nat) (s : State) : State :=
  if kernel then
    let r := f s
    { r.1 with status := r.2 }
  else { s with status := stPrivilege }

def execTimePpsEdge (low high : Nat) (s : State) : Out State := .next (s.onClock (doPps low high s))
def execMtSampleMissed (s : State) : Out State := .next (s.onClock (doSampleMissed s))
def execMtHoldoverExpire (s : State) : Out State := .next (s.onClock (doHoldoverExpire s))
def execMtSet (kernel : Bool) (v : Word) (s : State) : Out State := .next (s.onClock (krwWrite kernel (mtSet v.toNat) s))
def execMtStep (kernel : Bool) (v : Word) (s : State) : Out State := .next (s.onClock (krwWrite kernel (mtStep v.toNat) s))
def execMtCtrlWrite (kernel : Bool) (v : Word) (s : State) : Out State := .next (s.onClock (krwWrite kernel (mtCtrl v.toNat) s))
def execMtUpstreamWrite (kernel : Bool) (v : Word) (s : State) : Out State := .next (s.onClock (krwWrite kernel (mtUpstream v.toNat) s))
def execMtFreqTrimWrite (kernel : Bool) (v : Word) (s : State) : Out State := .next (s.onClock (krwWrite kernel (mtFreqTrim v.toNat) s))

end Sys2Proof.Machine
end

