-- ==== Sys2Proof/Machine/Coherence.lean ====
section
/-!
DEFINITION. Machine/Coherence.lean: the messages of the coherent domain as steps of their own (R222 to R230, R233, R243):
requests that reach a home, snoops that reach an L1, responses, and the snoop and hold timers.
-/
namespace Sys2Proof.Machine

/-- A request of an L1 reaches the line's home. -/
def request (req : CohReq) (core l : Nat) (s : State) : State :=
  if s.domainStopped then s else wakeEvents (arriveReq s l req core) l

/-- A write of a non-caching agent reaches the home: the bytes of one line (R230). It waits behind a request that the
home is processing. -/
def doWrInv (a n v policy : Nat) (s : State) : State :=
  let l := lineOf a
  if s.domainStopped || (s.line l).txn.isSome || (s.line l).reloadAt.isSome || decide (128 < a % 128 + n) ||
      (s.line l).l1.any (fun e => heldBy s e.1 l) then s
  else agentWrite s a n v policy

/-- A snoop reaches an L1 (R222). During a reservation hold it waits (R243). -/
def snoopAt (k : Snoop) (core l : Nat) (s : State) : State :=
  match (s.line l).txn with
  | none => s
  | some t =>
    if heldBy s core l then s
    else if t.snoops.any (fun x => x.core == core && x.kind == k && !x.acted) then
      let s := applySnoop s l core k
      let snoops := t.snoops.map (fun x => if x.core = core then { x with acted := true } else x)
      wakeEvents (s.mapLine l (fun x => { x with txn := some { t with snoops := snoops } })) l
    else s

/-- A response of an L1 is sunk by the home; with the last one the request completes (R228). -/
def doResponse (core l : Nat) (s : State) : State := wakeEvents (arriveRsp s l core) l

/-- A snoop has had no answer for L2_AGENT_TIMEOUT: the agent is dead, which is domain-fatal (R233, R234). Snoop timeouts
never pause. -/
def doSnoopTimeout (core l : Nat) (s : State) : State :=
  match (s.line l).txn with
  | none => s
  | some t =>
    match t.snoops.find? (fun x => x.core == core) with
    | none => s
    | some x =>
      let due := x.sentAt + s.rget Fld.L2_AGENT_TIMEOUT_NS
      (s.pass (due - s.now)).domainFatal 4 (sliceOf l) (coreId core) 1

/-- 64 CCLK cycles have passed since a reserved load completed: the hold ends (R243). -/
def doHoldExpire (core slot : Nat) (s : State) : State :=
  match s.tray core slot with
  | none => s
  | some t =>
    if t.resv.any (fun r => r.held) then
      let t := { t with resv := t.resv.map (fun r => { r with held := false, spurious := true }) }
      (s.setTray core slot t).rbump Fld.CO_RES_STATS_HOLD_EXPIRED 1 core
    else s

def execRdShared (core : Fin 192) (line : Nat) (s : State) : Out State := .next (s.onClock (request .rdShared core line s))
def execRdOwn (core : Fin 192) (line : Nat) (s : State) : Out State := .next (s.onClock (request .rdOwn core line s))
def execRdOnce (core : Fin 192) (line : Nat) (s : State) : Out State := .next (s.onClock (request .rdOnce core line s))
def execUpgrade (core : Fin 192) (line : Nat) (s : State) : Out State := .next (s.onClock (request .upgrade core line s))
def execClaim (core : Fin 192) (line : Nat) (s : State) : Out State := .next (s.onClock (request .claim core line s))
def execWrThru (core : Fin 192) (line : Nat) (s : State) : Out State := .next (s.onClock (request .wrThru core line s))
def execWrInv (addr : BitVec 48) (bytes : Fin 129) (data : BitVec 1024) (policy : Fin 4) (s : State) : Out State :=
  .next (s.onClock (doWrInv addr.toNat bytes data.toNat policy s))
def execSnpFwdS (core : Fin 192) (line : Nat) (s : State) : Out State := .next (s.onClock (snoopAt .fwdS core line s))
def execSnpFwdO (core : Fin 192) (line : Nat) (s : State) : Out State := .next (s.onClock (snoopAt .fwdO core line s))
def execSnpFwdOnce (core : Fin 192) (line : Nat) (s : State) : Out State := .next (s.onClock (snoopAt .fwdOnce core line s))
def execSnpInv (core : Fin 192) (line : Nat) (s : State) : Out State := .next (s.onClock (snoopAt .inv core line s))
def execSnoopTimeout (core : Fin 192) (line : Nat) (s : State) : Out State := .next (s.onClock (doSnoopTimeout core line s))
def execReservationHoldExpire (core : Fin 192) (slot : Fin 64) (s : State) : Out State := .next (s.onClock (doHoldExpire core slot s))

end Sys2Proof.Machine
end

