-- ==== Sys2Proof/Machine/Objects.lean ====
section
/-!
DEFINITION. Machine/Objects.lean: ranges and their translation (R292 to R296), the shared object table (R299 to R302), event
signals of the front end (R304, R305, R453) and lock groups (R201).
-/
namespace Sys2Proof.Machine

/-! ### The object table (R299, R300) -/

/-- A word of an entry. -/
def objWord (s : State) (i w : Nat) : Nat := s.readLE (objAddr s i + 8 * w) 8

/-- Set a field of a word of an entry. The front end's adds clear no poison that was not there (R454). -/
def putObj (s : State) (i w lo len v : Nat) : State :=
  let a := objAddr s i + 8 * w
  s.putLE a 8 (putBits (BitVec.ofNat 64 (s.readLE a 8)) lo len v).toNat

def objCount (s : State) (i : Nat) : Nat := bits (objWord s i 0) 0 32
def objType (s : State) (i : Nat) : Nat := bits (objWord s i 1) 0 3
def objState (s : State) (i : Nat) : Nat := bits (objWord s i 1) 3 2
def objContext (s : State) (i : Nat) : Nat := bits (objWord s i 1) 5 6
def objDying (s : State) (i : Nat) : Bool := decide (bits (objWord s i 1) 11 1 = 1)
def objWhat (s : State) (i : Nat) : Nat := objWord s i 2
def objGen (s : State) (i : Nat) : Nat := bits (objWord s i 3) 0 32

def objFree : Nat := 0
def objLive : Nat := 1
def objTeardown : Nat := 2

/-- The lowest FREE entry at or above one, within so many. -/
def firstFreeObj (s : State) (i : Nat) : Nat → Option Nat
  | 0 => none
  | n + 1 => if objState s i = objFree then some i else firstFreeObj s (i + 1) n

/-- A new entry of a type with COUNT 1 (R299, R301); none when the table is full. -/
def newObj (s : State) (typ context what : Nat) (dynamic : Bool) : Option (State × Nat) :=
  match firstFreeObj s 0 65536 with
  | none => none
  | some i =>
    let s := putObj s i 0 0 64 1
    let s := putObj s i 1 0 64 (typ + objLive * 2 ^ 3 + context * 2 ^ 5 + b2n dynamic * 2 ^ 13)
    let s := putObj s i 2 0 64 what
    some (s.rput Fld.FE_OBJ_STATS_LIVE (s.rget Fld.FE_OBJ_STATS_LIVE + 1), i)

/-- An add on a COUNT word (R300): refused, or performed, with STATE TEARDOWN in the same step when it brings the count
to zero. The old count and whether it was performed. -/
def addRef (s : State) (i : Nat) (d : Int) : State × Nat × Bool :=
  let c := objCount s i
  let v := (c : Int) + d
  if objState s i = objLive ∧ 0 ≤ v ∧ v ≤ 0xFFFFFFFF then
    let s := putObj s i 0 0 32 v.toNat
    (if v = 0 then putObj s i 1 3 2 objTeardown else s, c, true)
  else (s.rbump Fld.FE_OBJ_STATS_REFUSED, c, false)

/-- Drop a reference. -/
def dropRef (s : State) (i : Nat) : State := (addRef s i (-1)).1

/-- The word a handle is (R297). -/
def handleOf (s : State) (i : Nat) : Nat := i + objGen s i * 2 ^ 16

/-! ### Translation (R292 to R295) -/

/-- Permissions of R297: R, W, A, X. -/
def permR : Nat := 1
def permW : Nat := 2
def permA : Nat := 4
def permX : Nat := 8

/-- The range of a context that holds a context address. -/
def rangeAt (s : State) (context a : Nat) : Option (Nat × Range) :=
  List.find? (fun (e : Nat × Range) =>
    decide (e.2.context = context) && decide (4096 * e.2.vbase ≤ a) && decide (a < 4096 * (e.2.vbase + e.2.ngran))) s.ranges

/-- A lookup of the translation unit is counted (TU_STATUS). -/
def countLookup (s : State) (ok : Bool) : State :=
  let n := s.tuLookups + 1
  let s := if n = 1024 then { s with tuLookups := 0 }.rbump Fld.TU_STATUS_LOOKUPS else { s with tuLookups := n }
  if ok then s else s.rbump Fld.TU_STATUS_FAILED

/-- Translate an extent of a context for a set of permissions: one LIVE range must hold it whole and carry them all; the
physical address and the range (R292, R295). -/
def lookup (s : State) (context a n perm : Nat) : Option (Nat × Range) :=
  match rangeAt s context a with
  | none => none
  | some (_, r) =>
    if a + n ≤ 4096 * (r.vbase + r.ngran) ∧ r.perm &&& perm = perm ∧ objState s r.object = objLive ∧
        objDying s r.object = false then some (4096 * r.pbase + (a - 4096 * r.vbase), r)
    else none

/-- The attributes of a range (R191). -/
def mattrPolicy (m : Nat) : Nat := bits m 0 2
def mattrNear (m : Nat) : Bool := decide (bits m 2 1 = 1)
def mattrImm (m : Nat) : Bool := decide (bits m 3 1 = 1)

/-- Is a physical address NEAR_ATOMIC: some range that holds it says so? -/
def nearAt (s : State) (a : Nat) : Bool :=
  s.ranges.any (fun e => mattrNear e.2.mattr && decide (4096 * e.2.pbase ≤ a) && decide (a < 4096 * (e.2.pbase + e.2.ngran)))

/-- The POLICY of the range that holds a physical address: zero without one. -/
def policyAt (s : State) (a : Nat) : Nat :=
  (((s.ranges.map (fun e => e.2)).find? (fun r => decide (4096 * r.pbase ≤ a) && decide (a < 4096 * (r.pbase + r.ngran)))).map
    (fun r => mattrPolicy r.mattr)).getD 0

/-- The event object on a word of a context, if one is registered (R297, R301). -/
def eventObjOn (s : State) (context phys : Nat) : Option Nat :=
  (List.find? (fun (e : Nat × Nat) =>
    decide (e.2 = phys) && decide (objContext s e.1 = context) && decide (objState s e.1 = objLive)) s.eventObjs).map (fun e => e.1)

/-- The objects that a node's address names: its range's memory object and, for an event word, the event object on it. -/
def namedObjs (s : State) (context : Nat) (t : Nat × Range) (event : Bool) : List Nat :=
  t.2.object :: (if event then (eventObjOn s context t.1).toList else [])

/-- Register an event object on an aligned word in a LIVE range (R297 EVENT, R298, R301). -/
def registerEvent (s : State) (context a : Nat) : State × Nat × Option (Nat × Nat) :=
  match lookup s context a 8 0 with
  | none => (s, stInvalidArgument, none)
  | some (phys, r) =>
    if a % 8 ≠ 0 then (s, stInvalidArgument, none)
    else
      match addRef s r.object 1 with
      | (s, _, false) => (s, stInvalidArgument, none)
      | (t, _, true) =>
        match newObj t 2 context phys false with
        | none => (s, stInvalidState, none)
        | some (s, i) => ({ s with eventObjs := SMap.put s.eventObjs i phys }, stOk, some (i, phys))

/-! ### Lock groups (R201) -/

/-- The release of a group is complete: it is FREE. -/
def groupFreed (s : State) (g : Nat) : State :=
  let s := unlockLines s g
  [Fld.L2_GROUP_STATE, Fld.L2_GROUP_CONTEXT, Fld.L2_GROUP_PARTIAL, Fld.L2_GROUP_PENDING].foldl (fun s f => s.rput f 0 0 g) s

/-! ### Teardown (R302) -/

/-- An object's entry becomes FREE with its generation raised. -/
def freeEntry (s : State) (i : Nat) : State :=
  let g := objGen s i
  let s := putObj (putObj s i 1 0 64 0) i 3 0 32 ((g + 1) % 2 ^ 32)
  s.rput Fld.FE_OBJ_STATS_LIVE (s.rget Fld.FE_OBJ_STATS_LIVE - 1)

/-- An export becomes invalid (R330, R336). -/
def removeExport (s : State) (e : Nat) : State :=
  let s := [Fld.EL_EXPORT_BASE_BASE, Fld.EL_EXPORT_BASE_R, Fld.EL_EXPORT_BASE_W, Fld.EL_EXPORT_BASE_A, Fld.EL_EXPORT_BASE_VALID,
    Fld.EL_EXPORT_BASE_OPEN, Fld.EL_EXPORT_BASE_SLOT, Fld.EL_EXPORT_BOUND_BOUND, Fld.EL_EXPORT_BOUND_CONTEXT].foldl
      (fun s f => s.rput f 0 0 e) s
  { s with exportObj := SMap.del s.exportObj e }

/-- The steps of R302 for an entry in TEARDOWN. -/
def doTeardown (i : Nat) (s : State) : State :=
  if objState s i ≠ objTeardown then s
  else
    let s := match objType s i with
      | 1 =>
        let tu := objWhat s i
        let s := (s.exportObj.filter (fun e => e.2 == i)).foldl (fun s e => removeExport s e.1) s
        let s := { s with ranges := SMap.del s.ranges tu }
        showRetirePending (s.rput Fld.TU_STATUS_ENTRIES s.ranges.length)
      | 2 =>
        let phys := objWhat s i
        let ctx := objContext s i
        let s := { s with eventObjs := SMap.del s.eventObjs i }
        (match (s.ranges.map (fun e => e.2)).find? (fun r =>
            decide (r.context = ctx) && decide (4096 * r.pbase ≤ phys) && decide (phys < 4096 * (r.pbase + r.ngran))) with
         | some r => dropRef s r.object
         | none => s)
      | _ => s
    freeEntry s i

/-! ### Signals of the front end (R304, R305, R453) -/

/-- A signal of the front end to a word of device memory; false when the word is poisoned or its channel cannot take
the write. -/
def feSignal (s : State) (phys v : Nat) (who : ErrRec) : State × Bool :=
  if !(channelTakes s phys) then (s, false)
  else
    match signalWord s phys v (nearAt s phys) who with
    | some s => (s, true)
    | none => (s, false)

/-- What a signal to the host window found there is counted as for a word in device memory (R305). -/
def countHostSignal (s : State) (phys v old : Nat) (who : ErrRec) : State :=
  if old < v then s
  else
    let s := s.rbump Fld.FE_EVENT_STATS_STALE
    if v < old then recordDecrease s phys v old who else s

/-- A signal to the host window as a request (R353). -/
def signalReq (src : ReqSrc) (phys v : Nat) : DevReq :=
  { src := src, kind := .signal, stream := streamFe, off := phys - hostBase, len := 8, data := v }

end Sys2Proof.Machine
end

