-- ==== Sys2Proof/Machine/RegMap.lean ====
section
/-!
DEFINITION. Machine/RegMap.lean: the names of registers (R10) and the access of their fields (R9, R11).
-/
namespace Sys2Proof.Machine

/-- A register: its unit, its instance, its INDEX and its map. -/
structure RegName where
  unit : Nat
  inst : Nat
  index : Nat
  map : RegDef
deriving DecidableEq, Repr

/-- Instances of a register (R10): CO and DB per core, BK per block, L2 per slice, with their exceptions. -/
def instances (unit index : Nat) : Nat :=
  if unit = 2 then 192
  else if unit = 13 then (if index = 17 then 1 else 192)
  else if unit = 3 then 24
  else if unit = 4 then (if (4 ≤ index && index < 20) || index = 23 then 1 else 24)
  else 1

/-- The register that an offset names, if it names one (R10). -/
def regNamed (off : Nat) : Option RegName :=
  let unit := bits off 27 5
  let inst := bits off 15 12
  let index := bits off 3 12
  if 2 ^ 32 ≤ off ∨ off % 8 ≠ 0 then none
  else
    match findReg unit index with
    | none => none
    | some m => if inst < instances unit index then some { unit := unit, inst := inst, index := index, map := m } else none

def RegName.offset (r : RegName) : Nat := regOffset r.unit r.inst r.index

/-- Has the register a KRW field (R13)? -/
def RegName.hasKrw (r : RegName) : Bool := r.map.fields.any (fun f => f.acc == Acc.krw)

/-- The raw word of a register. -/
def RegName.raw (s : State) (r : RegName) : Nat := (SMap.get s.regs r.offset (BitVec.ofNat 64 r.map.rst)).toNat

/-- Set the raw word of a register. -/
def RegName.setRaw (s : State) (r : RegName) (v : Nat) : State :=
  { s with regs := SMap.store s.regs r.offset (BitVec.ofNat 64 r.map.rst) (BitVec.ofNat 64 v) }

/-- The word after a write of `v`, by the access codes of its fields (R11): reserved bits are ignored, and KRW fields keep
their value unless the write is privileged (R13). -/
def RegName.written (r : RegName) (kernel : Bool) (old v : Nat) : Nat :=
  r.map.fields.foldl (fun w f =>
    let cur := bits w f.lo f.len
    let new := bits v f.lo f.len
    let put := fun (x : Nat) => w - cur * 2 ^ f.lo + x * 2 ^ f.lo
    match f.acc with
    | .ro => w
    | .rw => put new
    | .w1c => put (cur &&& (cur ^^^ new))
    | .w1s => put (cur ||| new)
    | .rc => w
    | .wo => put new
    | .krw => if kernel then put new else w) old

/-- The value that a read returns: WO fields and reserved bits read as zero (R9, R11). -/
def RegName.shown (r : RegName) (w : Nat) : Nat :=
  r.map.fields.foldl (fun v f => match f.acc with
    | .wo => v
    | _ => v + bits w f.lo f.len * 2 ^ f.lo) 0

/-- The word after a read: RC fields are cleared (R11, R12). -/
def RegName.afterRead (r : RegName) (w : Nat) : Nat :=
  r.map.fields.foldl (fun v f => match f.acc with
    | .rc => v - bits v f.lo f.len * 2 ^ f.lo
    | _ => v) w

end Sys2Proof.Machine
end

