-- ==== Sys2Proof/Machine/Sync.lean ====
section
/-!
DEFINITION. Machine/Sync.lean: the SYNC class (R239, R247 to R262): FENCE, CINC, CWAIT, CREAD, CSET, BAR, EWAIT, ESIG, RALIGN
and RFTEST; the expiry of waits (R258, R260), realign pairs (R262) and the power-lending threshold (R261).
-/
namespace Sys2Proof

/-! ### Fields (R247) -/

def TrayOp.index (o : TrayOp) : Nat := o.fld 7 6
def TrayOp.soft (o : TrayOp) : Bool := decide (o.fld 6 1 = 1)
def TrayOp.syncPdst (o : TrayOp) : Nat := o.fld 3 3

end Sys2Proof

namespace Sys2Proof.Machine

/-- The lowest executing lane's value of a register or a register pair. -/
def Ctx.one (x : Ctx) (code k : Nat) : Nat := x.regsVal code k ((Mask.lowest x.on).getD 0)

/-- The length of a wait's timeout (R258). -/
def waitSpan (s : State) (L : Launch) : Nat := if L.waitTimeout = 0 then s.rget Fld.FE_WAIT_DEFAULT_NS else L.waitTimeout

/-- A wait that completes at once: SOFT writes PDST (R247, R248). -/
def Ctx.passWait (x : Ctx) (o : TrayOp) : State :=
  let all : Mask := BitVec.allOnes 32
  let x := if o.soft then { x with t := x.t.setPred o.syncPdst all all } else x
  x.issueWith 1 none

/-- A wait that does not complete at once: the path waits, its turn ends, and the tray is demoted (R54, R62, R258). -/
def Ctx.startWait (x : Ctx) (o : TrayOp) (kind : WaitKind) : State :=
  let y := x.noteIssue
  let w : Wait := {
    kind := kind, soft := o.soft, pdst := o.syncPdst, started := x.s.now
    timer := some (y.s.arm x.L.context (waitSpan x.s x.L))
    lend := some (y.s.arm x.L.context (x.s.rget Fld.PM_LEND_THRESH_NS)) }
  let t := y.t.mapPath x.p.id (fun p => { p with pc := x.p.pc + 1, issued := p.issued + 1, wait := some w })
  (y.s.setTray x.core x.slot t.endTurn).demote x.core x.slot

/-- A fence or a result keeps the tray where it is: the path waits with its turn. -/
def Ctx.hold (x : Ctx) (kind : WaitKind) : State :=
  let y := x.noteIssue
  let t := y.t.mapPath x.p.id (fun p => { p with
    pc := x.p.pc + 1, issued := p.issued + 1, wait := some { kind := kind, started := x.s.now } })
  y.s.setTray x.core x.slot t

/-- FENCE (R239). -/
def doFence (o : TrayOp) (s : State) : State :=
  issueTray o s (fun x =>
    let kind := o.fld 0 2
    let scope := o.fld 2 2
    x.withRegs (decide (o.fld 4 9 = 0) && decide (o.fld 16 32 = 0) && decide (kind ≠ 0)) []
      (if x.on = 0 then x.issueWith 1 none
       else
         let x := x.touch
         let x := if scope = 2 then { x with s := x.s.rbump Fld.CO_FENCE_STATS_DEVICE 1 x.core }
           else if scope = 3 then { x with s := x.s.rbump Fld.CO_FENCE_STATS_SYSTEM 1 x.core } else x
         if fenceDone (x.s.core x.core) x.slot scope (decide (kind = 1)) then x.issueWith 1 none
         else x.hold (.fence scope kind)))

/-- An instruction on a sync counter: its legality and the check against the launch's COUNTER_MASK (R249). -/
def counterOp (o : TrayOp) (s : State) (legal : Launch → Bool) (regs : List Nat) (body : Ctx → State) : State :=
  issueTray o s (fun x =>
    x.withRegs (decide (o.fld 0 3 = 0) && legal x.L) regs
      (if x.on = 0 then x.issueWith 1 none
       else if !(Nat.testBit x.L.counterMask o.index) then x.fault stSyncObject o.index
       else body x))

/-- Its tray's earlier accesses have been performed at device scope (R240). -/
def Ctx.released (x : Ctx) : Bool := releaseDone (trayOps (x.s.core x.core) x.slot) (some x.t) x.on 2

/-- CINC: a release at device scope, then the addition (R250). -/
def doCinc (o : TrayOp) (s : State) : State :=
  counterOp o s (fun L => decide (o.dst = 0) && decide (o.fld 3 4 = 0) && legalRegs L o.srcB.toNat 1) (regsOf o.srcB.toNat 1)
    (fun x =>
      if x.released then
        (x.issueWith 1 none).addCounter x.core o.index (x.one o.srcB.toNat 1)
      else x.s)

/-- CSET (R250). -/
def doCset (o : TrayOp) (s : State) : State :=
  counterOp o s (fun L => decide (o.dst = 0) && decide (o.fld 3 4 = 0) && legalRegs L o.srcB.toNat 1) (regsOf o.srcB.toNat 1)
    (fun x => (x.issueWith 1 none).setCounter x.core o.index (x.one o.srcB.toNat 1))

/-- CREAD writes every lane of DST (R247). -/
def doCread (o : TrayOp) (s : State) : State :=
  counterOp o s (fun L => decide (o.fld 3 4 = 0) && legalDst L o.dst.toNat) (regsOf o.dst.toNat 1)
    (fun x =>
      let v : Lane := BitVec.ofNat 32 (x.s.counter x.core o.index)
      x.bumpSerial.issueWith 1 (some {
        serial := x.serial, kind := .plain, regs := [o.dst.toNat]
        writes := [{ reg := o.dst.toNat, lanes := BitVec.allOnes 32, vals := laneNumbers.map (fun _ => v) }] }))

/-- PDST is legal: p7 only where it is ignored (R248). -/
def pdstLegal (o : TrayOp) : Bool := !o.soft || decide (o.syncPdst ≠ 7)
def pdstRegs (o : TrayOp) : List Nat := if o.soft then [predReg o.syncPdst] else []

/-- CWAIT (R250). -/
def doCwait (o : TrayOp) (s : State) : State :=
  counterOp o s (fun L => decide (o.dst = 0) && pdstLegal o && legalRegs L o.srcB.toNat 1) (pdstRegs o ++ regsOf o.srcB.toNat 1)
    (fun x =>
      let target := x.one o.srcB.toNat 1
      if reached (x.s.counter x.core o.index) target then x.passWait o else x.startWait o (.counter o.index target))

/-- BAR (R64, R252, R254). -/
def doBar (o : TrayOp) (s : State) : State :=
  issueTray o s (fun x =>
    let index := o.fld 7 2
    let scope := o.fld 9 2
    x.withRegs (decide (o.fld 0 3 = 0) && decide (o.fld 11 2 = 0) && decide (o.dst = 0) && decide (scope ≠ 3) && pdstLegal o)
      (pdstRegs o)
      (if x.on = 0 then x.issueWith 1 none
       else if decide (scope ≠ 0) && !x.L.gang then x.fault stSyncObject (scope + 4 * index)
       else
         let x := x.touch
         let x := if scope = 0 then x else { x with s := x.s.rbump Fld.CO_FENCE_STATS_DEVICE 1 x.core }
         tryArrive (x.startWait o (.barrier scope index)) x.core x.slot))

/-- An instruction on an event word: the window check for one word in device memory, aligned (R73, R255, R305). -/
def eventOp (o : TrayOp) (s : State) (perm : Window → Bool) (legal : Bool) (regs : List Nat)
    (body : Ctx → Window → Nat → State) : State :=
  issueTray o s (fun x =>
    x.withRegs (decide (o.fld 0 3 = 0) && decide (o.dst = 0) && legal && legalRegs x.L o.srcA.toNat 2 && legalRegs x.L o.srcB.toNat 2)
      (regs ++ regsOf o.srcA.toNat 2 ++ regsOf o.srcB.toNat 2)
      (if x.on = 0 then x.issueWith 1 none
       else
         let off := x.one o.srcA.toNat 2
         let lane : Nat := 2 ^ ((Mask.lowest x.on).getD 0)
         match x.L.windows[o.index]? with
         | none => x.fault stWindow off lane o.index
         | some w =>
           let a := w.base + off
           if !(perm w) || decide (w.bound < off + 8) || isHost a then x.fault stWindow off lane o.index
           else if a % 8 ≠ 0 then x.fault stMisaligned a lane o.index
           else if x.s.extentPoisoned a 8 then x.fault stUncorrectable a lane o.index
           else body x w a))

/-- EWAIT (R255). -/
def doEwait (o : TrayOp) (s : State) : State :=
  eventOp o s winR (pdstLegal o) (pdstRegs o) (fun x _ a =>
    let target := x.one o.srcB.toNat 2
    if target ≤ x.s.readLE a 8 then x.passWait o else x.startWait o (.event a target))

/-- ESIG: a release at device scope, then the signal (R255, R304). -/
def doEsig (o : TrayOp) (s : State) : State :=
  eventOp o s winA (decide (o.fld 3 4 = 0)) [] (fun x w a =>
    if x.released then
      let who : ErrRec := {
        kind := 0x03, unit := 2, place := coreId x.core, qvalid := true, queue := x.L.queue, context := x.L.context
        launch := x.L.serial, slot := x.slot }
      match signalWord (x.issueWith 1 none) a (x.one o.srcB.toNat 2) w.near who with
      | some s => s
      | none => x.s
    else x.s)

/-- RFTEST writes the sticky remote-failure flag to PDST in every lane and clears it (R256). -/
def doRftest (o : TrayOp) (s : State) : State :=
  issueTray o s (fun x =>
    let pd := o.syncPdst
    x.withRegs (decide (o.fld 0 3 = 0) && decide (o.fld 6 7 = 0) && decide (o.dst = 0) && decide (pd ≠ 7)) [predReg pd]
      (if x.on = 0 then x.issueWith 1 none
       else
         let all : Mask := BitVec.allOnes 32
         let t := { x.t.setPred pd all (if x.t.remoteFail then all else 0) with remoteFail := false }
         { x with t := t }.issueWith 1 none))

/-! ### Realign pairs (R262) -/

/-- The waiters of a pair: core, slot, path, side A. -/
def pairWaiters (s : State) (n : Nat) : List (Nat × Nat × Nat × Bool) :=
  (waiters s).filterMap (fun e => match e.2.2.2.kind with
    | .pair m sideA => if m = n then some (e.1, e.2.1, e.2.2.1, sideA) else none
    | _ => none)

/-- Show which sides have waiters. -/
def showPair (s : State) (n : Nat) : State :=
  let w := pairWaiters s n
  let s := s.rput Fld.FE_RALIGN_PAIR_WAIT_A (b2n (w.any (fun e => e.2.2.2))) 0 n
  s.rput Fld.FE_RALIGN_PAIR_WAIT_B (b2n (w.any (fun e => !e.2.2.2))) 0 n

/-- A waiter whose wait cannot go on takes the sync-object fault. -/
def pairFault (s : State) (core slot path n : Nat) : State :=
  (s.mapTray core slot (fun t => t.wake path)).trayFault core slot stSyncObject n

/-- RALIGN (R262). -/
def doRalign (o : TrayOp) (s : State) : State :=
  issueTray o s (fun x =>
    let n := o.fld 7 4
    x.withRegs (decide (o.fld 0 3 = 0) && decide (o.fld 11 2 = 0) && decide (o.dst = 0) && pdstLegal o) (pdstRegs o)
      (if x.on = 0 then x.issueWith 1 none
       else
         let mine := x.s.flag Fld.FE_RALIGN_PAIR_VALID 0 n && decide (x.s.rget Fld.FE_RALIGN_PAIR_CONTEXT 0 n = x.L.context)
         let atA := decide (x.s.rget Fld.FE_RALIGN_PAIR_CORE_A 0 n = coreId x.core)
         let atB := decide (x.s.rget Fld.FE_RALIGN_PAIR_CORE_B 0 n = coreId x.core)
         if !mine || !(atA || atB) then x.fault stSyncObject n
         else showPair (x.startWait o (.pair n atA)) n))

/-- A pair's due time: both counters take the base in one step and every waiter completes, or the due time is counted
in SKIPS; the next due time is one period on (R262). Machine time stands at the due time at least. -/
def doRealignDue (n : Nat) (s : State) : State :=
  if !(s.flag Fld.FE_RALIGN_PAIR_VALID 0 n) then s
  else
    let due := s.rget Fld.FE_RALIGN_DUE_DUE 0 n
    let s := s.pass (due - s.now)
    let w := pairWaiters s n
    let s := s.rput Fld.FE_RALIGN_DUE_DUE (due + s.rget Fld.FE_RALIGN_PERIOD_PERIOD 0 n) 0 n
    if w.any (fun e => e.2.2.2) && w.any (fun e => !e.2.2.2) then
      let base := s.rget Fld.FE_RALIGN_BASE_BASE 0 n
      let a := (linearCore (s.rget Fld.FE_RALIGN_PAIR_CORE_A 0 n)).getD 0
      let b := (linearCore (s.rget Fld.FE_RALIGN_PAIR_CORE_B 0 n)).getD 0
      let ia := s.rget Fld.FE_RALIGN_PAIR_INDEX_A 0 n
      let ib := s.rget Fld.FE_RALIGN_PAIR_INDEX_B 0 n
      let s := (s.rput Fld.CO_SYNC_VALUE_VALUE base a ia).rput Fld.CO_SYNC_VALUE_VALUE base b ib
      let s := wakeCounter (wakeCounter s a ia) b ib
      let s := w.foldl (fun s e => endWait s e.1 e.2.1 e.2.2.1 true) s
      showPair (s.rbump Fld.FE_RALIGN_BASE_STEPS 1 0 n) n
    else s.rbump Fld.FE_RALIGN_BASE_SKIPS 1 0 n

/-! ### Timers of waits (R258 to R261) -/

/-- Let the time pass that an upper timer of a context still needs; none while it stands still (R78, R390). -/
def State.passTimer (s : State) (context : Nat) (t : Timer) : Option State :=
  if s.ranOut context t then some s
  else if s.recovering || s.haltedContexts.contains context then none
  else some (s.pass (t.mark + t.span - s.clockOf context))

/-- What a timeout record says of a wait: object, target, observed value, detail (R260, R383). -/
def waitRecord (s : State) (core : Nat) (t : Tray) (k : WaitKind) : Nat × Nat × Nat × Nat :=
  match k with
  | .counter i target => (coreId core + i * 2 ^ 8, target, s.counter core i, 0)
  | .barrier sc i =>
    (match barAt s core t sc i with
     | some b => (sc + 4 * i, (barState s b).2.1, (barState s b).1, sc + 1)
     | none => (sc + 4 * i, 0, 0, sc + 1))
  | .event a target => (a, target, s.readLE a 8, 4)
  | .pair n _ =>
    (n, 0, 0, 5 + s.rget Fld.FE_RALIGN_PAIR_WAIT_A 0 n * 2 ^ 4 + s.rget Fld.FE_RALIGN_PAIR_WAIT_B 0 n * 2 ^ 5)
  | _ => (0, 0, 0, 0)

/-- A wait's timeout expires: its record, then PDST false or the sync-timeout fault (R248, R260). -/
def doWaitTimeout (core slot path : Nat) (s : State) : State :=
  match s.tray core slot with
  | none => s
  | some t =>
    match s.launch t.launch, t.paths.find? (fun p => p.id == path) with
    | some L, some p =>
      (match p.wait.bind (fun w => w.timer.map (fun tm => (w, tm))) with
       | none => s
       | some (w, tm) =>
         match s.passTimer L.context tm with
         | none => s
         | some s =>
           let (obj, a, b, d) := waitRecord s core t w.kind
           let seq := s.nextErr
           let s := s.logFor t.launch {
             kind := 0x02, cls := if w.soft then 7 else 2, qvalid := true, status := if w.soft then 0 else stSyncTimeout
             unit := 2, place := coreId core, queue := L.queue, context := L.context, launch := L.serial, slot := slot
             object := obj, valueA := a, valueB := b, detail := d, issued := w.started
             paused := (s.now - w.started) - (s.clockOf L.context - tm.mark) }
           let s := s.rbump Fld.CO_SYNC_STATS_TIMEOUTS 1 core
           let s := endWait s core slot path false
           let s := match w.kind with
             | .pair n _ => showPair s n
             | _ => s
           if w.soft then s else s.trayStop core slot t.launch stSyncTimeout seq)
    | _, _ => s

/-- A wait has lasted PM_LEND_THRESH: its tray is long-waiting (R261). -/
def doLendThreshold (core slot path : Nat) (s : State) : State :=
  match s.tray core slot with
  | none => s
  | some t =>
    match s.launch t.launch, (t.paths.find? (fun p => p.id == path)).bind (fun p => p.wait.bind (fun w => w.lend)) with
    | some L, some tm =>
      (match s.passTimer L.context tm with
       | none => s
       | some s => s.mapTray core slot (fun t => t.mapPath path (fun p => { p with
           wait := p.wait.map (fun w => { w with long := true, lend := none }) })))
    | _, _ => s

/-- EXIT, and the arrival that the exit of lanes may complete (R49, R64). -/
def execExit (o : TrayOp) (s : State) : Out State := .next (s.onClock (trayProgress (doExit o s) o.core o.slot))
def execFence (o : TrayOp) (s : State) : Out State := .next (s.onClock (doFence o s))
def execCinc (o : TrayOp) (s : State) : Out State := .next (s.onClock (doCinc o s))
def execCwait (o : TrayOp) (s : State) : Out State := .next (s.onClock (doCwait o s))
def execCread (o : TrayOp) (s : State) : Out State := .next (s.onClock (doCread o s))
def execCset (o : TrayOp) (s : State) : Out State := .next (s.onClock (doCset o s))
def execBar (o : TrayOp) (s : State) : Out State := .next (s.onClock (doBar o s))
def execEwait (o : TrayOp) (s : State) : Out State := .next (s.onClock (doEwait o s))
def execEsig (o : TrayOp) (s : State) : Out State := .next (s.onClock (doEsig o s))
def execRalign (o : TrayOp) (s : State) : Out State := .next (s.onClock (doRalign o s))
def execRftest (o : TrayOp) (s : State) : Out State := .next (s.onClock (doRftest o s))
def execWaitTimeoutExpire (core : Fin 192) (slot : Fin 64) (path : Nat) (s : State) : Out State :=
  .next (s.onClock (doWaitTimeout core slot path s))
def execRealignDue (pair : Fin 16) (s : State) : Out State := .next (s.onClock (doRealignDue pair s))
def execLendThreshold (core : Fin 192) (slot : Fin 64) (path : Nat) (s : State) : Out State :=
  .next (s.onClock (doLendThreshold core slot path s))

end Sys2Proof.Machine
end

