-- ==== Sys2Proof/Machine/Nodes.lean ====
section
/-!
DEFINITION. Machine/Nodes.lean: the life of nodes (R274 to R288): readiness, start, completion with its record, event,
dependents and queue event, the fallback ring, guilty queues and aborts.
-/
namespace Sys2Proof.Machine

/-! ### Queues (R268 to R270) -/

def qFree : Nat := 0
def qActive : Nat := 1
def qDisabling : Nat := 2
def qDisabled : Nat := 3
def qResetting : Nat := 4
def qGuilty : Nat := 5
def qDestroying : Nat := 6

def State.qState (s : State) (q : Nat) : Nat := s.rget Fld.FE_QUEUE_STATUS_STATE 0 q
def State.setQState (s : State) (q v : Nat) : State := s.rput Fld.FE_QUEUE_STATUS_STATE v 0 q
def State.qContext (s : State) (q : Nat) : Nat := s.rget Fld.FE_QUEUE_STATUS_CONTEXT 0 q
def State.queue (s : State) (q : Nat) : Queue := SMap.get s.queues q {}
def State.mapQueue (s : State) (q : Nat) (f : Queue → Queue) : State :=
  { s with queues := SMap.put s.queues q (f (s.queue q)) }

def Queue.buffer (q : Queue) (seq : Nat) : Option Buffer := q.buffers.find? (fun b => b.seq == seq)

/-- The node that a reference names. -/
def State.node (s : State) (r : NodeRef) : Option Node :=
  ((s.queue r.queue).buffer r.seq).bind (fun b => b.nodes.find? (fun n => n.index == r.node))

def State.mapNode (s : State) (r : NodeRef) (f : Node → Node) : State :=
  s.mapQueue r.queue (fun q => { q with buffers := q.buffers.map (fun b =>
    if b.seq = r.seq then { b with nodes := b.nodes.map (fun n => if n.index = r.node then f n else n) } else b) })

/-- Charge a node with the records written between two states. -/
def State.chargeNode (s : State) (before : State) (r : NodeRef) : State :=
  if s.nextErr = before.nextErr then s else s.mapNode r (fun n => n.caused before.nextErr)

/-- Is the front end able to act: not restarting, not lost, not iced, not inside a domain reset (R234, R388, R426)? -/
def feRuns (s : State) : Bool :=
  decide (bits (s.rget Fld.FE_RECOVERY_SOURCES) 5 1 = 0) && decide (s.rget Fld.FE_PAIR_STATUS_MODE ≠ 3) && coresRun s

/-- Statuses that make a queue guilty (R267). -/
def isGuilty (st : Nat) : Bool :=
  decide (st = stWatchdog) || decide (st = stDomainReset) ||
    (decide (0x10 ≤ st) && decide (st ≤ stSyncObject)) || decide (st = stTrayArgument)

/-! ### Readiness (R278) -/

def Node.isDone (n : Node) : Bool := decide (n.stage = .done)

/-- Is a node under way: started and not through its completion? -/
def Node.underWay (n : Node) : Bool := decide (n.stage = .running) || decide (n.stage = .acted)

/-- Has every predecessor of a node completed with OK? -/
def depsOk (b : Buffer) (n : Node) : Bool :=
  n.deps.all (fun d => b.nodes.any (fun m => m.index == d && m.isDone && m.status == stOk))

/-- Has a predecessor completed with another status? -/
def depFailed (b : Buffer) (n : Node) : Bool :=
  n.deps.any (fun d => b.nodes.any (fun m => m.index == d && m.isDone && m.status != stOk))

/-- Is the queue's previous buffer through, or does the buffer not wait for it? -/
def orderOk (q : Queue) (b : Buffer) : Bool := b.concurrent || !(q.buffers.any (fun c => c.seq + 1 == b.seq))

/-- A node is ready (R278): in an ACTIVE queue, its predecessors OK, its buffer's turn come. -/
def nodeReady (s : State) (qn : Nat) (b : Buffer) (n : Node) : Bool :=
  decide (s.qState qn = qActive) && decide (n.stage = .waiting) && depsOk b n && orderOk (s.queue qn) b

/-- Note when nodes became ready (R280, R289). -/
def noteReady (s : State) : State :=
  { s with queues := s.queues.map (fun (e : Nat × Queue) =>
      (e.1, { e.2 with buffers := e.2.buffers.map (fun b => { b with nodes := b.nodes.map (fun n =>
        if n.readyAt.isNone && nodeReady s e.1 b n then { n with readyAt := some s.now } else n) }) })) }

/-- The ready nodes of a queue in the order in which they start. -/
def readyNodes (s : State) (qn : Nat) : List NodeRef :=
  (s.queue qn).buffers.flatMap (fun b =>
    (b.nodes.filter (fun n => nodeReady s qn b n)).map (fun n => { queue := qn, seq := b.seq, node := n.index }))

/-- Has the queue a running node? -/
def qRunning (s : State) (qn : Nat) : Bool := (s.queue qn).buffers.any (fun b => b.nodes.any Node.underWay)

/-- Keep the time in which a queue has a running node (R291). -/
def noteActive (s : State) (qn : Nat) : State :=
  let q := s.queue qn
  match qRunning s qn, q.activeSince with
  | true, none => s.mapQueue qn (fun q => { q with activeSince := some s.now })
  | false, some t => s.mapQueue qn (fun q => { q with activeSince := none, activeNs := q.activeNs + (s.now - t) })
  | _, _ => s

/-! ### Records (R283, R285) -/

/-- The words of a completion record (R283). Its energy is a free value (R372); the result of a TIMESTAMP is the machine time
of its completion (R276). -/
def completionWords (s : State) (r : NodeRef) (n : Node) (status : Nat) (fallback : Bool) : List Nat :=
  [status + b2n n.late * 2 ^ 8 + b2n n.crumbs.crumbOvf * 2 ^ 9 + b2n n.crumbs.ieeeOvf * 2 ^ 10 + b2n fallback * 2 ^ 11 +
     (r.node % 2 ^ 12) * 2 ^ 12 + (r.queue % 2 ^ 10) * 2 ^ 24,
   n.launch % 2 ^ 32, r.seq, n.start, s.now, n.crumbs.sat, n.crumbs.flush, n.crumbs.clip, n.crumbs.inv, n.crumbs.ovf,
   n.crumbs.unf, (Config.nodeEnergy r.queue r.seq r.node s.now).toNat, (if n.typ = 0x09 ∧ status = stOk then s.now else n.result) % 2 ^ 64, n.error, 0, 0]

/-- 64-bit words as one number, the first lowest. -/
def joinWords (ws : List Nat) : Nat := ws.foldr (fun w acc => w % 2 ^ 64 + acc * 2 ^ 64) 0

/-- A record goes into the queue's fallback ring of 16: ORPHAN, NOTIFY kind 2, the oldest overwritten when it is full
(R285). -/
def pushFallback (s : State) (qn seq : Nat) (ws : List Nat) : State :=
  let q := s.queue qn
  let held := s.rget Fld.FE_QUEUE_STATUS_ORPHAN_HELD 0 qn
  let a := carveBase s + ringsOff + qn * 2048 + 128 * ((q.ringHead + held) % 16)
  let s := s.writeRecord a ws
  let s := if held < 16 then s.rput Fld.FE_QUEUE_STATUS_ORPHAN_HELD (held + 1) 0 qn
    else (s.mapQueue qn (fun q => { q with ringHead := (q.ringHead + 1) % 16 })).rbump Fld.FE_QUEUE_STATUS_ORPHAN_LOST 1 0 qn
  let s := s.rput Fld.FE_QUEUE_STATUS_ORPHAN 1 0 qn
  s.notify 2 qn seq

/-- The front end as the signaller of an event for a queue's work. -/
def feWho (s : State) (qn : Nat) : ErrRec :=
  { kind := 0x03, unit := 0, qvalid := true, queue := qn, context := s.qContext qn }

/-- A failed event signal of a node, reported as a failed record is (R285). -/
def signalLost (s : State) (r : NodeRef) : State :=
  match s.node r with
  | some n => pushFallback s r.queue r.seq (completionWords s r n stOk true)
  | none => pushFallback s r.queue r.seq [r.queue * 2 ^ 24 + 2 ^ 11, 0, r.seq, 0, s.now, 0, 0, 0, 0, 0, 0, 0, 0, 0, 0, 0]

/-- A failed signal of the queue event: no node is named. -/
def queueEventLost (s : State) (qn value : Nat) : State :=
  pushFallback s qn value [qn * 2 ^ 24 + 2 ^ 11, 0, value % 2 ^ 64, s.now, s.now, 0, 0, 0, 0, 0, 0, 0, 0, 0, 0, 0]

/-- Signal the queue event (R278, R288). -/
def signalQueueEvent (s : State) (qn value : Nat) : State :=
  match (s.queue qn).event with
  | none => s
  | some a =>
    if isHost a then
      if hostReachable s then s.hostReq (signalReq (.queueEvent qn) a value) else queueEventLost s qn value
    else
      match feSignal s a value (feWho s qn) with
      | (s, true) => s
      | (s, false) => queueEventLost s qn value

/-- The highest sequence number up to which every buffer has completed. -/
def completedSeq (q : Queue) : Nat :=
  match q.buffers with
  | [] => q.nextSeq - 1
  | b :: bs => (bs.foldl (fun m c => min m c.seq) b.seq) - 1

/-! ### Completion (R278, R284) -/

/-- An allocation that a launch holds is dropped with its node (R301). -/
def dropAllocs (s : State) (launch : Nat) : State :=
  let mine := s.allocs.filter (fun a => a.launch == some launch)
  let s := { s with allocs := s.allocs.filter (fun a => a.launch != some launch) }
  mine.foldl (fun s a => dropRef s a.object) s

/-- The last step of a node's completion: its dependents may go on, its references are dropped, and a buffer that is
through leaves the queue and advances the queue event (R273, R278, R284, R301). -/
def releaseNode (s : State) (r : NodeRef) : State :=
  match s.node r with
  | none => s
  | some n =>
    let s := s.mapNode r (fun n => { n with stage := .done, fin := 3, refs := [] })
    let s := n.refs.foldl dropRef s
    let s := if n.launch = 0 then s else
      let s := dropAllocs s n.launch
      { s with launches := SMap.del s.launches n.launch }
    let s := match (s.queue r.queue).buffer r.seq with
      | some b =>
        if b.nodes.all Node.isDone then
          let s := s.mapQueue r.queue (fun q => { q with
            buffers := q.buffers.filter (fun c => c.seq != r.seq), pool := q.pool - b.bytes })
          let s := s.rput Fld.FE_QUEUE_STATUS_INFLIGHT (s.rget Fld.FE_QUEUE_STATUS_INFLIGHT 0 r.queue - 1) 0 r.queue
          let done := completedSeq (s.queue r.queue)
          if (s.queue r.queue).doneSeq < done then
            signalQueueEvent (s.mapQueue r.queue (fun q => { q with doneSeq := done })) r.queue done
          else s
        else s
      | none => s
    noteActive s r.queue

/-- Step 2 of R284: the event. -/
def eventStep (s : State) (r : NodeRef) : State :=
  match s.node r with
  | none => s
  | some n =>
    match n.event with
    | none => releaseNode s r
    | some (a, v) =>
      if isHost a then
        if hostReachable s then (s.mapNode r (fun n => { n with fin := 11 })).hostReq (signalReq (.event r) a v)
        else releaseNode (signalLost s r) r
      else
        match feSignal s a v (feWho s r.queue) with
        | (s, true) => releaseNode s r
        | (s, false) => releaseNode (signalLost s r) r

/-- Step 1 of R284: the record. A failed write goes to the fallback ring (R285). -/
def recordStep (s : State) (r : NodeRef) : State :=
  match s.node r with
  | none => s
  | some n =>
    match n.record with
    | none => eventStep s r
    | some a =>
      let ws := completionWords s r n n.status false
      let lost := pushFallback s r.queue r.seq (completionWords s r n n.status true)
      if isHost a then
        if hostReachable s then
          (s.mapNode r (fun n => { n with fin := 10 })).hostReq {
            src := .record r, kind := .write, stream := streamFe, off := a - hostBase, len := 128, data := joinWords ws }
        else eventStep lost r
      else if channelTakes s a then eventStep (agentWrite s a 128 (joinWords ws) (policyAt s a)) r
      else eventStep lost r

/-- A node completes with a status and goes through the steps of R284. -/
def completeOne (s : State) (r : NodeRef) (status : Nat) : State :=
  match s.node r with
  | none => s
  | some n =>
    if n.isDone || decide (n.fin ≠ 0) then s
    else
      let start := if n.stage = .waiting then s.now else n.start
      recordStep (s.mapNode r (fun n => { n with stage := .acted, status := status, start := start, timer := none })) r

/-! ### Stopping the work of a node (R257, R283, R288) -/

/-- Descriptors of a launch that wait at the movers are discarded; their credits and their trays' counts come back
(R203, R288). -/
def dropDescs (s : State) (launch : Nat) : State :=
  s.movers.foldl (fun s e =>
    let mine := e.2.queue.filter (fun d => d.launch == launch)
    let s := { s with movers := SMap.update s.movers e.1 (fun m => { m with queue := m.queue.filter (fun d => d.launch != launch) }) }
    mine.foldl (fun s d =>
      let s := s.mapCore d.core (fun c => { c with moverCredits := c.moverCredits + 1 })
      s.mapTray d.core d.slot (fun t => { t with descs := t.descs - 1 })) s) s

/-- Every core is told to stop a launch's trays: they issue no further, and unfinished chains are dropped. -/
def stopLaunch (s : State) (serial : Nat) : State :=
  let s := s.mapLaunch serial (fun L => { L with aborting := true, stopped := List.range 192 })
  let s := { s with cores := s.cores.map (fun (e : Nat × Core) =>
    (e.1, { e.2 with veq := e.2.veq.filter (fun v => v.closed || v.launch != serial) })) }
  dropDescs s serial

/-- The slots of a launch's trays: core and slot. -/
def traysOfLaunch (s : State) (serial : Nat) : List (Nat × Nat) :=
  s.cores.flatMap (fun c => (c.2.trays.filter (fun t => t.2.launch == serial)).map (fun t => (c.1, t.1)))

/-- A tray has nothing in flight on its core: it stands at a safe point (R75). -/
def atSafePoint (s : State) (core slot : Nat) : Bool :=
  match s.tray core slot with
  | some t => t.pend.isEmpty && (trayOps (s.core core) slot).isEmpty &&
      !((s.core core).veq.any (fun e => e.slot == slot)) && decide (t.descs = 0)
  | none => true

/-- Every tray of a launch stands at a safe point. -/
def launchQuiet (s : State) (serial : Nat) : Bool := (traysOfLaunch s serial).all (fun p => atSafePoint s p.1 p.2)

/-- What is left of a launch leaves the device: trays, open tiles, sheets, banks, barriers (R102, R123, R257). -/
def discardLaunch (s : State) (serial : Nat) : State :=
  let s := (traysOfLaunch s serial).foldl (fun s p =>
    let s := s.mapCore p.1 (fun c => { c with
      ops := c.ops.filter (fun o => o.slot != p.2), veq := c.veq.filter (fun v => v.slot != p.2) })
    trayLeaves (discardOpen s p.1 p.2) p.1 p.2) s
  let s := s.cores.foldl (fun s c =>
    (c.2.sheets.filter (fun h => h.launch == serial)).foldl (fun s h => sheetLeaves s c.1 h) s) s
  match s.launch serial with
  | some L => (freeGang s L).mapLaunch serial (fun L => { L with saved := [] })
  | none => s

/-- Carry a launch's totals and outcome into its node (R123, R280, R283). -/
def closeLaunch (s : State) (r : NodeRef) : State :=
  match s.node r with
  | none => s
  | some n =>
    match s.launch n.launch with
    | none => s
    | some L =>
      let lateIssue := match L.firstIssue with
        | some t => decide (L.startAt ≠ 0) && decide (L.startAt + 1000 < t)
        | none => false
      s.mapNode r (fun n => { n with
        crumbs := L.totals, late := n.late || L.late || lateIssue
        error := if n.error = 0 then L.firstError else n.error })

/-- Granules of a node that no mover has begun are discarded (R277, R288). -/
def dropGranules (s : State) (r : NodeRef) : State :=
  let mine := fun (g : Granule) => decide (g.queue = r.queue) && decide (g.seq = r.seq) && decide (g.node = r.node)
  let n := s.movers.foldl (fun k e => k + (e.2.fe.filter mine).length) 0
  let s := { s with movers := s.movers.map (fun (e : Nat × Mover) => (e.1, { e.2 with fe := e.2.fe.filter (fun g => !(mine g)) })) }
  s.mapNode r (fun x => { x with deal := [], moving := x.moving - n })

/-- The puts of a remote CKPT_COPY that are not yet answered are given up (R288). -/
def dropPuts (s : State) (r : NodeRef) : State :=
  let mine := s.el.ops.filter (fun e => decide (e.2.node = some r))
  if mine.isEmpty then s
  else
    let el := s.el
    let el := { el with
      ops := el.ops.filter (fun e => !(decide (e.2.node = some r))), out := el.out.filter (fun e => !(mine.any (fun m => m.1 == e.op))) }
    { s with el := el }.mapNode r (fun n => { n with moving := 0 })

/-- A PRELOAD has ended: its group is LOCKED, or stays RELEASING; one that was held is held no more (R201). -/
def preloadOver (s : State) (r : NodeRef) : State :=
  let s := ((s.groupLoad.filter (fun e => decide (e.2 = r))).map (fun (e : Nat × NodeRef) => e.1)).foldl (fun s g =>
    let s := { s with groupLoad := SMap.del s.groupLoad g }
    if s.rget Fld.L2_GROUP_STATE 0 g = 1 then s.rput Fld.L2_GROUP_STATE 2 0 g else s) s
  ((s.groupHeld.filter (fun e => decide (e.2 = r))).map (fun (e : Nat × NodeRef) => e.1)).foldl (fun s g =>
    { s with groupHeld := SMap.del s.groupHeld g }.rput Fld.L2_GROUP_PENDING 0 0 g) s

/-- Tell the engine of a running node to stop; the node will complete with a status (R288 step 3). -/
def abortNode (s : State) (r : NodeRef) (status : Nat) : State :=
  match s.node r with
  | none => s
  | some n =>
    if n.stage ≠ .running ∨ n.aborting = true then s
    else
      -- a PRELOAD that is stopped completes ABORTED with its counts (R201, R288)
      let st := if n.typ = 0x06 then stAborted else status
      let s := s.mapNode r (fun n => { n with aborting := true, status := st, deal := [] })
      if n.launch = 0 then dropPuts (dropGranules s r) r else stopLaunch s n.launch

/-- Has the engine of a node come to rest? -/
def engineQuiet (s : State) (n : Node) : Bool :=
  if n.launch ≠ 0 then launchQuiet s n.launch else decide (n.moving = 0)

/-- A node whose engine was told to stop and has come to rest completes. -/
def finishAborted (s : State) (r : NodeRef) : State :=
  match s.node r with
  | none => s
  | some n =>
    let s := if n.launch = 0 then preloadOver s r else closeLaunch (discardLaunch s n.launch) r
    completeOne s r n.status

/-! ### Guilty and destroyed queues (R287, R288) -/

/-- The references of a queue's nodes that satisfy a test. -/
def nodesWhere (s : State) (qn : Nat) (p : Node → Bool) : List NodeRef :=
  (s.queue qn).buffers.flatMap (fun b => (b.nodes.filter p).map (fun n => { queue := qn, seq := b.seq, node := n.index }))

/-- Stop a queue's work: nodes that have not started complete with the status without running, and running nodes'
engines are told to stop (R287, R288). -/
def abortQueue (s : State) (qn status : Nat) : State :=
  let running := nodesWhere s qn (fun n => decide (n.stage = .running))
  let waiting := nodesWhere s qn (fun n => decide (n.stage = .waiting))
  let s := waiting.foldl (fun s r => completeOne s r status) s
  let s := running.foldl (fun s r => abortNode s r status) s
  -- a buffer still being fetched is not taken any more
  let s := { s with submits := s.submits.map (fun (e : Nat × SubmitJob) =>
    (e.1, if e.2.queue = qn ∧ e.2.failed = 0 then { e.2 with failed := stInvalidState } else e.2)) }
  s.mapQueue qn (fun q => { q with aborts := running, abortAt := s.now })

/-- A guilty status moves an ACTIVE or DISABLING queue to RESETTING; a held QUEUE_ENABLE is dropped (R269, R270, R287). -/
def queueGuilty (s : State) (qn status record : Nat) : State :=
  let st := s.qState qn
  if st = qActive ∨ st = qDisabling then
    let s := s.setQState qn qResetting
    let s := s.mapQueue qn (fun q => { q with guilt := (status, record), held := if q.held = some .enable then none else q.held })
    let s := s.rput Fld.FE_QUEUE_STATUS_PENDING (b2n (s.queue qn).held.isSome) 0 qn
    abortQueue s qn stAborted
  else s

/-- A node completes with a status; a guilty one resets its queue (R284, R287). -/
def completeNode (s : State) (r : NodeRef) (status : Nat) : State :=
  match s.node r with
  | none => s
  | some n =>
    if n.isDone || decide (n.fin ≠ 0) then s
    else
      let s := completeOne s r status
      noteReady (if isGuilty status then queueGuilty s r.queue status n.error else s)

/-- A queue command acts: 1 disable, 2 enable or reset, 3 destroy (R269, R287, R288). -/
def queueAct (s : State) (qn : Nat) (c : Option HeldCmd) : State :=
  let s := (s.mapQueue qn (fun q => { q with held := none })).rput Fld.FE_QUEUE_STATUS_PENDING 0 0 qn
  match c with
  | none => s.setQState qn (if qRunning s qn then qDisabling else qDisabled)
  | some .enable => noteReady (s.setQState qn qActive)
  | some .reset => noteReady (s.setQState qn qActive)
  | some .destroy => abortQueue (s.setQState qn qDestroying) qn stDestroyed

/-- The last running node of a DISABLING queue has completed: DISABLED, and a held command acts (R269, R270). -/
def settleDisabling (s : State) (qn : Nat) : State :=
  if s.qState qn = qDisabling ∧ qRunning s qn = false then
    let s := s.setQState qn qDisabled
    match (s.queue qn).held with
    | some c => queueAct s qn (some c)
    | none => s
  else s

/-- Chip-level containment of a context: its running nodes stop and complete CONTAINED, its queues stay ACTIVE (R387). -/
def containContext (s : State) (context record : Nat) : State :=
  s.queues.foldl (fun s e =>
    if s.qContext e.1 = context ∧ s.qState e.1 ≠ qFree then
      (nodesWhere s e.1 (fun n => decide (n.stage = .running))).foldl (fun s r =>
        abortNode (s.mapNode r (fun n => n.caused record)) r stContained) s
    else s) s

/-! ### The rows -/

/-- A ready node starts: the earliest of its queue that is not a launch without room (R278); its watchdog runs from now (R286). -/
def doNodeStart (noRoom : NodeRef → Bool) (r : NodeRef) (s : State) : State :=
  if !(feRuns s) || decide (((readyNodes s r.queue).filter (fun x => !(noRoom x))).head? ≠ some r) then s
  else
    match s.node r with
    | none => s
    | some n =>
      let us := if n.watchdog = 0 then s.rget Fld.FE_WATCHDOG_DEFAULT_US else n.watchdog
      noteActive (s.mapNode r (fun n => { n with
        stage := .running, start := s.now, timer := some (s.arm (s.qContext r.queue) (1000 * us)) })) r.queue

/-- A launch has run to its end, or has failed and its trays stand at safe points. -/
def launchEnded (s : State) (L : Launch) : Bool :=
  decide (L.retired = L.sheets) || (L.aborting && launchQuiet s L.serial)

/-- A node completes (R284): one whose action is done, one whose predecessor failed, a launch whose sheets have all
retired or whose failure has stopped its trays, one whose engine was told to stop. -/
def doNodeComplete (r : NodeRef) (s : State) : State :=
  if !(feRuns s) then s
  else
    match (s.queue r.queue).buffer r.seq, s.node r with
    | some b, some n =>
      let s :=
        match n.stage with
        | .waiting => if depFailed b n then completeNode s r stDepFailed else s
        | .done => s
        | .acted => if n.fin = 0 then completeNode s r n.status else s
        | .running =>
          if n.aborting then
            if (s.queue r.queue).aborts.contains r || !(engineQuiet s n) then s
            else
              let s := finishAborted s r
              noteReady (if isGuilty n.status then queueGuilty s r.queue n.status n.error else s)
          else
            match s.launch n.launch with
            | none => s
            | some L =>
              if n.launch ≠ 0 ∧ launchEnded s L = true then
                let s := if L.retired = L.sheets then s else discardLaunch (dropDescs s L.serial) L.serial
                completeNode (closeLaunch s r) r L.status
              else s
      settleDisabling s r.queue
    | _, _ => s

/-- An engine reports that it has stopped its node (R288 step 3). -/
def doAbortReport (r : NodeRef) (s : State) : State :=
  match s.node r with
  | none => s
  | some n =>
    if (s.queue r.queue).aborts.contains r ∧ engineQuiet s n = true then
      let s := s.mapQueue r.queue (fun q => { q with aborts := q.aborts.filter (fun a => a != r) })
      noteReady (finishAborted s r)
    else s

/-- An engine silent for 1 ms after its abort: a chip-level fault; the front end goes on without it (R17, R288, R387). -/
def doAbortTimeout (r : NodeRef) (s : State) : State :=
  match s.node r with
  | none => s
  | some _ =>
    let q := s.queue r.queue
    if q.aborts.contains r then
      let s := s.pass (q.abortAt + 1000000 - s.now)
      let ctx := s.qContext r.queue
      let seq := s.nextErr
      let s := s.logErr {
        kind := 0x0C, cls := 3, status := stContained, object := r.queue, valueB := 2 ^ ctx, issued := q.abortAt }
      let s := s.mapQueue r.queue (fun q => { q with aborts := q.aborts.filter (fun a => a != r) })
      let s := finishAborted s r
      noteReady (containContext s ctx seq)
    else s

/-- A queue's abort is complete (R287 steps 3 and 4, R288 steps 4 and 5): GUILTY with its cause and NOTIFY kind 1, or
FREE with its references dropped; a held command acts. -/
def doQueueAbortDone (qn : Nat) (s : State) : State :=
  let q := s.queue qn
  let st := s.qState qn
  if q.aborts ≠ [] ∨ q.buffers ≠ [] then s
  else
    let last := q.nextSeq - 1
    if st = qResetting then
      let s := if q.doneSeq < last then signalQueueEvent (s.mapQueue qn (fun q => { q with doneSeq := last })) qn last else s
      let s := s.rput Fld.FE_QUEUE_STATUS_CAUSE q.guilt.1 0 qn
      let s := (s.notify 1 qn q.guilt.2).setQState qn qGuilty
      match (s.queue qn).held with
      | some c => queueAct s qn (some c)
      | none => s
    else if st = qDestroying then
      let s := signalQueueEvent (s.mapQueue qn (fun q => { q with doneSeq := last })) qn (last + 2 ^ 63)
      let s := match q.obj with
        | some i => dropRef s i
        | none => s
      let s := match q.eventObj with
        | some i => dropRef s i
        | none => s
      let s := [Fld.FE_QUEUE_STATUS_STATE, Fld.FE_QUEUE_STATUS_PENDING, Fld.FE_QUEUE_STATUS_CONTEXT,
        Fld.FE_QUEUE_STATUS_PRIO, Fld.FE_QUEUE_STATUS_CAUSE].foldl (fun s f => s.rput f 0 0 qn) s
      { s with queues := SMap.del s.queues qn }
    else s

/-- A node's watchdog expires: it stops and completes WATCHDOG, and its queue becomes guilty (R286). -/
def doWatchdog (r : NodeRef) (s : State) : State :=
  match s.node r with
  | none => s
  | some n =>
    match n.timer with
    | none => s
    | some tm =>
      if n.stage ≠ .running ∨ n.aborting = true ∨ n.timerHeld = true then s
      else
        match s.passTimer (s.qContext r.queue) tm with
        | none => s
        | some s =>
          let s := abortNode s r stWatchdog
          let s := s.mapNode r (fun n => { n with status := stWatchdog })
          -- the node whose engine is at rest completes at once
          match s.node r with
          | some n =>
            if engineQuiet s n then
              let s := finishAborted s r
              noteReady (queueGuilty s r.queue stWatchdog n.error)
            else s
          | none => s

def execQueueAbortDone (queue : Fin 1024) (s : State) : Out State := .next (s.onClock (doQueueAbortDone queue s))
def execObjectTeardown (object : Fin 65536) (s : State) : Out State := .next (s.onClock (doTeardown object s))

end Sys2Proof.Machine
end

