-- ==== Sys2Proof/Machine/Validate.lean ====
section
/-!
DEFINITION. Machine/Validate.lean: command buffers as the front end reads them (R274, R275) and the validation of their
nodes (R276, R279, R281, R294, R295, R298, R301, R313, R336, R378, R396, R410, R414).
-/
namespace Sys2Proof.Machine

/-! ### Node types (R276) -/

def ntLaunch : Nat := 0x01
def ntCopy : Nat := 0x02
def ntFill : Nat := 0x03
def ntSignal : Nat := 0x04
def ntWait : Nat := 0x05
def ntPreload : Nat := 0x06
def ntUnlock : Nat := 0x07
def ntRealign : Nat := 0x08
def ntTimestamp : Nat := 0x09
def ntRegRead : Nat := 0x0A
def ntRegWrite : Nat := 0x0B
def ntSetSeed : Nat := 0x0C
def ntCkpt : Nat := 0x0D
def ntRange : Nat := 0x20
def ntPartition : Nat := 0x21
def ntPower : Nat := 0x22
def ntRegion : Nat := 0x23
def ntLink : Nat := 0x24
def ntJobSet : Nat := 0x25
def ntSettings : Nat := 0x26
def ntFw : Nat := 0x27

def ones (lo len : Nat) : Nat := (2 ^ len - 1) * 2 ^ lo
def full : Nat := 2 ^ 64 - 1

/-- The bits that the body of a type defines, word 8 first; everything else of its words is reserved. None: no such
type. A LAUNCH is described by R279 and treated apart. -/
def bodyMask (typ : Nat) : Option (List Nat) :=
  if typ = ntCopy then some [full, full, full]
  else if typ = ntFill then some [full, full, full]
  else if typ = ntSignal ∨ typ = ntWait then some [full, full]
  else if typ = ntPreload then some [full, ones 0 54, full, full, ones 0 4]
  else if typ = ntUnlock then some [ones 0 4]
  else if typ = ntRealign then some [ones 0 5 + ones 8 8 + ones 16 6 + ones 24 8 + ones 32 6, ones 0 32, ones 0 40, full]
  else if typ = ntTimestamp then some []
  else if typ = ntRegRead then some [full]
  else if typ = ntRegWrite then some [full, full]
  else if typ = ntSetSeed then some [full]
  else if typ = ntCkpt then some [ones 0 2 + ones 4 28, full, full, ones 0 48]
  else if typ = ntRange then some [ones 0 10, full, full, full, full]
  else if typ = ntPartition then some [ones 0 6 + ones 8 4]
  else if typ = ntPower then some [ones 0 30]
  else if typ = ntRegion then some [ones 0 3]
  else if typ = ntLink then some [ones 0 10 + ones 16 16, full, ones 0 33]
  else if typ = ntJobSet then some [ones 0 48, ones 0 48, full, ones 0 54]
  else if typ = ntSettings then some [ones 0 4]
  else if typ = ntFw then some [ones 0 10, full, full, full, full, full, full, full]
  else none

/-- A word of a node. -/
def wordOf (ws : List Nat) (i : Nat) : Nat := ws.getD i 0
def Node.word (n : Node) (i : Nat) : Nat := wordOf n.words i

/-- The bits of a node's words from word 8 on that its type does not define. -/
def bodyClean (typ : Nat) (ws : List Nat) : Bool :=
  match bodyMask typ with
  | none => false
  | some ms => (List.range (ws.length - 8)).all (fun i =>
      decide (wordOf ws (8 + i) &&& ms.getD i 0 = wordOf ws (8 + i)))

/-- The SIZE that a type asks for: the least that holds its body (R276, R279). -/
def sizeOf' (typ : Nat) (ws : List Nat) : Option Nat :=
  if typ = ntLaunch then some ((128 + 16 * bits (wordOf ws 9) 48 7 + 63) / 64 - 1)
  else (bodyMask typ).map (fun ms => (64 + 8 * ms.length + 63) / 64 - 1)

/-! ### The header (R275) -/

def hdrType (ws : List Nat) : Nat := bits (wordOf ws 0) 0 8
def hdrSize (ws : List Nat) : Nat := bits (wordOf ws 0) 8 5
def hdrNdep (ws : List Nat) : Nat := bits (wordOf ws 0) 16 4
def hdrRec (ws : List Nat) : Bool := decide (bits (wordOf ws 0) 20 1 = 1)
def hdrEvt (ws : List Nat) : Bool := decide (bits (wordOf ws 0) 21 1 = 1)
def hdrWatchdog (ws : List Nat) : Nat := bits (wordOf ws 0) 32 32
def hdrDepBits (ws : List Nat) : Nat := wordOf ws 4 + wordOf ws 5 * 2 ^ 64
def hdrDeps (ws : List Nat) : List Nat := (List.range (min 8 (hdrNdep ws))).map (fun d => bits (hdrDepBits ws) (16 * d) 12)

/-- Step 1 of R281: format. -/
def formatOk (index : Nat) (ws : List Nat) : Bool :=
  let typ := hdrType ws
  let deps := hdrDeps ws
  let used := (List.range (min 8 (hdrNdep ws))).foldl (fun m d => m + ones (16 * d) 12) 0
  let launch := decide (typ = ntLaunch)
  decide (some (hdrSize ws) = sizeOf' typ ws) && decide (bits (wordOf ws 0) 13 3 = 0) && decide (bits (wordOf ws 0) 22 10 = 0) &&
    decide (hdrNdep ws ≤ 8) && deps.all (fun d => decide (d < index)) && decide (hdrDepBits ws &&& used = hdrDepBits ws) &&
    decide (wordOf ws 6 = 0) && decide (wordOf ws 7 = 0) &&
    (if launch then
       decide (bits (wordOf ws 9) 63 1 = 0) && decide (bits (wordOf ws 10) 9 23 = 0) && decide (bits (wordOf ws 10) 56 8 = 0) &&
         decide (bits (wordOf ws 11) 48 16 = 0) && decide (bits (wordOf ws 12) 40 24 = 0) && decide (wordOf ws 14 = 0) &&
         decide (wordOf ws 15 = 0) &&
         (List.range ((ws.length - 16) / 2)).all (fun a =>
           if a < bits (wordOf ws 9) 48 7 then decide (bits (wordOf ws (17 + 2 * a)) 54 10 = 0)
           else decide (wordOf ws (16 + 2 * a) = 0) && decide (wordOf ws (17 + 2 * a) = 0))
     else bodyClean typ ws) &&
    (if typ = ntRange then
       (if bits (wordOf ws 8) 0 4 = 1 then
          decide (bits (wordOf ws 9) 0 12 = 0) && decide (bits (wordOf ws 10) 56 8 = 0) && decide (bits (wordOf ws 11) 48 16 = 0)
        else true)
     else true)

/-! ### Argument entries (R294, R295) -/

def argKind (w1 : Nat) : Nat := bits w1 52 2
def argLen (w1 : Nat) : Nat := bits w1 0 49
def argPerm (w1 : Nat) : Nat := bits w1 49 3

/-- Is an argument entry in range? -/
def argRange (w0 w1 : Nat) : Bool :=
  match argKind w1 with
  | 0 => decide (1 ≤ argLen w1) && decide (argLen w1 ≤ 2 ^ 48)
  | 1 => decide (w0 = 0) && decide (argLen w1 = 0)
  | 2 => decide (w0 = 0) && decide (argLen w1 = 4096)
  | _ => false

/-- The window of an argument entry, with the object it names; none when it does not translate. -/
def buildWindow (s : State) (context w0 w1 : Nat) : Option (Window × List Nat) :=
  match argKind w1 with
  | 0 =>
    (lookup s context w0 (argLen w1) (argPerm w1)).map (fun t =>
      ({ base := t.1, bound := argLen w1, r := Nat.testBit w1 49, w := Nat.testBit w1 50, a := Nat.testBit w1 51
         policy := mattrPolicy t.2.mattr, near := mattrNear t.2.mattr, imm := mattrImm t.2.mattr, range := t.2.object },
       [t.2.object]))
  | 1 => some ({}, [])
  | _ => some ({ base := carveBase s + mailboxOff, bound := 4096, r := true, w := true, a := true, mailbox := true }, [])

/-- The argument entries of a LAUNCH. -/
def launchArgs (ws : List Nat) : List (Nat × Nat) :=
  (List.range (bits (wordOf ws 9) 48 7)).map (fun a => (wordOf ws (16 + 2 * a), wordOf ws (17 + 2 * a)))

/-! ### Ranges of fields: step 3 of R281 -/

/-- Sheets of a launch that fit on an empty core (R39). -/
def sheetsPerCore (trays regs l1 scratch : Nat) (aligned : Bool) : Nat :=
  let byTrays := 64 / trays
  let byRegs := 2048 / (trays * regs)
  let byScratch := if scratch = 0 then 64 else (1024 - l1) * 1024 / scratch
  let n := min byTrays (min byRegs byScratch)
  if aligned then min n 1 else n

/-- Cores that have not been taken offline (R386). -/
def coresOnline (s : State) : Nat := ((List.range 192).filter (fun c => !(coreOffline s c))).length

def launchRange (s : State) (ws : List Nat) : Bool :=
  let w9 := wordOf ws 9
  let trays := bits w9 32 6 + 1
  let regs := 8 * (bits w9 38 4 + 1)
  let l1 := bits w9 42 4
  let scratch := bits (wordOf ws 10) 0 9
  let wt := bits (wordOf ws 12) 0 40
  decide (wordOf ws 8 % 8 = 0) && decide (1 ≤ bits w9 0 32) && decide (l1 ≤ 8) && decide (bits w9 48 7 ≤ 64) &&
    decide (scratch ≤ 256 - 16 * l1) && (decide (wt = 0) || decide (10000 ≤ wt)) &&
    (launchArgs ws).all (fun a => argRange a.1 a.2) &&
    decide (((launchArgs ws).filter (fun a => argKind a.2 == 2)).length ≤ 1) &&
    (decide (bits w9 46 1 = 0) ||
      decide (bits w9 0 32 ≤ coresOnline s * sheetsPerCore trays regs (64 * l1) (4096 * scratch) (decide (bits w9 47 1 = 1))))

/-- Does CORE_A or CORE_B of a REALIGN_SET name a core (R15)? -/
def coreIdOk (id : Nat) : Bool := (linearCore id).isSome

def fieldRange (s : State) (ws : List Nat) : Bool :=
  let typ := hdrType ws
  let w8 := wordOf ws 8
  let op := bits w8 0 4
  (!(hdrRec ws) || decide (wordOf ws 1 % 128 = 0)) && (!(hdrEvt ws) || decide (wordOf ws 2 % 8 = 0)) &&
    (if typ = ntLaunch then launchRange s ws
     else if typ = ntCopy then decide (wordOf ws 10 % 64 = 0)
     else if typ = ntFill then decide (wordOf ws 9 % 8 = 0)
     else if typ = ntSignal ∨ typ = ntWait then decide (w8 % 8 = 0)
     else if typ = ntPreload then decide (argKind (wordOf ws 9) = 0) && argRange w8 (wordOf ws 9) &&
       decide (wordOf ws 10 + wordOf ws 11 ≤ argLen (wordOf ws 9))
     else if typ = ntRealign then
       decide (bits w8 4 1 = 1) ||
         (coreIdOk (bits w8 8 8) && coreIdOk (bits w8 24 8) && decide (bits w8 16 6 < 48) && decide (bits w8 32 6 < 48) &&
           decide (10000 ≤ bits (wordOf ws 10) 0 40))
     else if typ = ntRegRead ∨ typ = ntRegWrite then (regNamed w8).isSome
     else if typ = ntCkpt then decide (bits (wordOf ws 11) 0 48 % 4096 = 0) && decide (bits (wordOf ws 11) 0 48 ≤ 2 ^ 40)
     else if typ = ntRange then decide (1 ≤ op) && decide (op ≤ 5)
     else if typ = ntPartition then (SMap.find? s.contexts (bits w8 0 6)).isSome || decide (bits w8 0 6 = 0)
     else if typ = ntLink then
       decide (1 ≤ op) && decide (op ≤ 6) && (decide (4 < op) || decide (bits w8 4 6 < 48)) &&
         (decide (op ≠ 6) ||
           (decide (1 ≤ bits (wordOf ws 10) 16 17) && decide (bits (wordOf ws 10) 0 16 + bits (wordOf ws 10) 16 17 ≤ 65536)))
     else if typ = ntJobSet then decide (1 ≤ op) && decide (op ≤ 6)
     else if typ = ntSettings then decide (op = 1) || decide (op = 2)
     else if typ = ntFw then decide (1 ≤ op) && decide (op ≤ 5)
     else true)

/-! ### Step 4: translation -/

/-- The extents that a type's body names: address, bytes, permission, and whether it is an event word. -/
def bodyExtents (ws : List Nat) : List (Nat × Nat × Nat × Bool) :=
  let typ := hdrType ws
  let w8 := wordOf ws 8
  if typ = ntCopy then [(w8, wordOf ws 10, permR, false), (wordOf ws 9, wordOf ws 10, permW, false)]
  else if typ = ntFill then [(w8, wordOf ws 9, permW, false)]
  else if typ = ntSignal ∨ typ = ntWait then [(w8, 8, permA, true)]
  else if typ = ntCkpt then
    let n := bits (wordOf ws 11) 0 48
    (wordOf ws 9, n, permR, false) :: (if bits w8 0 1 = 1 then [] else [(wordOf ws 10, n, permW, false)])
  else if typ = ntLink ∧ bits w8 0 4 = 6 then [(wordOf ws 9, 8 * bits (wordOf ws 10) 16 17, permR, false)]
  else if typ = ntFw ∧ bits w8 0 4 = 1 then [(wordOf ws 9, bits (wordOf ws 10) 0 32, permR, false)]
  else if typ = ntFw ∧ bits w8 0 4 = 5 then [(wordOf ws 9, if bits w8 7 1 = 1 then 32768 else 8192, permW, false)]
  else []

/-- What validation makes of a node's addresses. -/
structure Xlat where
  ok : Bool := true
  phys : List Nat := []
  objs : List Nat := []
  windows : List Window := []
  code : Nat × Nat := (0, 0)

def Xlat.extent (s : State) (context : Nat) (x : Xlat) (e : Nat × Nat × Nat × Bool) : Xlat :=
  match lookup s context e.1 e.2.1 e.2.2.1 with
  | some t => { x with phys := x.phys ++ [t.1], objs := x.objs ++ namedObjs s context t e.2.2.2 }
  | none => { x with ok := false }

def Xlat.arg (s : State) (context : Nat) (x : Xlat) (a : Nat × Nat) : Xlat :=
  match buildWindow s context a.1 a.2 with
  | some w => { x with windows := x.windows ++ [w.1], objs := x.objs ++ w.2 }
  | none => { x with ok := false }

/-- The body's addresses, a LAUNCH's windows and its code window (R295). -/
def translateBody (s : State) (context : Nat) (ws : List Nat) : Xlat :=
  let x := (bodyExtents ws).foldl (Xlat.extent s context) {}
  if hdrType ws = ntLaunch then
    let x := (launchArgs ws).foldl (Xlat.arg s context) x
    match rangeAt s context (wordOf ws 8) with
    | none => { x with ok := false }
    | some (_, r) =>
      let n := 4096 * (r.vbase + r.ngran) - wordOf ws 8
      match lookup s context (wordOf ws 8) n permX with
      | some t => { x with code := (t.1, n), objs := x.objs ++ [t.2.object] }
      | none => { x with ok := false }
  else if hdrType ws = ntPreload then Xlat.arg s context x (wordOf ws 8, wordOf ws 9)
  else x

/-- Do the source and destination of a copy lie in HBM or the host window, without overlap (R277)? -/
def copyEndsOk (ws : List Nat) (phys : List Nat) : Bool :=
  let typ := hdrType ws
  let inside := fun (a n : Nat) => decide (a + n ≤ hbmEnd) || (isHost a && decide (a + n ≤ hostEnd))
  if typ = ntCopy ∨ (typ = ntCkpt ∧ bits (wordOf ws 8) 0 1 = 0) then
    let n := if typ = ntCopy then wordOf ws 10 else bits (wordOf ws 11) 0 48
    match phys with
    | [a, b] => inside a n && inside b n && !(decide (a < b + n) && decide (b < a + n))
    | _ => true
  else if typ = ntFill then
    match phys with
    | [a] => inside a (wordOf ws 9)
    | _ => true
  else true

/-! ### A node's validation (R281, R301) -/

/-- Take a reference on each object; when one is refused those taken are given back. -/
def takeRefs (s : State) : List Nat → List Nat → State × Option (List Nat)
  | [], taken => (s, some taken)
  | i :: rest, taken =>
    match addRef s i 1 with
    | (s, _, true) => takeRefs s rest (taken ++ [i])
    | (s, _, false) => (taken.foldl dropRef s, none)

/-- Check a node and enter it: waiting, or with the status it completes with at once (R281). `ended` says that parsing has
ended before it. -/
def validateNode (s : State) (qn index : Nat) (ws : List Nat) (ended : Bool) : State × Node × Bool :=
  let ctx := s.qContext qn
  let typ := hdrType ws
  let known := decide (typ = ntLaunch) || (bodyMask typ).isSome
  let bare : Node := { index := index, typ := typ, words := ws }
  if ended || !known then (s, { bare with stage := .acted, status := stFormat }, true)
  else
    let recAddr := if hdrRec ws && decide (wordOf ws 1 % 128 = 0) then lookup s ctx (wordOf ws 1) 128 permW else none
    let evtAddr := if hdrEvt ws && decide (wordOf ws 2 % 8 = 0) then lookup s ctx (wordOf ws 2) 8 permA else none
    let n : Node := { bare with
      deps := (hdrDeps ws).filter (fun d => decide (d < index)), watchdog := hdrWatchdog ws, record := recAddr.map (fun t => t.1)
      event := evtAddr.map (fun t => (t.1, wordOf ws 3)) }
    let kernelOnly := decide (0x20 ≤ typ) || (decide (typ = ntRegWrite) &&
      (match regNamed (wordOf ws 8) with
       | some r => r.hasKrw
       | none => false))
    let fail := fun (s : State) (st : Nat) => (s, { n with stage := NodeStage.acted, status := st }, false)
    if !(formatOk index ws) then fail s stFormat
    else if kernelOnly && decide (qn ≠ 0) then fail s stPrivilege
    else if !(fieldRange s ws) then fail s stInvalidArgument
    else
      let x := translateBody s ctx ws
      let lost := (hdrRec ws && recAddr.isNone) || (hdrEvt ws && evtAddr.isNone)
      let s := countLookup s (x.ok && !lost)
      if !x.ok || lost then fail s stTranslation
      else if !(copyEndsOk ws x.phys) then fail s stInvalidArgument
      else
        let objs := (x.objs ++ (recAddr.map (fun t => namedObjs s ctx t false)).getD [] ++
          (evtAddr.map (fun t => namedObjs s ctx t true)).getD []).eraseDups
        match takeRefs s objs [] with
        | (s, none) => fail s stTranslation
        | (s, some refs) => (s, { n with phys := x.phys, windows := x.windows, code := x.code, refs := refs }, false)

/-- Validate the nodes of a buffer in order. -/
def validateAll (s : State) (qn : Nat) : Nat → Bool → List (List Nat) → State × List Node
  | _, _, [] => (s, [])
  | index, ended, ws :: rest =>
    let (s, n, ended) := validateNode s qn index ws ended
    let (s, ns) := validateAll s qn (index + 1) ended rest
    (s, n :: ns)

/-! ### The buffer (R274) -/

/-- The 64-bit words of a list of bytes. -/
def wordsOf : Nat → List Nat → List Nat
  | 0, _ => []
  | n + 1, bs => ((bs.take 8).foldr (fun b acc => b + 256 * acc) 0) :: wordsOf n (bs.drop 8)

/-- Cut a buffer's nodes by their SIZE; none when the sizes do not sum to the length. -/
def cutNodes : Nat → List Nat → Option (List (List Nat))
  | 0, ws => if ws.isEmpty then some [] else none
  | n + 1, ws =>
    let len := 8 * (hdrSize ws + 1)
    if ws.length < len then none
    else (cutNodes n (ws.drop len)).map (fun rest => ws.take len :: rest)

/-- The nodes of a buffer, and CONCURRENT; none is FORMAT (R274). -/
def readBuffer (ws : List Nat) : Option (Bool × List (List Nat)) :=
  let w0 := wordOf ws 0
  if bits w0 13 51 ≠ 0 ∨ (ws.drop 1).take 7 ≠ List.replicate 7 0 then none
  else (cutNodes (bits w0 0 12 + 1) (ws.drop 8)).map (fun ns => (decide (bits w0 12 1 = 1), ns))

end Sys2Proof.Machine
end

