-- ==== Sys2Proof/Machine/Mover.lean ====
section
/-!
DEFINITION. Machine/Mover.lean: the DMA movers (R168 to R174, R202 to R204, R277): DMAPOST, descriptors and the front
end's granules.
-/
namespace Sys2Proof.Machine

def State.mover (s : State) (b : Nat) : Mover := SMap.get s.movers b {}

/-- Keep a mover, and what BK_DMA_QUEUE shows of it. -/
def State.setMover (s : State) (b : Nat) (m : Mover) : State :=
  let s := { s with movers := SMap.put s.movers b m }
  let s := s.rput Fld.BK_DMA_QUEUE_DEPTH m.queue.length b
  let s := s.rput Fld.BK_DMA_QUEUE_BUSY (b2n m.job.isSome) b
  s.rput Fld.BK_DMA_QUEUE_MODE (match m.job with
    | some (.desc d) => d.mode
    | _ => 0) b

/-! ### Descriptors (R169 to R171) -/

/-- Elements of a tile's side: 64 of 8 bits, 32 of 16. -/
def Desc.tile (d : Desc) : Nat := if d.wide then 32 else 64
def Desc.rows (d : Desc) : Nat := d.tr * d.tile
def Desc.rowBytes (d : Desc) : Nat := d.tc * 64

/-- Bytes from a copy's first to its last: the transposed copy has (TC + 1) x T rows of (TR + 1) x 64 B, the plain one
(TR + 1) x T rows of (TC + 1) x 64 B. -/
def Desc.span (d : Desc) (transposed : Bool) (pitch : Nat) : Nat :=
  if transposed then (d.tc * d.tile - 1) * pitch + d.tr * 64 else (d.rows - 1) * pitch + d.rowBytes

/-- A descriptor as its four words give it. -/
def readDesc (launch core slot : Nat) (w : Nat → Nat) : Desc :=
  { launch := launch, core := core, slot := slot, word0 := w 0, mode := bits (w 0) 0 2, wide := Nat.testBit (w 0) 2
    toWindow := Nat.testBit (w 0) 3, tr := bits (w 0) 4 8 + 1, tc := bits (w 0) 12 8 + 1, dmask := bits (w 0) 20 8
    cnt := bits (w 0) 28 6, cntEn := Nat.testBit (w 0) 34, base := bits (w 1) 0 48, wpitch := bits (w 2) 0 24
    doff := bits (w 2) 24 20, dpitch := 16 * bits (w 2) 44 16, d2off := bits (w 3) 0 20, d2pitch := 16 * bits (w 3) 20 16 }

/-- The checks of R171 that make an invalid argument. -/
def Desc.argsOk (d : Desc) (w3 : Nat) : Bool :=
  decide (d.mode < 3) && !(d.toWindow && decide (d.mode ≠ 0)) &&
    [d.base, d.wpitch, d.doff, d.d2off, d.dpitch, d.d2pitch].all (fun v => decide (v % 64 = 0)) &&
    decide (d.rowBytes ≤ d.wpitch) && decide (d.dmask ≠ 0) &&
    !(d.toWindow && decide (((List.range 8).filter (fun i => Nat.testBit d.dmask i)).length ≠ 1)) &&
    !(d.cntEn && decide (47 < d.cnt)) && (decide (d.mode = 2) || decide (w3 = 0)) &&
    !(decide (d.mode = 2) && overlaps (d.doff, d.span true d.dpitch) (d.d2off, d.span false d.d2pitch))

/-- DMAPOST (R202, R203): the descriptor is checked as it leaves the core (R73, R171, R249); it is a release at device
scope (R240) and takes a mover credit. -/
def doDmapost (o : TrayOp) (s : State) : State :=
  issueTray o s (fun x =>
    let a := o.srcA.toNat
    x.withRegs (decide (a % 8 = 0) && decide (a + 8 ≤ x.L.regs) && decide (o.dst = 0) && decide (o.srcB = 0) &&
        decide (o.srcC = 0) && decide (o.fld 0 13 = 0)) (regsOf a 8)
      (match Mask.lowest x.on with
       | none => x.issueWith 1 none
       | some lane =>
         let w := fun (i : Nat) => x.regsVal (a + 2 * i) 2 lane
         let d := readDesc x.L.serial x.core x.slot w
         let win := bits (w 1) 48 6
         let m : Nat := 2 ^ lane
         if (s.core x.core).moverCredits = 0 then x.s
         else if !(d.argsOk (w 3)) then x.fault stTrayArgument 0 m win
         else if d.cntEn && !(Nat.testBit x.L.counterMask d.cnt) then x.fault stSyncObject d.cnt m
         else
           match x.L.windows[win]? with
           | none => x.fault stWindow d.base m win
           | some v =>
             let need := if d.toWindow then v.w else v.r
             let host := isHost (v.base + d.base)
             if !need || decide (v.bound < d.base + d.span false d.wpitch) || (host && decide (d.mode ≠ 0)) then
               x.fault stWindow d.base m win
             else if !x.released then x.s
             else
               let b := blockOf x.core
               let t := { x.t with descs := x.t.descs + 1 }
               let s := { x with t := t }.issueWith 1 none
               let s := s.mapCore x.core (fun c => { c with moverCredits := c.moverCredits - 1 })
               let mv := s.mover b
               s.setMover b { mv with queue := mv.queue ++ [{ d with base := v.base + d.base, policy := v.policy }] }))

/-! ### Moving tiles (R170, R173) -/

/-- Where a mover reads window bytes: memory, or what host reads have brought. -/
def readWindow (s : State) (m : Mover) (a : Nat) : Nat → Nat
  | 0 => 0
  | n + 1 => (if isHost a then SMap.get m.data a 0 else (s.byte a).toNat) + 256 * readWindow s m (a + 1) n

/-- The cells that a descriptor names. -/
def Desc.cells (d : Desc) : List Nat := ((List.range 8).filter (fun i => Nat.testBit d.dmask i)).map (fun i => 8 * (d.core / 8) + i)

/-- The sheet of the posting launch on a cell: the posting tray's own on its core. -/
def sheetOn (s : State) (d : Desc) (core : Nat) : Option Sheet :=
  let c := s.core core
  if core = d.core then (c.tray d.slot).bind (fun t => c.sheet? t.sheet)
  else c.sheets.find? (fun h => h.launch == d.launch)

/-- The check of a named cell at start (R22, R171). -/
def cellOk (s : State) (d : Desc) (core : Nat) : Bool :=
  match sheetOn s d core, s.launch d.launch with
  | some h, some L =>
    let spans := match d.mode with
      | 0 => [(d.doff, d.span false d.dpitch)]
      | 1 => [(d.doff, d.span true d.dpitch)]
      | _ => [(d.doff, d.span true d.dpitch), (d.d2off, d.span false d.d2pitch)]
    (decide (core = d.core) || L.aligned) && spans.all (fun e =>
      decide (e.1 + e.2 ≤ h.size) && decide (h.base + e.1 + e.2 ≤ (1024 - (s.core core).l1KiB) * 1024))
  | _, _ => false

/-- The rows of a tile as (scratchpad offset, 64 B value) for the plain or the transposed copy. -/
def tileRows (d : Desc) (rd : Nat → Nat → Nat) (tr tc : Nat) (transposed : Bool) : List (Nat × Nat) :=
  let t := d.tile
  let es := 64 / t
  let row := fun (r : Nat) => rd (d.base + (tr * t + r) * d.wpitch + tc * 64) 64
  if transposed then
    let rows := (List.range t).map row
    (List.range t).map (fun c =>
      (d.doff + (tc * t + c) * d.dpitch + tr * 64,
       (rows.map (fun v => bits v (8 * es * c) (8 * es))).foldr (fun e acc => e + acc * 2 ^ (8 * es)) 0))
  else
    let (off, pitch) := if d.mode = 2 then (d.d2off, d.d2pitch) else (d.doff, d.dpitch)
    (List.range t).map (fun r => (off + (tr * t + r) * pitch + tc * 64, row r))

/-- Write a tile of a loading descriptor to every named cell, whole 64 B rows. -/
def moveTile (s : State) (m : Mover) (d : Desc) (tr tc : Nat) : State :=
  let rd := readWindow s m
  let rows := (match d.mode with
    | 0 => tileRows d rd tr tc false
    | 1 => tileRows d rd tr tc true
    | _ => tileRows d rd tr tc true ++ tileRows d rd tr tc false)
  d.cells.foldl (fun s core =>
    match sheetOn s d core with
    | none => s
    | some h => rows.foldl (fun s e => s.write (sramAddr core (h.base + e.1)) 64 e.2) s) s

/-- Write a tile of a storing descriptor to the window (R204). -/
def storeTile (s : State) (d : Desc) (tr tc : Nat) : State :=
  match d.cells.head? with
  | none => s
  | some core =>
    match sheetOn s d core with
    | none => s
    | some h =>
      (List.range d.tile).foldl (fun s r =>
        let v := s.readLE (sramAddr core (h.base + d.doff + (tr * d.tile + r) * d.dpitch + tc * 64)) 64
        agentWrite s (d.base + (tr * d.tile + r) * d.wpitch + tc * 64) 64 v d.policy) s

/-- The tiles of a descriptor in source order: tile row by tile row. -/
def Desc.tiles (d : Desc) : List (Nat × Nat) := (List.range d.tr).flatMap (fun r => (List.range d.tc).map (fun c => (r, c)))

/-- The first poisoned line of a tile's source rows. -/
def tilePoison (s : State) (d : Desc) (tr tc : Nat) : Option Nat :=
  let src := fun (r : Nat) => d.base + (tr * d.tile + r) * d.wpitch + tc * 64
  if d.toWindow then
    d.cells.head?.bind (fun core => (sheetOn s d core).bind (fun h =>
      ((List.range d.tile).map (fun r => sramAddr core (h.base + d.doff + (tr * d.tile + r) * d.dpitch + tc * 64))).find?
        (fun a => s.extentPoisoned a 64)))
  else ((List.range d.tile).map src).find? (fun a => !(isHost a) && s.extentPoisoned a 64)

/-! ### The end of a descriptor -/

/-- The credit comes back, the tray has one descriptor less in flight, and the mover is free (R174, R203). -/
def descOver (s : State) (b : Nat) (d : Desc) : State :=
  let s := s.setMover b { s.mover b with job := none, data := [], waiting := 0, writing := false, failed := 0 }
  let s := s.mapCore d.core (fun c => { c with moverCredits := c.moverCredits + 1 })
  trayProgress (s.mapTray d.core d.slot (fun t => { t with descs := t.descs - 1 })) d.core d.slot

/-- A descriptor fails: its record, and the tray-level fault of the posting launch (R171, R173, R383). -/
def descFail (s : State) (b : Nat) (d : Desc) (status line tile : Nat) : State :=
  let L := (s.launch d.launch).getD { serial := 0, context := 0, queue := 0, seq := 0, node := 0 }
  let seq := s.nextErr
  let s := s.logErr {
    kind := 0x04, cls := 2, qvalid := true, status := status, unit := 3, place := b, queue := L.queue, context := L.context
    launch := d.launch, slot := d.slot, object := line, valueA := d.word0, valueB := tile, detail := d.dmask }
  let s := s.rbump Fld.BK_DMA_XPOSE_FAILED 1 b
  (descOver s b d).trayStop d.core d.slot d.launch status seq

/-- A descriptor completes: counters rise on each named cell, tiles are counted (R173). -/
def descDone (s : State) (b : Nat) (d : Desc) : State :=
  let s := if d.cntEn then d.cells.foldl (fun s c => s.addCounter c d.cnt 1) s else s
  let s := if d.mode = 0 then s else s.rbump Fld.BK_DMA_XPOSE_TILES (d.tr * d.tc) b
  descOver s b d

/-! ### Granules (R277) -/

/-- Hand a node's next granules to the movers that have room for them: two each. -/
def dealGranules (s : State) (r : NodeRef) : Nat → State
  | 0 => s
  | k + 1 =>
    match s.node r with
    | none => s
    | some n =>
      match n.deal.find? (fun e => (s.mover e.1).fe.length < 2) with
      | none => s
      | some e =>
        let s := s.mapNode r (fun n => { n with deal := n.deal.erase e, moving := n.moving + 1 })
        let m := s.mover e.1
        dealGranules (s.setMover e.1 { m with fe := m.fe ++ [e.2] }) r k

def Granule.ref (g : Granule) : NodeRef := { queue := g.queue, seq := g.seq, node := g.node }

/-- The CRC-64 of R396: polynomial of ECMA-182, initial value 0, no reflection. -/
def crcStep (crc : Nat) : Nat → Nat
  | 0 => crc
  | n + 1 => crcStep (if Nat.testBit crc 63 then ((crc * 2) % 2 ^ 64) ^^^ 0x42F0E1EBA9EA3693 else crc * 2) n

def crcByte (crc b : Nat) : Nat := crcStep (crc ^^^ (b * 2 ^ 56)) 8

/-- The CRC of `n` bytes of a value, lowest address first. -/
def crcOf (crc v : Nat) : Nat → Nat
  | 0 => crc
  | n + 1 => crcOf (crcByte crc (v % 256)) (v / 256) n

/-- Is a node a CKPT_COPY that asks for a checksum? -/
def Node.wantsCrc (n : Node) : Bool := decide (n.typ = ntCkpt) && Nat.testBit (n.word 8) 1

/-- The result word of a copy whose granules have all ended. -/
def copyResult (n : Node) : Nat :=
  if n.typ = ntCkpt then
    if n.wantsCrc then n.data.foldl (fun c e => crcOf c e.2 4096) 0 else bits (n.word 11) 0 48
  else n.progress

/-- The contents of an extent are undefined from now on (R277, R396). -/
def makeUndef (s : State) (a n : Nat) : State :=
  if n = 0 ∨ isHost a = true then s
  else { s with
    mem := s.mem.filter (fun c => !(decide (a ≤ c.1) && decide (c.1 < a + n)))
    undef := (a, n, some (2 ^ 64 + s.reads)) :: s.undef, reads := s.reads + 1 }

/-- Bytes that a copying node copies. -/
def Node.copyBytes (n : Node) : Nat := if n.typ = ntCkpt then bits (n.word 11) 0 48 else n.word 10

/-- A granule has ended, with a status; the copy has acted once all of them have. -/
def granuleOver (s : State) (b : Nat) (g : Granule) (status moved : Nat) : State :=
  let r := g.ref
  let s := s.setMover b { s.mover b with job := none, data := [], waiting := 0, writing := false, failed := 0 }
  let s := s.mapNode r (fun n => { n with moving := n.moving - 1, progress := n.progress + moved })
  let s := if status = 0 then s else
    (dropGranules s r).mapNode r (fun n => { n with status := if n.status = 0 then status else n.status })
  let s := dealGranules s r 48
  match s.node r with
  | none => s
  | some n =>
    if n.stage = .running ∧ n.aborting = false ∧ n.moving = 0 ∧ n.deal = [] then
      let s := if n.status = stUncorrectable then makeUndef s (n.phys.getD 1 0) n.copyBytes else s
      s.mapNode r (fun n => { n with stage := .acted, result := copyResult n })
    else s

/-- The bytes of a granule that lie before its first poisoned source line. -/
def granuleGood (s : State) (g : Granule) : Nat :=
  if isHost g.src then g.bytes
  else
    match (linesOf g.src g.bytes).find? (fun l => s.extentPoisoned (max g.src (128 * l)) (min (g.src + g.bytes) (128 * l + 128) - max g.src (128 * l))) with
    | some l => max g.src (128 * l) - g.src
    | none => g.bytes

/-- Write a granule's first bytes to its destination in device memory, line by line (R277). -/
def granuleWrite (s : State) (g : Granule) (data n : Nat) : State :=
  (List.range ((n + 63) / 64)).foldl (fun s i =>
    agentWrite s (g.dst + 64 * i) (min 64 (n - 64 * i)) (bits data (512 * i) 512) (policyAt s g.dst)) s

/-! ### Service (R172, R277) -/

/-- A queued descriptor whose sheet a context switch has saved away is held (R174). -/
def descHeld (s : State) (d : Desc) : Bool :=
  match s.launch d.launch with
  | some L => L.saved.any (fun v => decide (v.core = d.core) && (SMap.find? v.trays d.slot).isSome)
  | none => false

/-- Ask the host for an extent a job reads. -/
def mvRead (s : State) (b a n : Nat) : State :=
  let ps := piecesIn a n
  let m := s.mover b
  let s := s.setMover b { m with waiting := m.waiting + ps.length }
  ps.foldl (fun s p => s.hostReq { src := .mover b, kind := .read, stream := streamMover b, off := p.1, len := p.2 }) s

/-- Send an extent of a job to the host. -/
def mvWrite (s : State) (b a n v : Nat) : State :=
  let ps := piecesIn a n
  let m := s.mover b
  let s := s.setMover b { m with waiting := m.waiting + ps.length }
  ps.foldl (fun s p => s.hostReq {
    src := .mover b, kind := .write, stream := streamMover b, off := p.1, len := p.2
    data := bits v (8 * (p.1 + hostBase - a)) (8 * p.2) }) s

/-- The record of a failed request (R355, R383). `code` is the DCPL's status, or 0xFF for a timeout. It is the ERROR of the launch or
node that the request serves, if its first (R283). -/
def ucRecord (s : State) (r : DevReq) (code : Nat) : State :=
  let base : ErrRec := {
    kind := 0x0B, cls := 3, status := stDeliveryFailure, unit := 7, object := r.off, valueA := r.stream, valueB := code
    detail := s.ucState, issued := r.sentAt
    paused := if r.sentAt = 0 then 0 else (s.now - r.sentAt) - (s.upClock - r.started) }
  let forQueue := fun (q : Nat) => { base with qvalid := true, queue := q, context := s.qContext q }
  let forLaunch := fun (serial slot : Nat) =>
    match s.launch serial with
    | some L => { base with qvalid := true, queue := L.queue, context := L.context, launch := serial, slot := slot }
    | none => base
  let launch := match r.src with
    | .tray core serial => ((findOp s core serial).bind (fun op => s.tray core op.slot)).elim 0 (fun t => t.launch)
    | .mover b => (match (s.mover b).job with
      | some (.desc d) => d.launch
      | _ => 0)
    | _ => 0
  let node := match r.src with
    | .body n => some n
    | .mover b => (match (s.mover b).job with
      | some (.granule g) => some g.ref
      | _ => none)
    | _ => none
  let t := s.logFor launch (match r.src with
    | .tray core serial =>
      (match (findOp s core serial).bind (fun op => (s.tray core op.slot).map (fun t => (op.slot, t.launch))) with
       | some e => forLaunch e.2 e.1
       | none => base)
    | .mover b =>
      (match (s.mover b).job with
       | some (.desc d) => forLaunch d.launch d.slot
       | some (.granule g) => forQueue g.queue
       | none => base)
    | .submit tag => (match SMap.find? s.submits tag with
       | some j => forQueue j.queue
       | none => base)
    | .record n => forQueue n.queue
    | .event n => forQueue n.queue
    | .body n => forQueue n.queue
    | .queueEvent q => forQueue q)
  match node with
  | some n => t.mapNode n (fun x => x.caused s.nextErr)
  | none => t

/-- The record of a mover's request that a port that is down does not take (R355). -/
def mvUndelivered (s : State) (b a : Nat) (kind : ReqKind) : State :=
  ucRecord s { src := .mover b, kind := kind, stream := streamMover b, off := a - hostBase, len := 1 } 0

/-- A request on the port that cannot be made. -/
def mvBlocked (s : State) (a : Nat) : Bool := isHost a && !(hostReachable s)

/-- A free mover takes its next descriptor: its cells' queue and the front end's alternate (R172, R277). A descriptor is
checked at its start (R171); a job on the host window first fetches its data. -/
def doMoverStart (b : Nat) (s : State) : State :=
  let m := s.mover b
  if m.job.isSome || s.domainStopped || s.flag Fld.MC_FREEZE_STATUS_FROZEN then s
  else
    let d := m.queue.find? (fun d => !(descHeld s d))
    let takeFe := fun (_ : Unit) => match m.fe with
      | [] => none
      | g :: rest => some (MoverJob.granule g, { m with fe := rest, lastFe := true })
    let takeDesc := fun (_ : Unit) => d.map (fun d => (MoverJob.desc d, { m with queue := m.queue.erase d, lastFe := false }))
    match (if m.lastFe then (takeDesc ()).orElse (fun _ => takeFe ()) else (takeFe ()).orElse (fun _ => takeDesc ())) with
    | none => s
    | some (job, m) =>
      let s := s.setMover b { m with job := some job, data := [], waiting := 0, writing := false, failed := 0 }
      match job with
      | .granule g => if isHost g.src && hostReachable s then mvRead s b g.src g.bytes else s
      | .desc d =>
        if d.cells.all (fun c => cellOk s d c) then
          if !d.toWindow && isHost d.base && hostReachable s then
            (List.range d.rows).foldl (fun s r => mvRead s b (d.base + r * d.wpitch) d.rowBytes) s
          else s
        else descFail s b d stBound 0 0

/-- A job whose requests on the port failed (R355): a launch's trays stop and its node completes DELIVERY_FAILURE; a copy's
node completes so. -/
def jobFailed (s : State) (b status : Nat) : State :=
  match (s.mover b).job with
  | none => s
  | some (.granule g) => granuleOver s b g status 0
  | some (.desc d) =>
    if status = stUncorrectable then descFail s b d stUncorrectable d.base 0
    else
      stopLaunch ((descOver s b d).mapLaunch d.launch (fun L => L.fail stDeliveryFailure 0)) d.launch

/-- The descriptor's tiles up to one, in order; the first poisoned line, with its tile, ends it (R173). A line of a range
with a reload source is refetched and the descriptor stalls. -/
def moveTiles (s : State) (m : Mover) (d : Desc) : List (Nat × Nat) → Nat → State × Option (Nat × Nat)
  | [], _ => (s, none)
  | (tr, tc) :: rest, i =>
    match tilePoison s d tr tc with
    | some a => (s, some (a, i))
    | none =>
      let s := if d.toWindow then (if isHost d.base then s else storeTile s d tr tc) else moveTile s m d tr tc
      moveTiles s m d rest (i + 1)

/-- Send a storing descriptor's rows to the host window. -/
def sendRows (s : State) (b : Nat) (d : Desc) : State :=
  match d.cells.head?.bind (fun core => (sheetOn s d core).map (fun h => (core, h))) with
  | none => s
  | some (core, h) =>
    (List.range d.rows).foldl (fun s r =>
      mvWrite s b (d.base + r * d.wpitch) d.rowBytes (s.readLE (sramAddr core (h.base + d.doff + r * d.dpitch)) d.rowBytes)) s

/-- The job of a mover reaches its end (R173, R277). -/
def doMoverComplete (b : Nat) (s : State) : State :=
  let m := s.mover b
  match m.job with
  | none => s
  | some job =>
    if m.waiting ≠ 0 ∨ s.domainStopped = true then s
    else if m.failed ≠ 0 then jobFailed s b m.failed
    else
      match job with
      | .granule g =>
        if m.writing then granuleOver s b g 0 g.bytes
        else if mvBlocked s g.src then jobFailed (mvUndelivered s b g.src .read) b stDeliveryFailure
        else if mvBlocked s g.dst then jobFailed (mvUndelivered s b g.dst .write) b stDeliveryFailure
        else if !(isHost g.src) && !(extentReady s g.src g.bytes) then s
        else
          let s := if isHost g.src then s
            else (agentRead (chargeLines s (s.qContext g.queue) (linesOf g.src g.bytes)) g.src g.bytes).1
          let good := granuleGood s g
          let data := readWindow s m g.src good
          let s := match s.node g.ref with
            | some n => if n.wantsCrc then s.mapNode g.ref (fun n => { n with data := SMap.put n.data (g.src - n.phys.headD 0) data }) else s
            | none => s
          if isHost g.dst then
            let s := s.setMover b { s.mover b with writing := true, failed := if good < g.bytes then stUncorrectable else 0 }
            mvWrite s b g.dst good data
          else
            let s := granuleWrite s g data good
            granuleOver s b g (if good < g.bytes then stUncorrectable else 0) good
      | .desc d =>
        if m.writing then descDone s b d
        else if mvBlocked s d.base then
          jobFailed (mvUndelivered s b d.base (if d.toWindow then .write else .read)) b stDeliveryFailure
        else
          let lines := if d.toWindow || isHost d.base then []
            else ((List.range d.rows).flatMap (fun r => linesOf (d.base + r * d.wpitch) d.rowBytes)).eraseDups
          let s := chargeLines s (((s.launch d.launch).map (fun L => L.context)).getD 0) lines
          match moveTiles s m d d.tiles 0 with
          | (_, some (a, i)) =>
            if !d.toWindow && (reloadSource s (lineOf a)).isSome then uncorrectableLine s (lineOf a) (a / 32)
            else
              let s := (moveTiles s m d (d.tiles.take i) 0).1
              descFail s b d stUncorrectable a i
          | (s, none) =>
            if d.toWindow && isHost d.base then sendRows (s.setMover b { m with writing := true }) b d
            else descDone s b d

/-- A window line of the descriptor in service returns uncorrectable at a tile (R173): the tiles before it are written. -/
def doMoverPoison (b tile : Nat) (s : State) : State :=
  let m := s.mover b
  match m.job with
  | some (.desc d) =>
    if m.waiting ≠ 0 ∨ m.writing = true ∨ d.tr * d.tc ≤ tile then s
    else
      let a := d.base + (tile / d.tc) * d.tile * d.wpitch + (tile % d.tc) * 64
      if !d.toWindow && (reloadSource s (lineOf a)).isSome then uncorrectableLine s (lineOf a) (a / 32)
      else
        let (s, stop) := moveTiles s m d (d.tiles.take tile) 0
        match stop with
        | some (a, i) => descFail s b d stUncorrectable a i
        | none => descFail s b d stUncorrectable a tile
  | _ => s

def execDmapost (o : TrayOp) (s : State) : Out State := .next (s.onClock (doDmapost o s))
def execMoverDescriptorStart (block : Fin 24) (s : State) : Out State := .next (s.onClock (doMoverStart block s))
def execMoverPoisonedLine (block : Fin 24) (tile : Nat) (s : State) : Out State := .next (s.onClock (doMoverPoison block tile s))

end Sys2Proof.Machine
end

