-- ==== Sys2Proof/Machine/Uc.lean ====
section
/-!
DEFINITION. Machine/Uc.lean: the UCIe port (R345 to R358): what trays, movers and the front end send to the host window and
what its completions do, the host's own requests, credits, and the states of the link.
-/
namespace Sys2Proof.Machine

/-! ### Trays and the host window (R190, R353, R354) -/

/-- Bytes as one number, the first lowest. -/
def joinBytes (bs : List Nat) : Nat := bs.foldr (fun b acc => b % 256 + 256 * acc) 0

/-- Runs of consecutive addresses of a rising list: start and length. -/
def runsOf : List Nat → List (Nat × Nat)
  | [] => []
  | a :: rest =>
    match runsOf rest with
    | (b, n) :: t => if b = a + 1 then (a, n + 1) :: t else (a, 1) :: (b, n) :: t
    | [] => [(a, 1)]

/-- The bytes that an access touches; for a store, with what it writes there. -/
def MemOp.byteMap (op : MemOp) : SMap Byte :=
  op.pieces.foldl (fun m p =>
    (List.range p.2.1).foldl (fun m i => SMap.put m (p.1 + i) (BitVec.ofNat 8 (bits p.2.2 (8 * i) 8))) m) []

/-- The requests of an access: its runs of bytes, cut at 256 B (R347). -/
def MemOp.requests (op : MemOp) (core : Nat) : List DevReq :=
  let m := op.byteMap
  ((runsOf (m.map (fun (e : Nat × Byte) => e.1))).flatMap (fun r => piecesIn r.1 r.2)).map (fun p => {
    src := .tray core op.serial, kind := if op.isStore then .write else .read, stream := streamTray core op.slot
    off := p.1, len := p.2
    data := if op.isStore then
      joinBytes ((List.range p.2).map (fun i => (SMap.get m (hostBase + p.1 + i) 0).toNat)) else 0 })

def mapOp (s : State) (core serial : Nat) (f : MemOp → MemOp) : State :=
  s.mapCore core (fun c => { c with ops := c.ops.map (fun p => if p.serial = serial then f p else p) })

/-- A tray's access is not delivered: its launch's trays stop at safe points and its node completes DELIVERY_FAILURE
(R355). The record is the last one written. -/
def trayUndelivered (s : State) (core : Nat) (op : MemOp) : State :=
  let s := dropOp s core op
  match s.tray core op.slot with
  | none => s
  | some t => stopLaunch (s.mapLaunch t.launch (fun L => L.fail stDeliveryFailure (s.nextErr - 1))) t.launch

/-- May an access to the host window be sent: performed in order, and behind the tray's earlier ones (R190, R241)? -/
def hostOpReady (c : Core) (op : MemOp) : Bool :=
  op.host && !op.sent && mayPerform c op &&
    !(c.ops.any (fun p => p.host && !p.sent && p.slot == op.slot && decide (p.serial < op.serial)))

/-- Send an access; it fails where the port is down. -/
def sendHostOp (s : State) (core : Nat) (op : MemOp) : State :=
  let rs := op.requests core
  let s := mapOp s core op.serial (fun p => { p with sent := true, waiting := rs.length })
  if hostReachable s then rs.foldl (fun s r => s.hostReq r) s
  else
    match rs with
    | r :: _ => trayUndelivered (ucRecord s r 0) core op
    | [] => s

/-- Send what a core's trays may send, in order. -/
def pumpCore (s : State) (core : Nat) : Nat → State
  | 0 => s
  | n + 1 =>
    match (s.core core).ops.find? (fun op => hostOpReady (s.core core) op) with
    | none => s
    | some op => pumpCore (sendHostOp s core op) core n

/-- Send what every core's trays may send to the host window. -/
def trayPump (s : State) : State :=
  if s.domainStopped then s
  else (s.cores.map (fun (e : Nat × Core) => (e.1, e.2.ops.length))).foldl (fun s e => pumpCore s e.1 e.2) s

/-- The bytes of a read that has come. -/
def dataBytes (r : DevReq) (data : Nat) : List (Nat × Nat) :=
  (List.range r.len).map (fun i => (hostBase + r.off + i, bits data (8 * i) 8))

/-- A completion for a tray's access: its bytes; the last one ends the access. -/
def trayReply (s : State) (core serial : Nat) (r : DevReq) (status data : Nat) : State :=
  match findOp s core serial with
  | none => s
  | some op =>
    if status = stUncorrectable then failOp s core op stUncorrectable (hostBase + r.off) op.laneMask
    else if status ≠ 0 then trayUndelivered s core op
    else
      let got := if op.isStore then op.hostData
        else (dataBytes r data).foldl (fun m e => SMap.put m e.1 (BitVec.ofNat 8 e.2)) op.hostData
      let op := { op with hostData := got, waiting := op.waiting - 1 }
      let s := mapOp s core serial (fun _ => op)
      if op.waiting ≠ 0 then s
      else
        match op.kind with
        | .load isSigned =>
          deliverLoad s core op isSigned (op.lanes.map (fun a =>
            (a.lane, joinBytes ((List.range op.size).map (fun i => (SMap.get got (a.addr + i) 0).toNat)))))
        | _ => endOp s core op

/-- A completion for a mover's job. -/
def moverReply (s : State) (b : Nat) (r : DevReq) (status data : Nat) : State :=
  let m := s.mover b
  let m := { m with waiting := m.waiting - 1 }
  if status = 0 then
    s.setMover b (if r.kind = .read then { m with data := (dataBytes r data).foldl (fun d e => SMap.put d e.1 e.2) m.data } else m)
  else s.setMover b { m with failed := if m.failed = 0 then status else m.failed }

/-! ### The buffer of a SUBMIT (R272 to R274) -/

/-- A SUBMIT is refused: its copy is freed and nothing is queued. -/
def refuseSubmit (s : State) (tag qn bytes status : Nat) : State :=
  (s.mapQueue qn (fun q => { q with pool := q.pool - bytes })).reply tag status

/-- The copy of a buffer is complete: its header is checked, its nodes are validated and it joins its queue (R272 to R274,
R281). -/
def acceptBuffer (s : State) (tag qn bytes : Nat) (data : List Nat) : State :=
  match readBuffer (wordsOf (bytes / 8) data) with
  | none => refuseSubmit s tag qn bytes stFormat
  | some (conc, nodes) =>
    let seq := (s.queue qn).nextSeq
    let (s, ns) := validateAll s qn 0 false nodes
    let s := s.mapQueue qn (fun q => { q with
      nextSeq := seq + 1
      buffers := q.buffers ++ [{ seq := seq, addr := 0, bytes := bytes, concurrent := conc, nodes := ns }] })
    let s := s.rput Fld.FE_QUEUE_STATUS_INFLIGHT (s.rget Fld.FE_QUEUE_STATUS_INFLIGHT 0 qn + 1) 0 qn
    noteReady (s.reply tag stOk [seq])

/-- A completion for a buffer's fetch. The last one decides: the buffer, or the failure (R355). -/
def submitReply (s : State) (tag : Nat) (r : DevReq) (status data : Nat) : State :=
  match SMap.find? s.submits tag with
  | none => s
  | some j =>
    let got := if status = 0 then (dataBytes r data).foldl (fun m e => SMap.put m e.1 (BitVec.ofNat 8 e.2)) j.data else j.data
    let j := { j with data := got, waiting := j.waiting - 1, failed := if j.failed = 0 then status else j.failed }
    let s := { s with submits := SMap.put s.submits tag j }
    if j.waiting ≠ 0 then s
    else
      let s := { s with submits := SMap.del s.submits tag, unanswered := s.unanswered.filter (fun t => t != tag) }
      if j.failed = stInvalidState ∧ s.qState j.queue = qFree then s.reply tag stInvalidState
      else if j.failed ≠ 0 then refuseSubmit s tag j.queue j.bytes j.failed
      else acceptBuffer s tag j.queue j.bytes (j.data.map (fun (e : Nat × Byte) => e.2.toNat))

/-! ### Completions for the front end -/

/-- A node's own requests have all ended. -/
def bodyOver (s : State) (n : NodeRef) : State := s.mapNode n (fun x => { x with stage := .acted })

/-- A completion for what a node's action asked of the host. -/
def bodyReply (s : State) (n : NodeRef) (r : DevReq) (status data : Nat) : State :=
  match s.node n with
  | none => s
  | some x =>
    let s := s.mapNode n (fun x => { x with
      waiting := x.waiting - 1
      status := if status ≠ 0 ∧ x.status = 0 ∧ x.typ ≠ ntSignal then status else x.status
      data := if r.kind = .read ∧ status = 0 ∧ x.typ ≠ ntWait then
        (dataBytes r data).foldl (fun d e => SMap.put d e.1 e.2) x.data else x.data })
    if x.stage ≠ .running ∨ x.aborting = true ∨ 1 < x.waiting then s
    else if x.typ = ntSignal then
      let t := if status = 0 then countHostSignal s (hostBase + r.off) r.data (data % 2 ^ 64) (feWho s n.queue) else signalLost s n
      bodyOver (t.chargeNode s n) n
    else if status ≠ 0 ∨ x.status ≠ 0 then bodyOver s n
    else if x.typ = ntWait then (if x.word 9 ≤ data % 2 ^ 64 then bodyOver s n else s)
    else if r.kind = .write then bodyOver s n
    else s

/-- A request has ended: with OK, with UNCORRECTABLE_DATA, or with DELIVERY_FAILURE (R355). -/
def reqEnded (s : State) (r : DevReq) (status data : Nat) : State :=
  match r.src with
  | .tray core serial => trayReply s core serial r status data
  | .mover b => moverReply s b r status data
  | .submit tag => submitReply s tag r status data
  | .record n =>
    (match s.node n with
     | some x =>
       if x.fin ≠ 10 then s
       else if status = 0 then eventStep s n
       else eventStep (pushFallback s n.queue n.seq (completionWords s n x x.status true)) n
     | none => s)
  | .event n =>
    (match s.node n with
     | some x =>
       if x.fin ≠ 11 then s
       else if status = 0 then
         releaseNode (countHostSignal s (hostBase + r.off) r.data (data % 2 ^ 64) (feWho s n.queue)) n
       else releaseNode (signalLost s n) n
     | none => s)
  | .body n => bodyReply s n r status data
  | .queueEvent q =>
    if status = 0 then countHostSignal s (hostBase + r.off) r.data (data % 2 ^ 64) (feWho s q)
    else queueEventLost s q r.data

/-- A request has failed: its record, then the outcome of its source (R355). -/
def reqFailed (s : State) (r : DevReq) (code : Nat) : State := reqEnded (ucRecord s r code) r stDeliveryFailure 0

/-- Data slots that the completion of a request carries (R348). -/
def DevReq.cplSlots (r : DevReq) : Nat :=
  match r.kind with
  | .read => (r.len + 15) / 16
  | .write => 0
  | .signal => 1

/-- DCPL: a completion arrives (R348, R355). -/
def doDcpl (rtag status slots : Nat) (rsv : Bool) (data : Nat) (s : State) : State :=
  if s.ucState ≠ 2 then s
  else if rsv || decide (16 < slots) then s.rbump Fld.UC_STATS_DISCARDED
  else
    match SMap.find? s.uc.out rtag with
    | none => s
    | some r =>
      if (status = 0 ∧ slots ≠ r.cplSlots) ∨ (slots ≠ 0 ∧ slots ≠ r.cplSlots) then s.rbump Fld.UC_STATS_DISCARDED
      else
        let s := { s with uc := { s.uc with out := SMap.del s.uc.out rtag } }
        let s := if status = stOk ∨ status = stUncorrectable then reqEnded s r status data else reqFailed s r status
        trayPump s.pumpPort

/-- CREDIT: the host die returns credits (R348, R349). -/
def doCredit (zpkt dreq slots : Nat) (rsv : Bool) (s : State) : State :=
  if s.ucState ≠ 2 then s
  else if rsv then s.rbump Fld.UC_STATS_DISCARDED
  else { s with uc := { s.uc with zpkt := s.uc.zpkt + zpkt, dreq := s.uc.dreq + dreq, slots := s.uc.slots + slots } }.pumpPort

/-- A request's completion has not come within UC_CPL_TIMEOUT of unpaused time (R355, R390). -/
def doCplTimeout (rtag : Nat) (s : State) : State :=
  match SMap.find? s.uc.out rtag with
  | none => s
  | some r =>
    let due := r.started + s.rget Fld.UC_CPL_TIMEOUT_NS
    if s.upClock < due ∧ s.recovering = true then s
    else
      let s := s.pass (due - s.upClock)
      let s := { s with uc := { s.uc with out := SMap.del s.uc.out rtag } }
      trayPump (reqFailed (s.rbump Fld.UC_STATS_TIMEOUTS) r 0xFF).pumpPort

/-! ### Host requests (R350 to R352) -/

/-- What a host request's extent lies in (R351). -/
inductive HostPlace where
  | hbm | table | other
deriving DecidableEq, Repr

def hostPlace (s : State) (a n : Nat) : HostPlace :=
  let cb := carveBase s
  if cb + objTableOff ≤ a ∧ a + n ≤ cb + errLogOff then .table
  else if a < cb + carveBytes ∧ cb < a + n then .other
  else if a + n ≤ s.rget Fld.HM_CAPACITY_BYTES then .hbm
  else .other

/-- The bytes that a host request names: an atomic's width for an atomic. -/
def HeldReq.bytes (h : HeldReq) : Nat := if h.kind < 2 then h.len else if h.size64 then 8 else 4

/-- Must a request wait: for the line's channel, for the request that its home is processing, or for a reload (R206, R217,
R226)? -/
def hostWaits (s : State) (h : HeldReq) : Bool :=
  (linesOf h.addr h.bytes).any (fun l => (s.line l).txn.isSome || (s.line l).reloadAt.isSome || !(lineReady s l))

/-- The record of a host signal that decreases: the host is its agent. -/
def hostWho : ErrRec := { kind := 0x03, unit := 7 }

/-- A host atomic on a word of device memory (R69, R70, R352): the old value, none where the word is poisoned. -/
def hostAtomic (s : State) (h : HeldReq) : Option (State × Nat) :=
  let n := h.bytes
  let w := 8 * n
  if h.kind = 5 then
    let old := s.readLE h.addr 8
    (signalWord s h.addr (h.data % 2 ^ 64) h.near hostWho).map (fun s => (s, old))
  else if s.extentPoisoned h.addr n then none
  else
    let s := takeLine s h.addr h.near
    let s := loseReservations s (lineOf h.addr) agentNone
    let old := s.readLE h.addr n
    let op : AtomOp := if h.kind = 2 then .add else if h.kind = 3 then .swap else .cas
    let v := messageAtomic op w old (bits h.data 0 64) (bits h.data 64 64)
    some (wakeEvents (s.write h.addr n v) (lineOf h.addr), old)

/-- Perform a host request; none while it waits. -/
def performHost (s : State) (h : HeldReq) : State × Option HeldReq :=
  if hostWaits s h then (s, some h)
  else
    let n := h.bytes
    -- a poisoned line with a reload source is refetched first (R392)
    let ill := (linesOf h.addr n).find? (fun l => s.extentPoisoned (128 * l) 128 && (reloadSource s l).isSome)
    match (if h.tried || h.kind = 1 then none else ill) with
    | some l => (uncorrectableLine s l (4 * l), some { h with tried := true })
    | none =>
      if h.kind = 0 then
        let (s, v, ok) := agentRead s h.addr n
        (s.hostCpl h.rtag (if ok then stOk else stUncorrectable) (if ok then v else 0), none)
      else if h.kind = 1 then ((agentWrite s h.addr n h.data (policyAt s h.addr)).hostCpl h.rtag stOk 0, none)
      else
        match hostAtomic s h with
        | some (s, old) => (s.hostCpl h.rtag stOk old, none)
        | none => (s.hostCpl h.rtag stUncorrectable 0, none)

/-- Have two requests a line in common? -/
def sameLine (a b : HeldReq) : Bool := (linesOf a.addr a.bytes).any (fun l => (linesOf b.addr b.bytes).contains l)

/-- Try the waiting requests again, in arrival order on each line. -/
def retryHeld (s : State) : State :=
  let held := s.uc.held
  let s := { s with uc := { s.uc with held := [] } }
  held.foldl (fun s h =>
    let wait := fun (s : State) (h : HeldReq) => { s with uc := { s.uc with held := s.uc.held ++ [h] } }
    if s.uc.held.any (sameLine h) then wait s h
    else if s.domainStopped then s.hostCpl h.rtag stTargetReset 0
    else
      match performHost s h with
      | (s, none) => s
      | (s, some h) => wait s h) s

/-- A host request that the port refuses (R351). -/
def refuseHost (s : State) (rtag status : Nat) : State := (s.rbump Fld.UC_STATS_REFUSED).hostCpl rtag status 0

/-- A host request arrives (R347, R348, R351, R352): 0 HREAD, 1 HWRITE, 2 FETCHADD, 3 SWAP, 4 CAS, 5 SIGNAL. -/
def doHost (kind : Nat) (q : HostReq) (s : State) : State :=
  let len := q.len.toNat + 1
  let slots := if kind = 0 then 0 else if kind = 1 then (len + 15) / 16 else 1
  let a := q.addr.toNat
  let rtag := q.rtag.toNat
  let h : HeldReq := { kind := kind, rtag := rtag, addr := a, len := len, near := q.near, size64 := q.size64, data := q.data.toNat }
  if s.ucState ≠ 2 then s
  else if q.rsv || q.slots.toNat != slots || (decide (kind < 2) && decide (256 < a % 256 + len)) then
    s.rbump Fld.UC_STATS_DISCARDED
  else if s.domainStopped then s.hostCpl rtag stTargetReset 0
  else
    match hostPlace s a h.bytes with
    | .other => refuseHost s rtag stInvalidArgument
    | .table =>
      if kind = 0 then
        let (s, v, ok) := agentRead s a len
        s.hostCpl rtag (if ok then stOk else stUncorrectable) (if ok then v else 0)
      else if kind = 2 ∧ q.size64 = false ∧ (a - carveBase s) % 32 = 0 then
        let (s, c, ok) := addRef s ((a - carveBase s) / 32) (signedOf 32 (q.data.toNat % 2 ^ 32))
        s.hostCpl rtag (if ok then stOk else stInvalidState) c
      else refuseHost (s.rbump Fld.FE_OBJ_STATS_HOST_DISCARDS) rtag stInvalidArgument
    | .hbm =>
      if kind = 5 ∧ q.size64 = false then refuseHost s rtag stInvalidArgument
      else if 2 ≤ kind ∧ a % h.bytes ≠ 0 then refuseHost s rtag stMisaligned
      else if s.uc.held.any (sameLine h) then { s with uc := { s.uc with held := s.uc.held ++ [h] } }
      else
        match performHost s h with
        | (s, none) => s
        | (s, some h) => { s with uc := { s.uc with held := s.uc.held ++ [h] } }

/-! ### Link states (R356 to R358) -/

/-- Enter a state: MODULES show traffic in ACTIVE, and RETRAINING reports recovery (R358, R389). -/
def ucEnter (s : State) (st : Nat) : State :=
  let s := s.rput Fld.UC_LINK_STATUS_STATE st
  let s := s.rput Fld.UC_LINK_STATUS_MODULES (if st = 2 then 15 else 0)
  let s := s.rput Fld.UC_LINK_STATUS_RECOVERY (b2n (decide (st = 3)))
  let s := if st = 2 ∨ st = 3 then s else s.rput Fld.UC_LINK_STATUS_RATE 0
  s.setRecovery 4 (decide (st = 3))

/-- Training begins (R356). -/
def ucTrain (s : State) : State :=
  let s := ucEnter s 1
  { s with uc := { s.uc with attempts := 0 } }

/-- RETRAINING begins. -/
def ucRetrain (s : State) : State :=
  let s := (ucEnter s 3).rbump Fld.UC_ERRORS_RETRAINS
  { s with uc := { s.uc with attempts := 0, replays := 0 } }

/-- DISABLING or FAILED is entered: messages not yet sent are lost and outstanding requests fail (R355, R358). -/
def ucLost (s : State) (st : Nat) : State :=
  let s := ucEnter s st
  let s := s.rbump Fld.UC_STATS_LOST_REPLIES s.uc.outbox.length
  let rs := s.uc.out.map (fun (e : Nat × DevReq) => e.2) ++ s.uc.waiting
  let s := { s with uc := { s.uc with outbox := [], out := [], waiting := [] } }
  trayPump (rs.foldl (fun s r => reqFailed s r 0) s)

/-- The record of a port event (R356, R383). -/
def ucPortRecord (s : State) (cls : Nat) : State :=
  s.logErr { kind := 0x0B, cls := cls, unit := 7, detail := s.ucState }

/-- The port becomes ACTIVE from training: tags and credits start afresh (R349, R358). -/
def ucFresh (s : State) : State :=
  { s with unanswered := [], uc := { s.uc with zpkt := 320, dreq := 256, slots := 4096, replays := 0, attempts := 0 } }

/-- A try of training, or a retrain, passes or fails (R356). Training tries each rate twice, from 32 GT/s down; a partner
without the streaming protocol fails it (R346). -/
def doUcTraining (pass streaming qualified : Bool) (half partner : Nat) (s : State) : State :=
  let st := s.ucState
  if st = 1 then
    let s := (s.rput Fld.UC_PARTNER_VENDOR (bits partner 0 16)).rput Fld.UC_PARTNER_DEVICE (bits partner 16 16)
    let s := s.rput Fld.UC_PARTNER_REVISION (bits partner 32 8)
    let s := s.rput Fld.UC_LINK_STATUS_UNQUALIFIED (b2n (!qualified))
    let k := s.uc.attempts
    if pass && streaming then
      let s := ucFresh (ucEnter s 2)
      let s := (s.rput Fld.UC_LINK_STATUS_RATE (6 - k / 2)).rput Fld.UC_LINK_STATUS_HALF half
      trayPump s.pumpPort
    else if streaming && decide (k < 11) then { s with uc := { s.uc with attempts := k + 1 } }
    else ucPortRecord (ucLost (s.rbump Fld.UC_ERRORS_TRAIN_FAILS) 6) 3
  else if st = 3 then
    let s := if pass then s else s.rbump Fld.UC_ERRORS_TRAIN_FAILS
    if pass then
      let s := ucEnter (s.rput Fld.UC_LINK_STATUS_HALF half) 2
      trayPump (ucPortRecord s 1).pumpPort
    else if s.uc.attempts < 2 then { s with uc := { s.uc with attempts := s.uc.attempts + 1 } }
    else ucPortRecord (ucLost s 6) 3
  else s

/-- Commands of UC_LINK_CTRL (R356, R357): 1 DISABLE, 2 ENABLE, 3 RETRAIN. The register keeps what was written. -/
def ucCommand (s : State) (cmd : Nat) : State :=
  let s := s.rput Fld.UC_LINK_CTRL_CMD cmd
  let st := s.ucState
  match cmd with
  | 1 => if st = 1 ∨ st = 2 ∨ st = 3 then ucLost s 4 else if st = 6 then ucEnter s 5 else s
  | 2 =>
    if st = 4 then s.rput Fld.UC_LINK_STATUS_PENDING 1
    else if st = 5 ∨ st = 6 then ucTrain s
    else s
  | 3 => if st = 2 then ucRetrain s else s
  | _ => s

/-- DISABLING ends; a held ENABLE acts (R356, R357). -/
def doUcDisablingEnd (s : State) : State :=
  if s.ucState ≠ 4 then s
  else if s.flag Fld.UC_LINK_STATUS_PENDING then ucTrain ((ucEnter s 5).rput Fld.UC_LINK_STATUS_PENDING 0)
  else ucEnter s 5

/-- A FAILED port retries each second (R356). -/
def doUcRetry (s : State) : State := if s.ucState = 6 then ucTrain s else s

/-- A flit arrives: the adapter's CRC; a failed flit is replayed, and its eighth failed replay starts a retrain (R356,
R358). -/
def doFlit (ok : Bool) (s : State) : State :=
  if s.ucState ≠ 2 then s
  else if ok then { s with uc := { s.uc with replays := 0 } }
  else
    let s := s.rbump Fld.UC_ERRORS_CRC
    if s.uc.replays < 8 then { s.rbump Fld.UC_ERRORS_REPLAYS with uc := { s.uc with replays := s.uc.replays + 1 } }
    else ucRetrain s

def doSideband (s : State) : State := if s.ucState = 2 then ucRetrain s else s

/-- A lane is repaired with a redundant lane of its module (R345, R356). -/
def doLaneRepair (lanes : Nat) (s : State) : State :=
  if s.ucState = 2 then ucRetrain (s.rbump Fld.UC_ERRORS_LANE_REPAIRS lanes) else s

/-! ### The rows -/

def execLd (o : TrayOp) (s : State) : Out State := .next (s.onClock (trayPump (doLoad o s (.load false) [0, 1, 2, 3, 4] false)))
def execLds (o : TrayOp) (s : State) : Out State := .next (s.onClock (trayPump (doLoad o s (.load true) [0, 1] false)))
def execSt (o : TrayOp) (s : State) : Out State := .next (s.onClock (trayPump (doStore o s)))
def execLoadDataReturn (core : Fin 192) (k : Nat) (ecc : LineEcc) (s : State) : Out State :=
  .next (s.onClock (trayPump (doLoadReturn core k ecc s)))
def execStoreAccepted (core : Fin 192) (k : Nat) (s : State) : Out State := .next (s.onClock (trayPump (doStoreAccepted core k s)))
def execAtomic (core : Fin 192) (k : Nat) (s : State) : Out State := .next (s.onClock (trayPump (doAtomicAt core k s)))
def execMoverDescriptorComplete (block : Fin 24) (s : State) : Out State := .next (s.onClock (trayPump (doMoverComplete block s)))
def execHread (q : HostReq) (s : State) : Out State := .next (s.onClock (doHost 0 q s))
def execHwrite (q : HostReq) (s : State) : Out State := .next (s.onClock (doHost 1 q s))
def execHatomicFetchadd (q : HostReq) (s : State) : Out State := .next (s.onClock (doHost 2 q s))
def execHatomicSwap (q : HostReq) (s : State) : Out State := .next (s.onClock (doHost 3 q s))
def execHatomicCas (q : HostReq) (s : State) : Out State := .next (s.onClock (doHost 4 q s))
def execHatomicSignal (q : HostReq) (s : State) : Out State := .next (s.onClock (doHost 5 q s))
def execDcpl (rtag : BitVec 16) (status : BitVec 8) (slots : BitVec 5) (rsv : Bool) (data : BitVec 2048) (s : State) :
    Out State := .next (s.onClock (doDcpl rtag.toNat status.toNat slots.toNat rsv data.toNat s))
def execCredit (zpkt dreq slots : BitVec 16) (rsv : Bool) (s : State) : Out State :=
  .next (s.onClock (doCredit zpkt.toNat dreq.toNat slots.toNat rsv s))
def execUcCplTimeoutExpire (rtag : BitVec 16) (s : State) : Out State := .next (s.onClock (doCplTimeout rtag.toNat s))
def execFlitReceive (ok : Bool) (s : State) : Out State := .next (s.onClock (doFlit ok s))
def execSidebandRetrainRequest (s : State) : Out State := .next (s.onClock (doSideband s))
def execUcTrainingDone (pass streaming qualified : Bool) (half : BitVec 4) (partner : BitVec 40) (s : State) : Out State :=
  .next (s.onClock (doUcTraining pass streaming qualified half.toNat partner.toNat s))
def execUcDisablingEnd (s : State) : Out State := .next (s.onClock (doUcDisablingEnd s))
def execUcRetryTimer (s : State) : Out State := .next (s.onClock (doUcRetry s))
def execUcDisable (s : State) : Out State := .next (s.onClock (ucCommand s 1))
def execUcEnable (s : State) : Out State := .next (s.onClock (ucCommand s 2))
def execUcRetrain (s : State) : Out State := .next (s.onClock (ucCommand s 3))
def execLaneRepair (lanes : BitVec 8) (s : State) : Out State := .next (s.onClock (doLaneRepair lanes.toNat s))

end Sys2Proof.Machine
end

