-- ==== Sys2Proof/Machine/Links.lean ====
section
/-!
DEFINITION. Machine/Links.lean: the Esrel links (R309 to R321): frames, lane and link recovery, link states, discovery,
routes, and time sync over a link (R341, R342).
-/
namespace Sys2Proof.Machine

def lkDisabled : Nat := 0
def lkTraining : Nat := 1
def lkUp : Nat := 2
def lkRetraining : Nat := 3
def lkDisabling : Nat := 4
def lkFailed : Nat := 5

def State.lkState (s : State) (n : Nat) : Nat := s.rget Fld.EL_LINK_STATUS_STATE 0 n
def State.link (s : State) (n : Nat) : ELink := SMap.get s.el.links n {}
def State.mapLink (s : State) (n : Nat) (f : ELink → ELink) : State :=
  { s with el := { s.el with links := SMap.put s.el.links n (f (s.link n)) } }

def ownId (s : State) : Nat := s.rget Fld.EL_DEVICE_ID_ID

/-- The record of a link event (R383): bit 4 of `dup` reports a duplicate device ID. -/
def linkRecord (s : State) (n cls before : Nat) (dup : Bool := false) : State :=
  let detail := s.rget Fld.EL_LINK_STATUS_WIDTH 0 n + 4 * s.rget Fld.EL_LINK_STATUS_LANE0_FAILED 0 n +
    8 * s.rget Fld.EL_LINK_STATUS_LANE1_FAILED 0 n + 16 * b2n dup
  s.logErr { kind := 0x0A, cls := cls, unit := 6, place := n, object := n, valueA := before, valueB := s.lkState n, detail := detail }

/-- What the port reports as recovery (R335, R389): bit 0 while a link is RETRAINING, bit 1 while a resent packet is
unanswered. -/
def showEsrel (s : State) : State :=
  let s := s.setRecovery 0 ((List.range 48).any (fun n => decide (s.lkState n = lkRetraining)))
  s.setRecovery 1 (s.el.out.any (fun o => o.resent))

/-- A link that leaves RETRAINING adds what it paused to the packets last sent on it (R335). -/
def endPause (s : State) (n : Nat) : State :=
  let t0 := (s.link n).downAt
  { s with el := { s.el with out := s.el.out.map (fun o =>
      if o.link = n then { o with paused := min 150000 (o.paused + (s.now - max t0 o.last)) } else o) } }

/-- Enter a link state with a width. -/
def linkEnter (s : State) (n st width : Nat) : State :=
  let old := s.lkState n
  let s := if old = lkRetraining ∧ st ≠ lkRetraining then endPause s n else s
  let s := (s.rput Fld.EL_LINK_STATUS_STATE st 0 n).rput Fld.EL_LINK_STATUS_WIDTH width 0 n
  let s := if st = lkRetraining then s.mapLink n (fun l => { l with downAt := s.now }) else s
  -- what waits for an acknowledgement is dropped where the link goes down (R312)
  let s := if st = lkDisabled ∨ st = lkFailed ∨ st = lkTraining then
      s.mapLink n (fun l => { l with sent := [], tx := 0, rx := 0, nak := (0, 0), lane := none })
    else s
  let s := if st = lkUp then s else s.rput Fld.EL_LINK_STATUS_LANE_RETRAIN 0 0 n
  showEsrel s

/-- Lanes that have not failed. -/
def lanesLeft (s : State) (n : Nat) : Nat :=
  2 - s.rget Fld.EL_LINK_STATUS_LANE0_FAILED 0 n - s.rget Fld.EL_LINK_STATUS_LANE1_FAILED 0 n

/-- The whole link goes to RETRAINING (R311, R312). -/
def linkRecover (s : State) (n : Nat) : State :=
  (linkEnter s n lkRetraining 0).rbump Fld.EL_LINK_ERRORS_RETRAINS 1 0 n

/-! ### Routes (R318 to R321) -/

/-- Slot i of a route entry. -/
def slotBits (entry i : Nat) : Nat := bits entry (16 * i) 16

/-- Does a link carry routed packets? -/
def linkCarries (s : State) (n : Nat) : Bool :=
  decide (n < 48) && decide (s.lkState n = lkUp) && !(s.flag Fld.EL_LINK_STATUS_HELD 0 n)

/-- The effective weight of a slot: zero when it cannot be chosen (R318, R319). -/
def slotWeight (s : State) (slot : Nat) : Nat :=
  if bits slot 6 1 = 1 ∧ linkCarries s (bits slot 0 6) = true then
    bits slot 9 4 * s.rget Fld.EL_LINK_STATUS_WIDTH 0 (bits slot 0 6) else 0

/-- Smooth weighted round-robin over the usable slots of an entry, one link left out where another is usable (R319, R335):
the link and the slot's LEVEL. -/
def pickSlot (s : State) (dst avoid : Nat) : Option (State × Nat × Nat) :=
  let entry := SMap.get s.el.routes dst 0
  let ws := (List.range 4).map (fun i => slotWeight s (slotBits entry i))
  let others := (List.range 4).map (fun i => if bits (slotBits entry i) 0 6 = avoid then 0 else ws.getD i 0)
  let ws := if others.all (fun w => w == 0) then ws else others
  let total := ws.foldl (· + ·) 0
  if total = 0 then none
  else
    let cur := (SMap.get s.el.turns dst [0, 0, 0, 0]).zip ws |>.map (fun e => if e.2 = 0 then e.1 else e.1 + (e.2 : Int))
    let best := (List.range 4).foldl (fun (b : Option Nat) i =>
      if ws.getD i 0 = 0 then b
      else match b with
        | none => some i
        | some j => if cur.getD j 0 < cur.getD i 0 then some i else b) none
    best.map (fun i =>
      let turns := (List.range 4).map (fun j => if j = i then cur.getD j 0 - (total : Int) else cur.getD j 0)
      ({ s with el := { s.el with turns := SMap.put s.el.turns dst turns } }, bits (slotBits entry i) 0 6,
        bits (slotBits entry i) 7 2))

/-- Send a packet on a link, in a frame of its own (R310). -/
def sendOn (s : State) (n : Nat) (p : EPkt) : State :=
  let l := s.link n
  let s := s.mapLink n (fun _ => { l with
    tx := (l.tx + 1) % 4096, sent := l.sent ++ [{ seq := l.tx, pkt := p, since := s.now }]
    ackAt := if l.sent.isEmpty then s.now else l.ackAt })
  s.emit (.esrel n p)

/-- Send a packet on its route; none where no slot is usable. -/
def routePkt (s : State) (p : EPkt) (avoid : Nat := 63) : Option (State × Nat) :=
  (pickSlot s p.dst.toNat avoid).map (fun e =>
    (sendOn e.1 e.2.1 { p with level := BitVec.ofNat 2 (max p.level.toNat e.2.2) }, e.2.1))

def dropPkt (s : State) : State := s.rbump Fld.EL_STATS_DROPPED

/-- Forward a packet for another device (R320, R321, R331 step 1). -/
def forwardPkt (s : State) (p : EPkt) : State :=
  let hops := p.hops.toNat + 1
  if s.rget Fld.EL_E2E_MAX_HOPS ≤ hops then dropPkt s
  else
    match routePkt s { p with hops := BitVec.ofNat 6 hops } with
    | some e => e.1
    | none => dropPkt s

/-- Replace a route entry in one step. -/
def putRoute (s : State) (dst v : Nat) : State :=
  let routes := SMap.store s.el.routes dst 0 (v % 2 ^ 64)
  { s with el := { s.el with routes := routes, turns := SMap.del s.el.turns dst } }

/-! ### Frames (R310, R311) -/

/-- A frame arrives: its words are decoded; an uncorrectable one is answered with a NAK, a good one is acknowledged; its
own acknowledgement frees frames and its NAK replays them. -/
def doFrame (n : Nat) (seq corrected : Nat) (symbols : Nat × Nat) (bad : Bool) (ack : Nat) (nak : Option Nat) (s : State) : State :=
  if s.lkState n ≠ lkUp ∧ s.lkState n ≠ lkDisabling then s
  else
    let s := s.rbump Fld.EL_LINK_ERRORS_CORRECTED corrected 0 n
    let s := s.mapLink n (fun l => { l with symbols := (l.symbols.1 + symbols.1, l.symbols.2 + symbols.2) })
    if bad then s.emit (.linkAck n seq true)
    else
      let l := s.link n
      let s := if seq = l.rx then
          (s.mapLink n (fun l => { l with rx := (l.rx + 1) % 4096 })).emit (.linkAck n seq false)
        else s
      -- cumulative: every frame up to and with `ack`
      let l := s.link n
      let freed := fun (f : SentFrame) => decide ((ack + 4096 - f.seq) % 4096 < 2048)
      let s := if l.sent.any freed then
          s.mapLink n (fun l => { l with sent := l.sent.filter (fun f => !(freed f)), ackAt := s.now })
        else s
      match nak with
      | none => s
      | some k =>
        let l := s.link n
        let again := l.sent.filter (fun f => decide ((f.seq + 4096 - k) % 4096 < 2048))
        let count := if l.nak.1 = k then l.nak.2 else 0
        if again.isEmpty then s
        else if 8 ≤ count ∧ s.lkState n = lkUp then linkRecover (s.mapLink n (fun l => { l with nak := (0, 0) })) n
        else
          let s := (s.rbump Fld.EL_LINK_ERRORS_REPLAYS again.length 0 n).mapLink n (fun l => { l with nak := (k, count + 1) })
          again.foldl (fun s f => s.emit (.esrel n f.pkt)) s

/-- No acknowledgement has advanced for 10 us while frames are outstanding (R311). -/
def doAckTimeout (n : Nat) (s : State) : State :=
  let l := s.link n
  if s.lkState n = lkUp ∧ l.sent ≠ [] then linkRecover (s.pass (l.ackAt + 10000 - s.now)) n else s

/-- A lane loses lock, or its corrected symbols of this window exceed the threshold (R311): it retrains while the other
carries the link; with no other lane, the whole link does. -/
def doLaneTrigger (n lane : Nat) (lock : Bool) (s : State) : State :=
  let l := s.link n
  let count := if lane = 0 then l.symbols.1 else l.symbols.2
  let thresh := s.rget Fld.EL_LINK_CTRL_LANE_THRESH 0 n
  let failed := s.flag (if lane = 0 then Fld.EL_LINK_STATUS_LANE0_FAILED else Fld.EL_LINK_STATUS_LANE1_FAILED) 0 n
  if s.lkState n ≠ lkUp ∨ failed = true ∨ l.lane = some lane ∨ ¬(lock = true ∨ (thresh ≠ 0 ∧ thresh < count)) then s
  else if lanesLeft s n = 2 ∧ l.lane = none then
    let s := (s.rput Fld.EL_LINK_STATUS_WIDTH 1 0 n).rput Fld.EL_LINK_STATUS_LANE_RETRAIN 1 0 n
    (s.rbump Fld.EL_LINK_ERRORS_LANE_RETRAINS 1 0 n).mapLink n (fun l => { l with lane := some lane })
  else linkRecover (s.mapLink n (fun l => { l with lane := none })) n

/-- A lane's retraining passes or fails (R311). -/
def doLaneDone (n : Nat) (pass : Bool) (s : State) : State :=
  match (s.link n).lane with
  | none => s
  | some lane =>
    let f := if lane = 0 then Fld.EL_LINK_STATUS_LANE0_FAILED else Fld.EL_LINK_STATUS_LANE1_FAILED
    let s := s.mapLink n (fun l => { l with lane := none })
    let s := (s.rput Fld.EL_LINK_STATUS_LANE_RETRAIN 0 0 n).rput f (b2n (!pass)) 0 n
    linkRecord (if s.lkState n = lkUp then s.rput Fld.EL_LINK_STATUS_WIDTH (lanesLeft s n) 0 n else s) n 1 (s.lkState n)

/-- A failed lane is retried each second; the working lane is not disturbed (R311). -/
def doLaneRetry (n : Nat) (s : State) : State :=
  if s.lkState n ≠ lkUp ∨ (s.link n).lane ≠ none then s
  else
    let go := fun (lane : Nat) =>
      ((s.rput Fld.EL_LINK_STATUS_LANE_RETRAIN 1 0 n).rbump Fld.EL_LINK_ERRORS_LANE_RETRAINS 1 0 n).mapLink n
        (fun l => { l with lane := some lane })
    if s.flag Fld.EL_LINK_STATUS_LANE0_FAILED 0 n then go 0
    else if s.flag Fld.EL_LINK_STATUS_LANE1_FAILED 0 n then go 1
    else s

/-! ### Discovery (R314, R315) -/

def ownDiscovery (s : State) (n : Nat) : Discovery :=
  { serial := BitVec.ofNat 64 (s.rget Fld.EL_SERIAL_SERIAL), link := BitVec.ofNat 6 n, id := BitVec.ofNat 16 (ownId s)
    assigned := s.flag Fld.EL_DEVICE_ID_ASSIGNED, incarn := BitVec.ofNat 16 (s.rget Fld.EL_DEVICE_ID_INCARN) }

/-- Record a peer's DISCOVER; HELD where the peer is not the one last acknowledged, or reports this device's own ID, which
also writes a record (R315). -/
def recordPeer (s : State) (n : Nat) (d : Discovery) : State :=
  let s := s.rput Fld.EL_LINK_PEER_SERIAL d.serial.toNat 0 n
  let s := (s.rput Fld.EL_LINK_STATUS_PEER_LINK d.link.toNat 0 n).rput Fld.EL_LINK_STATUS_PEER_ID d.id.toNat 0 n
  let s := s.rput Fld.EL_LINK_STATUS_PEER_ASSIGNED (b2n d.assigned) 0 n
  let known := decide ((s.link n).acked = some (d.serial.toNat, d.link.toNat))
  let dup := d.assigned && s.flag Fld.EL_DEVICE_ID_ASSIGNED && decide (d.id.toNat = ownId s)
  let s := if known && !dup then s else s.rput Fld.EL_LINK_STATUS_HELD 1 0 n
  if dup then linkRecord s n 7 (s.lkState n) true else s

/-- A DISCOVER packet arrives. -/
def doDiscover (n : Nat) (d : Discovery) (s : State) : State := if s.lkState n = lkUp then recordPeer s n d else s

/-- Every 100 ms an UP link sends DISCOVER. -/
def doDiscoverTimer (n : Nat) (s : State) : State :=
  if s.lkState n = lkUp then s.emit (.discover n (ownDiscovery s n)) else s

/-! ### Link states (R312) -/

/-- Training with discovery, or a retrain, ends: the lanes that pass (R312). -/
def doLinkTraining (n lanes : Nat) (d : Discovery) (s : State) : State :=
  let st := s.lkState n
  let k := bits lanes 0 1 + bits lanes 1 1
  if st ≠ lkTraining ∧ st ≠ lkRetraining then s
  else
    let s := (s.rput Fld.EL_LINK_STATUS_LANE0_FAILED (1 - bits lanes 0 1) 0 n).rput Fld.EL_LINK_STATUS_LANE1_FAILED
      (1 - bits lanes 1 1) 0 n
    if k = 0 then linkRecord (linkEnter s n lkFailed 0) n 3 st
    else
      let s := (linkEnter s n lkUp k).mapLink n (fun l => { l with ackAt := s.now })
      let s := recordPeer (s.emit (.discover n (ownDiscovery s n))) n d
      if st = lkRetraining then linkRecord s n 1 st else s

/-- Start training. -/
def linkTrain (s : State) (n : Nat) : State := linkEnter s n lkTraining 0

/-- A FAILED link is retried each second (R312). -/
def doLinkRetry (n : Nat) (s : State) : State := if s.lkState n = lkFailed then linkTrain s n else s

/-- The drain ends; a held ENABLE acts (R312). -/
def doLinkDrainEnd (n : Nat) (s : State) : State :=
  if s.lkState n ≠ lkDisabling then s
  else
    let s := linkEnter s n lkDisabled 0
    if s.flag Fld.EL_LINK_STATUS_PENDING 0 n then linkTrain (s.rput Fld.EL_LINK_STATUS_PENDING 0 0 n) n else s

/-- Commands to a link: 1 DISABLE, 2 ENABLE, 3 RETRAIN, 4 ACK_PEER (R312, R313, R315). -/
def linkCommand (s : State) (n cmd : Nat) : State :=
  let st := s.lkState n
  match cmd with
  | 1 =>
    if st = lkTraining ∨ st = lkUp ∨ st = lkRetraining then linkEnter s n lkDisabling 0
    else if st = lkFailed then linkEnter s n lkDisabled 0
    else s
  | 2 =>
    if st = lkDisabled ∨ st = lkFailed then linkTrain s n
    else if st = lkDisabling then s.rput Fld.EL_LINK_STATUS_PENDING 1 0 n
    else s
  | 3 => if st = lkUp then linkRecover s n else s
  | _ =>
    let s := s.mapLink n (fun l => { l with
      acked := some (s.rget Fld.EL_LINK_PEER_SERIAL 0 n, s.rget Fld.EL_LINK_STATUS_PEER_LINK 0 n) })
    s.rput Fld.EL_LINK_STATUS_HELD 0 0 n

/-- A packet that has waited 50 us in a link's buffers is dropped (R321). -/
def doPacketAge (n k : Nat) (s : State) : State :=
  match (s.link n).sent[k]? with
  | none => s
  | some f =>
    let s := s.pass (f.since + 50000 - s.now)
    dropPkt (s.mapLink n (fun l => { l with sent := l.sent.filter (fun g => g.seq != f.seq) }))

/-! ### Time sync (R341, R342) -/

/-- Machine time in units of 1/16 ns, modulo 2^64. -/
def now16 (s : State) : Nat := (16 * s.now + s.nowFrac / 2 ^ 28) % 2 ^ 64

/-- This device's DIST as it tells it. -/
def ownDist (s : State) : Nat :=
  if s.mtState ≠ mtLocked then 15
  else if s.flag Fld.MT_STATUS_USING_FABRIC then s.rget Fld.EL_TSYNC_STATUS_DIST
  else 0

/-- A fabric-synced device asks upstream (R341). -/
def doTsyncPeriod (s : State) : State :=
  let n := s.rget Fld.MT_UPSTREAM_LINK
  if usesFabric s ∧ s.lkState n = lkUp then
    { s with mt := { s.mt with req := some (n, now16 s) } }.emit (.tsyncReq n (now16 s))
  else s

/-- A neighbour asks: answered whatever this device's own source and state (R31). -/
def doTsyncReq (n t1 : Nat) (s : State) : State :=
  if s.lkState n = lkUp then
    s.emit (.tsyncRsp n t1 (now16 s) (now16 s) (ownDist s) (decide (s.mtState = mtLocked)))
  else s

/-- The answer of the upstream: DIST, the delay, and a sample when it is usable (R341, R342). -/
def doTsyncRsp (n t2 t3 dist : Nat) (locked : Bool) (s : State) : State :=
  match s.mt.req with
  | none => s
  | some (m, t1) =>
    if m ≠ n ∨ s.lkState n ≠ lkUp then s
    else
      let t4 := now16 s
      let s := { s with mt := { s.mt with req := none } }
      let s := s.rput Fld.EL_TSYNC_STATUS_UPSTREAM_LOCKED (b2n locked)
      let d := min 15 (dist + 1)
      let s := (s.rput Fld.EL_TSYNC_STATUS_DIST d).rput Fld.EL_TSYNC_STATUS_FAR (b2n (decide (8 < d)))
      let diff := fun (a b : Nat) => signedOf 64 ((a + 2 ^ 64 - b % 2 ^ 64) % 2 ^ 64)
      let s := s.rput Fld.EL_TSYNC_STATUS_DELAY (truncTo 32 (roundFree (diff t4 t1 - diff t3 t2) 2))
      let e := diff t4 t3 - diff t2 t1 + signedOf 16 (s.rget Fld.EL_LINK_ASYM_ASYM 0 n)
      if locked && usesFabric s then mtSample s e (s.rget Fld.MT_SYNC_PERIOD_PERIOD) true else s

def execFrameReceive (link : Fin 48) (seq : BitVec 12) (corrected : Fin 17) (lane0 lane1 : BitVec 16) (bad : Bool)
    (ack : BitVec 12) (nak : Option (BitVec 12)) (s : State) : Out State :=
  .next (s.onClock (doFrame link seq.toNat corrected (lane0.toNat, lane1.toNat) bad ack.toNat (nak.map BitVec.toNat) s))
def execLinkAckTimeout (link : Fin 48) (s : State) : Out State := .next (s.onClock (doAckTimeout link s))
def execLaneRetrainTrigger (link : Fin 48) (lane : Fin 2) (lock : Bool) (s : State) : Out State :=
  .next (s.onClock (doLaneTrigger link lane lock s))
def execLaneRetrainDone (link : Fin 48) (pass : Bool) (s : State) : Out State := .next (s.onClock (doLaneDone link pass s))
def execLaneRetryTimer (link : Fin 48) (s : State) : Out State := .next (s.onClock (doLaneRetry link s))
def execLinkDrainEnd (link : Fin 48) (s : State) : Out State := .next (s.onClock (doLinkDrainEnd link s))
def execLinkRetryTimer (link : Fin 48) (s : State) : Out State := .next (s.onClock (doLinkRetry link s))
def execDiscoverTimer (link : Fin 48) (s : State) : Out State := .next (s.onClock (doDiscoverTimer link s))
def execDiscover (link : Fin 48) (d : Discovery) (s : State) : Out State := .next (s.onClock (doDiscover link d s))
def execPacketAgeTimeout (link : Fin 48) (k : Nat) (s : State) : Out State := .next (s.onClock (doPacketAge link k s))
def execTsyncPeriod (s : State) : Out State := .next (s.onClock (doTsyncPeriod s))
def execTsyncReq (link : Fin 48) (t1 : Word) (s : State) : Out State := .next (s.onClock (doTsyncReq link t1.toNat s))
def execTsyncRsp (link : Fin 48) (t2 t3 : Word) (dist : BitVec 4) (locked : Bool) (s : State) : Out State :=
  .next (s.onClock (doTsyncRsp link t2.toNat t3.toNat dist.toNat locked s))

end Sys2Proof.Machine
end

