-- ==== Sys2Proof/Machine/Remote.lean ====
section
/-!
DEFINITION. Machine/Remote.lean: remote operations (R322 to R340, R343): RPOST, packets at the target with the exactly-once
filter, responses, resends and failures at the source, job sets, their abort and their fan-out signal.
-/
namespace Sys2Proof.Machine

/-! ### Opcodes (R323) -/

def opPut : Nat := 0x01
def opGet : Nat := 0x02
def opSignal : Nat := 0x03
def opBsignal : Nat := 0x04
def opAbort : Nat := 0x05
def opRsp : Nat := 0x1F

/-- The atomics: 0x08 to 0x12. -/
def isAtomOp (op : Nat) : Bool := decide (0x08 ≤ op) && decide (op ≤ 0x12)

/-- Those that return the old value. -/
def isFetchOp (op : Nat) : Bool := decide (0x10 ≤ op) && decide (op ≤ 0x12)

def atomOf (op : Nat) : AtomOp :=
  match op with
  | 0x08 => .add
  | 0x09 => .smin
  | 0x0A => .smax
  | 0x0B => .umin
  | 0x0C => .umax
  | 0x0D => .and
  | 0x0E => .or
  | 0x0F => .xor
  | 0x10 => .swap
  | 0x11 => .cas
  | _ => .add

/-! ### Job-set slots (R336, R338) -/

def jsFree : Nat := 0
def jsActive : Nat := 1
def jsAborted : Nat := 2
def jsLeaving : Nat := 3

def jsState (s : State) (j : Nat) : Nat := s.rget Fld.EL_JOBSET_STATE 0 j
def jsMember (s : State) (j : Nat) : Bool := s.flag Fld.EL_JOBSET_MEMBER 0 j

/-- The slot that holds a job set. -/
def slotOf (s : State) (jobset : Nat) : Option Nat :=
  (List.range 64).find? (fun j => decide (jsState s j ≠ jsFree) && decide (s.rget Fld.EL_JOBSET_JOBSET 0 j = jobset))

/-- Send a packet on every flood link but one that carries packets. -/
def flood (s : State) (j : Nat) (p : EPkt) (except : Nat) : State :=
  (List.range 48).foldl (fun s n =>
    if Nat.testBit (s.rget Fld.EL_JOBSET_FLOOD_LINKS 0 j) n && decide (n ≠ except) && linkCarries s n then sendOn s n p else s) s

/-! ### The tray behind an operation (R328) -/

/-- Change the tray that posted an operation, resident or saved. -/
def mapPoster (s : State) (o : EOp) (f : Tray → Tray) : State :=
  let s := { s with cores := s.cores.map (fun (e : Nat × Core) =>
    let uids := (e.2.sheets.filter (fun (h : Sheet) => h.launch == o.launch && h.index == o.sheet)).map (fun (h : Sheet) => h.uid)
    (e.1, { e.2 with trays := e.2.trays.map (fun (t : Nat × Tray) =>
      (t.1, if t.2.launch = o.launch ∧ uids.contains t.2.sheet = true ∧ t.2.index = o.tray then f t.2 else t.2)) })) }
  s.mapLaunch o.launch (fun L => { L with saved := L.saved.map (fun (v : SavedSheet) =>
    if v.sheet.index = o.sheet then
      { v with trays := v.trays.map (fun (t : Nat × Tray) => (t.1, if t.2.index = o.tray then f t.2 else t.2)) }
    else v) })

/-- Where the tray is now. -/
def posterAt (s : State) (o : EOp) : Option (Nat × Nat) :=
  List.findSome? (fun (e : Nat × Core) =>
    let uids := (e.2.sheets.filter (fun (h : Sheet) => h.launch == o.launch && h.index == o.sheet)).map (fun (h : Sheet) => h.uid)
    (List.find? (fun (t : Nat × Tray) =>
      t.2.launch == o.launch && uids.contains t.2.sheet && t.2.index == o.tray) e.2.trays).map (fun t => (e.1, t.1))) s.cores

def mapEOp (s : State) (id : Nat) (f : EOp → EOp) : State := { s with el := { s.el with ops := SMap.update s.el.ops id f } }

/-! ### Sending (R326, R333 to R335) -/

/-- The poison of an extent's code words, as the payload's parts carry it. -/
def partPoison (s : State) (a n : Nat) : Nat :=
  (List.range 8).foldl (fun m i =>
    if 32 * i < n ∧ s.extentPoisoned (a + 32 * i) (min 32 (n - 32 * i)) = true then m + 2 ^ i else m) 0

/-- The lowest unanswered sequence number of a pair, in the order of the pair's packets. -/
def lowestSeq (s : State) (dst dflt : Nat) : Nat :=
  match s.el.out.find? (fun e => e.pkt.dst.toNat == dst) with
  | some e => e.pkt.seq.toNat
  | none => dflt

/-- A packet as it leaves: its ACK_DELTA, and for a PUT its data as the window holds it now. -/
def fillPkt (s : State) (e : EOut) : EPkt :=
  let n := e.pkt.len.toNat + 1
  let put := decide (e.pkt.op.toNat = opPut)
  { e.pkt with
    ackDelta := BitVec.ofNat 10 ((e.pkt.seq.toNat + 2 ^ 32 - lowestSeq s e.pkt.dst.toNat e.pkt.seq.toNat) % 2 ^ 32)
    payload := if put then BitVec.ofNat 2048 (s.readLE e.loc n) else 0
    poison := if put then BitVec.ofNat 8 (partPoison s e.loc n) else 0
    resend := e.resent }

/-- Send an unanswered packet: over the loopback when it names this device, else on its route (R343). -/
def sendOut (s : State) (e : EOut) : State :=
  let avoid := if e.resent then e.link else 63
  let keep := fun (s : State) (link : Nat) =>
    { s with el := { s.el with out := s.el.out.map (fun x =>
        if x.pkt.dst = e.pkt.dst ∧ x.pkt.seq = e.pkt.seq then
          { x with sent := true, link := link, first := if e.sent then e.first else s.now, last := s.now, pausedAtLast := e.paused
                   resent := e.resent }
        else x) } }
  let p := fillPkt s e
  let s :=
    if p.dst.toNat = ownId s then keep (s.emit (.esrel 48 p)) 48
    else
      match routePkt s p avoid with
      | some (s, n) => keep s n
      | none => keep s 49
  showEsrel s

/-- Send what waits of a pair, up to 1,024 unanswered (R326). -/
def pumpPair (s : State) (dst : Nat) : Nat → State
  | 0 => s
  | k + 1 =>
    let mine := s.el.out.filter (fun e => e.pkt.dst.toNat == dst)
    match mine.find? (fun e => !e.sent) with
    | some e => if (mine.filter (fun e => e.sent)).length < 1024 then pumpPair (sendOut s e) dst k else s
    | none => s

/-- Send all that may be sent of a pair. -/
def pumpAll (s : State) (dst : Nat) : State := pumpPair s dst s.el.out.length

/-! ### The end of an operation (R327) -/

/-- Write with poison: code words that a poisoned part touches are poisoned. -/
def writePoisoned (s : State) (a n v poison policy : Nat) : State :=
  let s := agentWrite s a n v policy
  (List.range 8).foldl (fun s i =>
    if Nat.testBit poison i && decide (32 * i < n) then
      (List.range ((a + min n (32 * i + 32) - 1) / 32 - (a + 32 * i) / 32 + 1)).foldl
        (fun s k => s.setPoison ((a + 32 * i) / 32 + k) true) s
    else s) s

/-- The signaller of a tray's remote event. -/
def opWho (s : State) (o : EOp) : ErrRec :=
  match s.launch o.launch with
  | some L => { kind := 0x03, unit := 6, qvalid := true, queue := L.queue, context := L.context, launch := L.serial, slot := o.slot }
  | none => { kind := 0x03, unit := 6 }

/-- Steps 1, 2 and 4: data into the local window, the source event, the credit. -/
def opDone (s : State) (id : Nat) (o : EOp) (status : Nat) : State :=
  let s := if o.op = opGet then o.parts.foldl (fun s p => writePoisoned s (o.loc + p.1) p.2.1 p.2.2.1 p.2.2.2 o.policy) s
    else if isFetchOp o.op && decide (status = stOk) then
      agentWrite s o.loc (if o.size64 then 8 else 4) o.value o.policy
    else s
  let s := if status = stOk ∧ bits o.evt 1 1 = 1 then (signalWord s o.sevt o.evalue (nearAt s o.sevt) (opWho s o)).getD s else s
  let s := { s with el := { s.el with ops := SMap.del s.el.ops id, out := s.el.out.filter (fun e => e.op != id) } }
  let s := showEsrel (pumpAll s o.dst)
  match o.node with
  | some r => s.mapNode r (fun n => { n with
      moving := 0, stage := if n.stage = .running ∧ n.aborting = false then .acted else n.stage
      status := if n.stage = .running ∧ n.aborting = false then status else n.status })
  | none =>
  let s := s.mapCore o.core (fun c => { c with remoteCredits := c.remoteCredits + 1 })
  let s := mapPoster s o (fun t => { t with
    remotes := t.remotes - 1, remoteFail := t.remoteFail || decide (status ≠ stOk) })
  let s := match posterAt s o with
    | some p => trayProgress s p.1 p.2
    | none => s
  trayPump s

/-! ### Aborts (R338, R339) -/

/-- The record of an abort (R383). -/
def abortRecord (s : State) (j cause link : Nat) : State :=
  let member := jsMember s j
  s.logErr {
    kind := 0x06, cls := 4, status := stAborted, unit := 6, object := j, valueA := cause, valueB := link
    context := if member then s.rget Fld.EL_JOBSET_CONTEXT 0 j else 0, jobset := s.rget Fld.EL_JOBSET_JOBSET 0 j
    epoch := s.rget Fld.EL_JOBSET_EPOCH 0 j }

/-- A LEAVING slot whose operations have completed is FREE; a held JOIN acts (R336). -/
def joinSlot (s : State) (j w flood : Nat) : State :=
  let s := (s.rput Fld.EL_JOBSET_JOBSET (bits w 16 16) 0 j).rput Fld.EL_JOBSET_STATE jsActive 0 j
  let s := (s.rput Fld.EL_JOBSET_MEMBER (bits w 40 1) 0 j).rput Fld.EL_JOBSET_CONTEXT (bits w 10 6) 0 j
  (s.rput Fld.EL_JOBSET_EPOCH (bits w 32 8) 0 j).rput Fld.EL_JOBSET_FLOOD_LINKS flood 0 j

def settleLeaving (s : State) (j : Nat) : State :=
  if jsState s j = jsLeaving ∧ s.el.ops.all (fun e => e.2.jslot != j) then
    let s := [Fld.EL_JOBSET_JOBSET, Fld.EL_JOBSET_STATE, Fld.EL_JOBSET_MEMBER, Fld.EL_JOBSET_PENDING, Fld.EL_JOBSET_CONTEXT,
      Fld.EL_JOBSET_EPOCH, Fld.EL_JOBSET_FLOOD_LINKS].foldl (fun s f => s.rput f 0 0 j) s
    match SMap.find? s.el.joins j with
    | some (w, fl) =>
      let s := { s with el := { s.el with joins := SMap.del s.el.joins j } }
      let taken := (slotOf s (bits w 16 16)).isSome || (decide (bits w 40 1 = 1) &&
        (List.range 64).any (fun k => decide (jsState s k ≠ jsFree) && jsMember s k &&
          decide (s.rget Fld.EL_JOBSET_CONTEXT 0 k = bits w 10 6)))
      if taken then s else joinSlot s j w fl
    | none => s
  else s

/-- The record of an operation that did not complete OK (R327, R383), which is counted. -/
def opRecord (s : State) (o : EOp) (status : Nat) : State :=
  let L := s.launch o.launch
  let qn := match o.node with
    | some r => r.queue
    | none => (L.map (fun L => L.queue)).getD 0
  let t := (s.logFor o.launch {
    kind := 0x05, cls := 4, qvalid := L.isSome || o.node.isSome, status := status, unit := 6, queue := qn
    context := ((L.map (fun L => L.context)).getD (if o.node.isSome then s.qContext qn else 0)), launch := o.launch, slot := o.slot
    object := o.doff, valueA := o.op, valueB := o.seq, issued := o.started, peer := o.dst, jobset := o.jobset
    epoch := o.epoch }).rbump Fld.EL_STATS_FAILURES
  match o.node with
  | some r => t.mapNode r (fun n => n.caused s.nextErr)
  | none => t

/-- What the abort of a slot does on a member device: the slot's operations complete ABORTED, and the context's nodes stop
or complete ABORTED without running; its queues stay ACTIVE (R339). -/
def abortMember (s : State) (j : Nat) : State :=
  let s := (s.el.ops.filter (fun e => e.2.jslot == j)).foldl (fun s e =>
    settleLeaving (opDone (opRecord s e.2 stAborted) e.1 e.2 stAborted) e.2.jslot) s
  if jsMember s j then
    let ctx := s.rget Fld.EL_JOBSET_CONTEXT 0 j
    s.queues.foldl (fun s e =>
      if s.qContext e.1 = ctx ∧ s.qState e.1 ≠ qFree then
        let running := nodesWhere s e.1 (fun n => decide (n.stage = .running))
        let waiting := nodesWhere s e.1 (fun n => decide (n.stage = .waiting))
        let s := waiting.foldl (fun s r => completeOne s r stAborted) s
        running.foldl (fun s r => abortNode s r stAborted) s
      else s) s
  else s

/-- Raise a job set's abort: its slot is ABORTED, ABORT leaves on every flood link, and the member acts (R338). -/
def raiseAbort (s : State) (j cause : Nat) : State :=
  if jsState s j ≠ jsActive then s
  else
    let s := abortRecord (s.rput Fld.EL_JOBSET_STATE jsAborted 0 j) j cause 0xFF
    let p : EPkt := {
      op := 0x05, jobset := BitVec.ofNat 16 (s.rget Fld.EL_JOBSET_JOBSET 0 j), epoch := BitVec.ofNat 8 (s.rget Fld.EL_JOBSET_EPOCH 0 j)
      src := BitVec.ofNat 16 (ownId s), incarn := BitVec.ofNat 16 (s.rget Fld.EL_DEVICE_ID_INCARN) }
    abortMember (flood s j p 99) j

/-- ABORT arrives (R339): each device acts on it and forwards it once. -/
def doAbort (n : Nat) (p : EPkt) (s : State) : State :=
  match slotOf s p.jobset.toNat with
  | none => s
  | some j =>
    if jsState s j = jsActive ∧ s.rget Fld.EL_JOBSET_EPOCH 0 j = p.epoch.toNat ∧ linkCarries s n = true then
      let s := abortRecord (s.rput Fld.EL_JOBSET_STATE jsAborted 0 j) j 5 n
      abortMember (flood s j { p with op := 0x05 } n) j
    else s

/-- The launch whose operation completed ABORTED runs on; its node completes with that status, unless something else ends it
(R326, R327). -/
def abortedPoster (s : State) (o : EOp) : State :=
  s.mapLaunch o.launch (fun L => { L with status := if L.status = 0 then stAborted else L.status })

/-- The launch whose operation failed stops: its node completes with that status, unless an earlier one has ended it (R327). -/
def failPoster (s : State) (o : EOp) (status record : Nat) : State :=
  match s.launch o.launch with
  | none => s
  | some L =>
    let L := L.fail status record
    abortNode (s.mapLaunch o.launch (fun L => L.fail status record)) { queue := L.queue, seq := L.seq, node := L.node } L.status

/-- An operation fails (R327): the tray's sticky flag, the record, the launch node's status, and the job set's abort unless the
status is ABORTED. -/
def opFail (s : State) (id : Nat) (o : EOp) (status : Nat) : State :=
  let seq := s.nextErr
  let s := opRecord s o status
  let s := opDone s id o status
  let s := if o.node.isSome then s else if status = stAborted then abortedPoster s o else failPoster s o status seq
  let s := if status = stAborted then s else raiseAbort s o.jslot 1
  settleLeaving s o.jslot

/-! ### The packets of an operation (R326) -/

/-- Enter a packet of an operation: it takes the next SEQ of its pair. -/
def addPkt (s : State) (id : Nat) (p : EPkt) (loc : Nat) : State :=
  let dst := p.dst.toNat
  let q := SMap.get s.el.nextSeq dst 0
  let e : EOut := { op := id, pkt := { p with seq := BitVec.ofNat 32 q }, loc := loc }
  { s with el := { s.el with nextSeq := SMap.put s.el.nextSeq dst ((q + 1) % 2 ^ 32), out := s.el.out ++ [e] } }

/-- The parts of a transfer: every one but the first and the last covers a 256 B-aligned extent at the target. -/
def partsOf (doff : Nat) : Nat → Nat → Nat → List (Nat × Nat)
  | _, _, 0 => []
  | off, left, k + 1 =>
    if left = 0 then []
    else
      let n := min left (256 - (doff + off) % 256)
      (off, n) :: partsOf doff (off + n) (left - n) k

/-- The header that an operation's packets share. -/
def opHeader (s : State) (o : EOp) : EPkt :=
  { op := BitVec.ofNat 5 o.op, size64 := o.size64, dwin := BitVec.ofNat 6 o.dwin, jobset := BitVec.ofNat 16 o.jobset
    dst := BitVec.ofNat 16 o.dst, src := BitVec.ofNat 16 (ownId s), doff := BitVec.ofNat 48 o.doff
    epoch := BitVec.ofNat 8 o.epoch, incarn := BitVec.ofNat 16 (s.rget Fld.EL_DEVICE_ID_INCARN)
    operand := BitVec.ofNat 64 o.operand, compare := BitVec.ofNat 64 o.compare }

/-- Put an operation into the port: its packets are made and sent (R326). -/
def startOp (s : State) (o : EOp) : State :=
  let id := s.el.nextOp
  let parts := if o.op = opPut ∨ o.op = opGet then partsOf o.doff 0 o.len (o.len / 256 + 2)
    else [(0, if o.size64 ∨ o.op = opSignal then 8 else 4)]
  let multi := decide (1 < parts.length)
  let target := decide (bits o.evt 0 1 = 1)
  let evt := if target && !multi then 1 else 0
  let o := { o with seq := SMap.get s.el.nextSeq o.dst 0, left := parts.length, tail := target && multi }
  let s := { s with el := { s.el with nextOp := id + 1, ops := SMap.put s.el.ops id o } }
  let h := opHeader s o
  let s := parts.foldl (fun s p =>
    addPkt s id { h with
      evt := BitVec.ofNat 2 evt, doff := BitVec.ofNat 48 (o.doff + p.1), len := BitVec.ofNat 9 (p.2 - 1)
      evwin := if evt = 1 then BitVec.ofNat 6 o.evwin else 0, evoff := if evt = 1 then BitVec.ofNat 48 o.evoff else 0
      evalue := if evt = 1 ∨ o.op = opSignal then BitVec.ofNat 64 o.evalue else 0 } (o.loc + p.1)) s
  pumpPair s o.dst parts.length

/-- Every packet of an operation has been answered OK so far: its separate target event, or its end (R326, R327). -/
def opAdvance (s : State) (id : Nat) : State :=
  match SMap.find? s.el.ops id with
  | none => s
  | some o =>
    if o.left ≠ 0 then s
    else if o.tail then
      let s := mapEOp s id (fun o => { o with tail := false, left := 1 })
      let h := opHeader s o
      let s := addPkt s id { h with
        op := 0x03, dwin := BitVec.ofNat 6 o.evwin, doff := BitVec.ofNat 48 o.evoff, len := 7, operand := 0, compare := 0
        evalue := BitVec.ofNat 64 o.evalue } 0
      pumpPair s o.dst 1
    else settleLeaving (opDone s id o stOk) o.jslot

/-- RSP arrives (R327, R331): the packet it answers, and what it brings. -/
def doRsp (p : EPkt) (s : State) : State :=
  match s.el.out.find? (fun e => e.sent && e.pkt.dst == p.src && e.pkt.seq == p.seq) with
  | none => s
  | some e =>
    let s := { s with el := { s.el with out := s.el.out.filter (fun x => !(x.pkt.dst == p.src && x.pkt.seq == p.seq)) } }
    let s := pumpAll (showEsrel s) p.src.toNat
    match SMap.find? s.el.ops e.op with
    | none => s
    | some o =>
      if p.status.toNat ≠ stOk then opFail s e.op o p.status.toNat
      else
        let n := e.pkt.len.toNat + 1
        opAdvance (mapEOp s e.op (fun o => { o with
          left := o.left - 1
          parts := if o.op = opGet then o.parts ++ [(e.pkt.doff.toNat - o.doff, n, bits p.payload.toNat 0 (8 * n), p.poison.toNat)] else o.parts
          value := if isFetchOp o.op && e.pkt.op != 0x03 then p.operand.toNat else o.value })) e.op

/-- How long an unanswered packet's timers have run since a moment (R335). -/
def pausedOf (s : State) (e : EOut) : Nat :=
  if e.link < 48 ∧ s.lkState e.link = lkRetraining then min 150000 (e.paused + (s.now - max (s.link e.link).downAt e.last))
  else e.paused

/-- Do a packet's timers stand: its last link is RETRAINING and the pause is not used up? -/
def timersStand (s : State) (e : EOut) : Bool :=
  decide (e.link < 48) && decide (s.lkState e.link = lkRetraining) && decide (pausedOf s e < 150000)

/-- Machine time at which a packet's timer of a span runs out, from a start. -/
def resendDue (s : State) (e : EOut) : Nat := e.last + 1000 * s.rget Fld.EL_E2E_RESEND + (pausedOf s e - e.pausedAtLast)
def giveupDue (s : State) (e : EOut) : Nat := e.first + 1000 * s.rget Fld.EL_E2E_GIVEUP + pausedOf s e

/-- Send a packet again. -/
def resendOut (s : State) (e : EOut) : State :=
  sendOut (s.rbump Fld.EL_STATS_RESENDS) { e with resent := true, paused := pausedOf s e }

/-- RESEND has passed since the last send (R335). Nothing on the loopback is resent (R343). -/
def doResend (k : Nat) (s : State) : State :=
  match s.el.out[k]? with
  | none => s
  | some e =>
    if !e.sent || decide (e.link = 48) || (timersStand s e && decide (s.now < resendDue s e)) then s
    else resendOut (s.pass (resendDue s e - s.now)) e

/-- GIVEUP has passed since the first send: DELIVERY_FAILURE (R335). -/
def doGiveup (k : Nat) (s : State) : State :=
  match s.el.out[k]? with
  | none => s
  | some e =>
    if !e.sent || decide (e.link = 48) || (timersStand s e && decide (s.now < giveupDue s e)) then s
    else
      let s := s.pass (giveupDue s e - s.now)
      match SMap.find? s.el.ops e.op with
      | some o => opFail s e.op o stDeliveryFailure
      | none => s

/-- A link has left UP for a state other than RETRAINING: what was last sent on it is resent at once (R335). -/
def resendLink (s : State) (n : Nat) : State :=
  (s.el.out.filter (fun e => e.sent && e.link == n)).foldl resendOut s

/-! ### At the target (R330 to R332, R334) -/

def expValid (s : State) (e : Nat) : Bool := s.flag Fld.EL_EXPORT_BASE_VALID 0 e
def expOpen (s : State) (e : Nat) : Bool := s.flag Fld.EL_EXPORT_BASE_OPEN 0 e
def expBase (s : State) (e : Nat) : Nat := s.rget Fld.EL_EXPORT_BASE_BASE 0 e
def expBound (s : State) (e : Nat) : Nat := s.rget Fld.EL_EXPORT_BOUND_BOUND 0 e

/-- Is an export one of an ACTIVE slot, or OPEN for an open GET? -/
def expOf (s : State) (e : Nat) (slot : Option Nat) : Bool :=
  expValid s e && (match slot with
    | some j => !(expOpen s e) && decide (s.rget Fld.EL_EXPORT_BASE_SLOT 0 e = j)
    | none => expOpen s e)

/-- Bytes that an operation touches at the target. -/
def pktBytes (p : EPkt) : Nat :=
  let op := p.op.toNat
  if op = opPut ∨ op = opGet then p.len.toNat + 1 else if op = opSignal ∨ p.size64 = true then 8 else 4

/-- What a packet is answered with: status, old value, data and its poison. -/
structure Answer where
  status : Nat
  old : Nat := 0
  data : Nat := 0
  poison : Nat := 0
deriving DecidableEq, Repr

/-- The signaller named in the record of a decreasing remote signal. -/
def pktWho (p : EPkt) : ErrRec :=
  { kind := 0x03, unit := 6, peer := p.src.toNat, jobset := p.jobset.toNat, epoch := p.epoch.toNat }

/-- Steps 4 to 8 of R331: the address, or the status that the checks answer. -/
def checkPkt (s : State) (p : EPkt) : Except Nat (Option Nat × Nat) :=
  let op := p.op.toNat
  let isOpen := decide (p.jobset.toNat = 0xFFFF) && decide (op = opGet)
  let slot := (slotOf s p.jobset.toNat).filter (fun j =>
    decide (jsState s j = jsActive) && decide (s.rget Fld.EL_JOBSET_EPOCH 0 j = p.epoch.toNat))
  if !isOpen && slot.isNone then .error stAborted
  else
    let slot := if isOpen then none else slot
    let e := p.dwin.toNat
    let n := pktBytes p
    let perm := if op = opPut then s.flag Fld.EL_EXPORT_BASE_W 0 e
      else if op = opGet then s.flag Fld.EL_EXPORT_BASE_R 0 e
      else s.flag Fld.EL_EXPORT_BASE_A 0 e
    let a := expBase s e + p.doff.toNat
    if !(expOf s e slot) || !perm || isHost (expBase s e) then .error stWindow
    else if expBound s e < p.doff.toNat + n then .error stBound
    else if (isAtomOp op || decide (op = opSignal)) && decide (p.doff.toNat % n ≠ 0) then .error stMisaligned
    else .ok (slot, a)

/-- The target event, signalled after the operation, with the same checks (R332). -/
def targetEvent (s : State) (p : EPkt) (slot : Option Nat) : State × Nat :=
  if bits p.evt.toNat 0 1 = 0 then (s, stOk)
  else
    let e := p.evwin.toNat
    if !(expOf s e slot) || !(s.flag Fld.EL_EXPORT_BASE_A 0 e) || isHost (expBase s e) then (s, stWindow)
    else if expBound s e < p.evoff.toNat + 8 then (s, stBound)
    else if p.evoff.toNat % 8 ≠ 0 then (s, stMisaligned)
    else
      let a := expBase s e + p.evoff.toNat
      match signalWord s a p.evalue.toNat (nearAt s a) (pktWho p) with
      | some s => (s, stOk)
      | none => (s, stUncorrectable)

/-- Step 9 of R331: the operation at its address (R332). -/
def performPkt (s : State) (p : EPkt) (a : Nat) : State × Answer :=
  let op := p.op.toNat
  let n := pktBytes p
  if op = opPut then (writePoisoned s a n (bits p.payload.toNat 0 (8 * n)) p.poison.toNat (policyAt s a), { status := stOk })
  else if op = opGet then
    let (s, v, _) := agentRead s a n
    (s, { status := stOk, data := v, poison := partPoison s a n })
  else if op = opSignal then
    match signalWord s a p.evalue.toNat (nearAt s a) (pktWho p) with
    | some s => (s, { status := stOk })
    | none => (s, { status := stUncorrectable })
  else if s.extentPoisoned a n then (s, { status := stUncorrectable })
  else
    let s := takeLine s a (nearAt s a)
    let s := loseReservations s (lineOf a) agentNone
    let old := s.readLE a n
    let w := 8 * n
    let v := messageAtomic (atomOf op) w old p.operand.toNat p.compare.toNat
    (wakeEvents (s.write a n v) (lineOf a), { status := stOk, old := if isFetchOp op then old else 0 })

/-- Must a packet wait for its line (R206, R226)? -/
def pktWaits (s : State) (p : EPkt) : Bool :=
  match checkPkt s p with
  | .ok (_, a) => (linesOf a (pktBytes p)).any (fun l => (s.line l).txn.isSome || (s.line l).reloadAt.isSome || !(lineReady s l))
  | .error _ => false

/-- Answer a packet (R323): over the loopback to this device itself. -/
def answerPkt (s : State) (p : EPkt) (r : Answer) : State :=
  let q : EPkt := {
    op := 0x1F, size64 := p.size64, jobset := p.jobset, dst := p.src, src := BitVec.ofNat 16 (ownId s), doff := p.doff, len := p.len
    seq := p.seq, status := BitVec.ofNat 8 r.status, epoch := p.epoch, incarn := BitVec.ofNat 16 (s.rget Fld.EL_DEVICE_ID_INCARN)
    operand := BitVec.ofNat 64 r.old, payload := BitVec.ofNat 2048 r.data, poison := BitVec.ofNat 8 r.poison }
  if p.src.toNat = ownId s then s.emit (.esrel 48 q)
  else
    match routePkt s q with
    | some e => e.1
    | none => dropPkt s

/-- The exactly-once filter (R334): the record after it, and what it says: go on, drop, or the stored answer. -/
inductive FilterSays where
  | goOn | stale | dup (status value : Nat)
deriving DecidableEq, Repr

def filterPkt (f : Option Filter) (incarn q a : Nat) : Option Filter × FilterSays :=
  let m := 2 ^ 32
  let low := (q + m - a) % m
  let fresh : Filter := { incarn := incarn, base := low }
  let start : Option Filter :=
    match f with
    | none => some fresh
    | some r =>
      if r.incarn = incarn then some r
      else if (incarn + 2 ^ 16 - r.incarn) % 2 ^ 16 < 2 ^ 15 then some fresh
      else none
  match start with
  | none => (f, .stale)
  | some r =>
    let ahead := (low + m - r.base) % m
    let r := if 0 < ahead ∧ ahead < 2 ^ 31 then
        { r with base := low, done := r.done.filter (fun e => decide ((e.1 + m - low) % m < 1024)) }
      else r
    let d := (q + m - r.base) % m
    if 1024 ≤ d then (some r, .stale)
    else
      match SMap.find? r.done q with
      | some (st, v) => (some r, .dup st v)
      | none => (some r, .goOn)

def keepFilter (s : State) (src : Nat) (f : Option Filter) : State :=
  match f with
  | some r => { s with el := { s.el with filters := SMap.put s.el.filters src r } }
  | none => s

/-- A numbered packet for this device (R331 steps 2 to 9). -/
def takePkt (s : State) (p : EPkt) : State :=
  let src := p.src.toNat
  let q := p.seq.toNat
  let (f, verdict) := filterPkt (SMap.find? s.el.filters src) p.incarn.toNat q p.ackDelta.toNat
  match verdict with
  | .stale => dropPkt (keepFilter s src f)
  | .dup st v =>
    let s := (keepFilter s src f).rbump Fld.EL_STATS_DUPLICATE
    if p.op.toNat = opGet ∧ st = stOk then
      -- a GET is read again
      if s.domainStopped then answerPkt s p { status := stTargetReset }
      else match checkPkt s p with
      | .ok (_, a) =>
        let (s, r) := performPkt s p a
        answerPkt s p r
      | .error e => answerPkt s p { status := e }
    else answerPkt s p { status := st, old := v }
  | .goOn =>
    let finish := fun (s : State) (r : Answer) =>
      let f := f.map (fun r' => { r' with done := SMap.put r'.done q (r.status, r.old) })
      answerPkt (keepFilter s src f) p r
    if s.domainStopped then finish s { status := stTargetReset }
    else
      match checkPkt s p with
      | .error e => finish s { status := e }
      | .ok (slot, a) =>
        let (s, r) := performPkt s p a
        if r.status = stOk then
          let (s, st) := targetEvent s p slot
          finish s { r with status := st }
        else finish s r

/-- A numbered packet arrives on a link, or on the loopback (R331). One whose line cannot be served now waits. -/
def arrivePkt (n : Nat) (p : EPkt) (s : State) : State :=
  if (n ≠ 48 ∧ linkCarries s n = false) ∨ s.flag Fld.MC_FREEZE_STATUS_FROZEN = true then s
  else if p.dst.toNat ≠ ownId s then (if n = 48 then s else forwardPkt s p)
  else if s.domainStopped = false ∧ pktWaits s p = true then { s with el := { s.el with waiting := s.el.waiting ++ [p] } }
  else takePkt s p

/-- Packets that waited for a line, in the order in which they came. -/
def retryPkts (s : State) : State :=
  let held := s.el.waiting
  held.foldl (fun s p =>
    if s.domainStopped = false ∧ pktWaits s p = true then { s with el := { s.el with waiting := s.el.waiting ++ [p] } } else takePkt s p)
    { s with el := { s.el with waiting := [] } }

/-- A line has become free: what waited for it at the ports goes on. -/
def retryAll (s : State) : State := trayPump (retryPkts (retryHeld s))

/-- RSP arrives on a link: for this device, or to be forwarded. -/
def takeRsp (n : Nat) (p : EPkt) (s : State) : State :=
  if (n ≠ 48 ∧ linkCarries s n = false) ∨ s.flag Fld.MC_FREEZE_STATUS_FROZEN = true then s
  else if p.dst.toNat ≠ ownId s then (if n = 48 then s else forwardPkt s p)
  else doRsp p s

/-! ### BSIGNAL (R340) -/

/-- Perform a BSIGNAL on this member: at export DWIN, offset DOFF; a member it does not fit counts it. -/
def bsignalHere (s : State) (j : Nat) (p : EPkt) : State :=
  if jsMember s j then
    match checkPkt s { p with op := 0x03 } with
    | .ok (_, a) => (signalWord s a p.evalue.toNat (nearAt s a) (pktWho p)).getD (dropPkt s)
    | .error _ => dropPkt s
  else s

/-- Forward a BSIGNAL unless an equal or higher value for its word has been forwarded; the cache holds 64. -/
def bsignalFlood (s : State) (j : Nat) (p : EPkt) (except : Nat) : State :=
  let word := fun (e : Nat × Nat × Nat × Nat) => e.1 == p.jobset.toNat && e.2.1 == p.dwin.toNat && e.2.2.1 == p.doff.toNat
  if s.el.flooded.any (fun e => word e && decide (p.evalue.toNat ≤ e.2.2.2)) then s
  else
    let kept := s.el.flooded.filter (fun e => !(word e))
    let kept := if 64 ≤ kept.length then kept.drop 1 else kept
    let s := { s with el := { s.el with flooded := kept ++ [(p.jobset.toNat, p.dwin.toNat, p.doff.toNat, p.evalue.toNat)] } }
    flood s j p except

/-- BSIGNAL arrives: only a slot that is ACTIVE with its epoch takes it. -/
def doBsignal (n : Nat) (p : EPkt) (s : State) : State :=
  if linkCarries s n then
    match slotOf s p.jobset.toNat with
    | none => dropPkt s
    | some j =>
      if jsState s j = jsActive ∧ s.rget Fld.EL_JOBSET_EPOCH 0 j = p.epoch.toNat then
        bsignalFlood (if s.domainStopped then s else bsignalHere s j p) j p n
      else dropPkt s
  else s

/-! ### RPOST (R325, R326) -/

/-- Is the OP of a descriptor one that RPOST may post? -/
def rpostOp (op : Nat) : Bool := (decide (1 ≤ op) && decide (op ≤ 4)) || isAtomOp op

/-- RPOST: legality, the checks at issue, the credit, and the descriptor's way into the port. -/
def doRpost (o : TrayOp) (s : State) : State :=
  issueTray o s (fun x =>
    let a := o.srcA.toNat
    x.withRegs (decide (a % 16 = 0) && decide (a + 16 ≤ x.L.regs) && decide (o.dst = 0) && decide (o.srcB = 0) &&
        decide (o.srcC = 0) && decide (o.fld 0 7 = 0)) (regsOf a 16)
      (match Mask.lowest x.on with
       | none => x.issueWith 1 none
       | some lane =>
         let w := fun (i : Nat) => x.regsVal (a + 2 * i) 2 lane
         let m : Nat := 2 ^ lane
         let win := o.fld 7 6
         let op := bits (w 0) 0 5
         let evt := bits (w 0) 5 2
         let size64 := Nat.testBit (w 0) 7
         let j := bits (w 0) 16 6
         let doff := bits (w 1) 0 48
         let loff := bits (w 2) 0 48
         let len := bits (w 0) 48 16 + 1
         let n := if op = opPut ∨ op = opGet then len else if size64 then 8 else 4
         let reserved := bits (w 0) 14 2 ≠ 0 ∨ bits (w 0) 22 10 ≠ 0 ∨ bits (w 1) 48 16 ≠ 0 ∨ bits (w 2) 48 16 ≠ 0 ∨
           bits (w 5) 54 10 ≠ 0 ∨ bits (w 7) 54 10 ≠ 0 ∨ ((op = opSignal ∨ op = opBsignal) ∧ bits evt 0 1 = 1)
         let slotBad := jsState s j = jsFree ∨ jsState s j = jsLeaving ∨ jsMember s j = false ∨
           s.rget Fld.EL_JOBSET_CONTEXT 0 j ≠ x.L.context
         let argBad := rpostOp op = false ∨ slotBad ∨ (isAtomOp op = true ∧ doff % n ≠ 0) ∨ reserved
         let usesWin := decide (op = opPut) || decide (op = opGet) || isFetchOp op
         let v := (x.L.windows[win]?).getD {}
         let winBad := usesWin && (v.bound < loff + n || !(if op = opPut then v.r else v.w) || isHost (v.base + loff))
         let se := (x.L.windows[bits (w 7) 48 6]?).getD {}
         let soff := bits (w 7) 0 48
         let evBad := decide (bits evt 1 1 = 1) && (decide (se.bound < soff + 8) || !se.a || isHost (se.base + soff))
         if (s.core x.core).remoteCredits = 0 then x.s
         else if argBad then x.fault stTrayArgument 0 m win
         else if winBad then x.fault stWindow loff m win
         else if evBad then x.fault stWindow soff m (bits (w 7) 48 6)
         else if bits evt 1 1 = 1 ∧ soff % 8 ≠ 0 then x.fault stMisaligned soff m
         else if !x.released then x.s
         else
           let jobset := s.rget Fld.EL_JOBSET_JOBSET 0 j
           let epoch := s.rget Fld.EL_JOBSET_EPOCH 0 j
           let sheet := ((x.s.core x.core).sheet? x.t.sheet).map (fun h => h.index) |>.getD 0
           let e : EOp := {
             core := x.core, launch := x.L.serial, sheet := sheet, tray := x.t.index, slot := x.slot, op := op, evt := evt
             size64 := size64, jslot := j, jobset := jobset, epoch := epoch, dst := bits (w 0) 32 16, dwin := bits (w 0) 8 6
             doff := doff, len := n, loc := v.base + loff, policy := v.policy, operand := w 3, compare := w 4
             evwin := bits (w 5) 48 6, evoff := bits (w 5) 0 48, evalue := w 6, sevt := se.base + soff, started := x.s.now }
           if jsState s j = jsAborted then
             -- completes at once with ABORTED: the sticky flag and the record (R327, R339)
             abortedPoster (opRecord ({ x with t := { x.t with remoteFail := true } }.issueWith 1 none) e stAborted) e
           else if op = opBsignal then
             -- performed here and sent on every flood link, which completes it (R340)
             let s := x.issueWith 1 none
             let p : EPkt := { opHeader s e with
               op := 0x04, dst := 0, operand := 0, compare := 0, evalue := BitVec.ofNat 64 e.evalue }
             let s := bsignalFlood (bsignalHere s j p) j p 99
             if bits evt 1 1 = 1 then (signalWord s e.sevt e.evalue (nearAt s e.sevt) (opWho s e)).getD s else s
           else
             let s := { x with t := { x.t with remotes := x.t.remotes + 1 } }.issueWith 1 none
             let s := s.mapCore x.core (fun c => { c with remoteCredits := c.remoteCredits - 1 })
             startOp s e))

def execRpost (o : TrayOp) (s : State) : Out State := .next (s.onClock (trayPump (doRpost o s)))
def execPut (link : Fin 49) (p : EPkt) (s : State) : Out State := .next (s.onClock (arrivePkt link { p with op := 0x01 } s))
def execGet (link : Fin 49) (p : EPkt) (s : State) : Out State := .next (s.onClock (arrivePkt link { p with op := 0x02 } s))
def execSignal (link : Fin 49) (p : EPkt) (s : State) : Out State := .next (s.onClock (arrivePkt link { p with op := 0x03 } s))
def execBsignal (link : Fin 48) (p : EPkt) (s : State) : Out State := .next (s.onClock (doBsignal link { p with op := 0x04 } s))
def execAbort (link : Fin 48) (p : EPkt) (s : State) : Out State := .next (s.onClock (doAbort link p s))
def execEsrelAdd (link : Fin 49) (p : EPkt) (s : State) : Out State := .next (s.onClock (arrivePkt link { p with op := 0x08 } s))
def execEsrelSmin (link : Fin 49) (p : EPkt) (s : State) : Out State := .next (s.onClock (arrivePkt link { p with op := 0x09 } s))
def execEsrelSmax (link : Fin 49) (p : EPkt) (s : State) : Out State := .next (s.onClock (arrivePkt link { p with op := 0x0A } s))
def execEsrelUmin (link : Fin 49) (p : EPkt) (s : State) : Out State := .next (s.onClock (arrivePkt link { p with op := 0x0B } s))
def execEsrelUmax (link : Fin 49) (p : EPkt) (s : State) : Out State := .next (s.onClock (arrivePkt link { p with op := 0x0C } s))
def execEsrelAnd (link : Fin 49) (p : EPkt) (s : State) : Out State := .next (s.onClock (arrivePkt link { p with op := 0x0D } s))
def execEsrelOr (link : Fin 49) (p : EPkt) (s : State) : Out State := .next (s.onClock (arrivePkt link { p with op := 0x0E } s))
def execEsrelXor (link : Fin 49) (p : EPkt) (s : State) : Out State := .next (s.onClock (arrivePkt link { p with op := 0x0F } s))
def execSwap (link : Fin 49) (p : EPkt) (s : State) : Out State := .next (s.onClock (arrivePkt link { p with op := 0x10 } s))
def execCas (link : Fin 49) (p : EPkt) (s : State) : Out State := .next (s.onClock (arrivePkt link { p with op := 0x11 } s))
def execFetchadd (link : Fin 49) (p : EPkt) (s : State) : Out State := .next (s.onClock (arrivePkt link { p with op := 0x12 } s))
def execRsp (link : Fin 49) (p : EPkt) (s : State) : Out State := .next (s.onClock (takeRsp link p s))
def execResendTimer (k : Nat) (s : State) : Out State := .next (s.onClock (doResend k s))
def execGiveupTimer (k : Nat) (s : State) : Out State := .next (s.onClock (doGiveup k s))
def execCoherenceResponse (core : Fin 192) (line : Nat) (s : State) : Out State := .next (s.onClock (retryAll (doResponse core line s)))
def execRetrainDone (ch : Fin 128) (pass : Bool) (s : State) : Out State := .next (s.onClock (retryAll (doRetrainDone ch pass s)))
def execReloadDataArrive (line : Nat) (ok : Bool) (data : BitVec 1024) (s : State) : Out State :=
  .next (s.onClock (retryAll (doReloadArrive line ok data s)))
def execReloadTimeout (line : Nat) (s : State) : Out State := .next (s.onClock (retryAll (doReloadTimeout line s)))

end Sys2Proof.Machine
end

