-- ==== Sys2Proof/Machine/Faults.lean ====
section
/-!
DEFINITION. Machine/Faults.lean: containment beyond the cell, the front-end pair, recovery overruns and the domain reset
(R17, R234, R386 to R391).
-/
namespace Sys2Proof.Machine

/-! ### Containment (R386, R387) -/

/-- Has a context a running node? -/
def contextRuns (s : State) (context : Nat) : Bool :=
  s.queues.any (fun e => decide (s.qContext e.1 = context) && decide (s.qState e.1 ≠ qFree) &&
    !(nodesWhere s e.1 (fun n => decide (n.stage = .running))).isEmpty)

/-- Raise the abort of every job set in which a context holds an ACTIVE slot. -/
def abortJobsOf (s : State) (context cause : Nat) : State :=
  (List.range 64).foldl (fun s j =>
    if jsState s j = jsActive ∧ jsMember s j = true ∧ s.rget Fld.EL_JOBSET_CONTEXT 0 j = context then raiseAbort s j cause
    else s) s

/-- A fault fails a context at chip level: its running nodes complete CONTAINED, and a job set that it is a member of is
aborted when it loses a running node (R387). -/
def containChip (s : State) (context record : Nat) : State :=
  let lost := contextRuns s context
  let s := containContext s context record
  if lost && fabricMode s then
    (List.range 64).foldl (fun s j =>
      if jsState s j = jsActive ∧ jsMember s j = true ∧ s.rget Fld.EL_JOBSET_CONTEXT 0 j = context then
        raiseAbort s j (Config.containCause j).toNat
      else s) s
  else s

/-- The contexts that have a sheet on a core. -/
def contextsOn (s : State) (core : Nat) : List Nat :=
  ((s.core core).sheets.filterMap (fun h => (s.launch h.launch).map (fun L => L.context))).eraseDups

/-- A core that still answers snoops has stopped answering its block: it is taken offline, and the contexts that had a sheet
on it are contained (R386). What the core had in flight ends. -/
def doCoreSilent (core : Nat) (s : State) : State :=
  if coreOffline s core then s
  else
    let b := blockOf core
    let ctxs := contextsOn s core
    let seq := s.nextErr
    let s := s.rput Fld.BK_CORE_OFFLINE_CELLS (s.rget Fld.BK_CORE_OFFLINE_CELLS b ||| 2 ^ (core % 8)) b
    let s := s.logErr {
      kind := 0x0C, cls := 3, status := stContained, unit := 3, place := b, object := coreId core, valueA := 1
      valueB := ctxs.foldl (fun m c => m + 2 ^ c) 0 }
    let s := s.mapCore core (fun c => { c with
      silent := true, ops := [], veq := []
      trays := c.trays.map (fun (e : Nat × Tray) => (e.1, { e.2 with pend := [], active := false })) })
    ctxs.foldl (fun s c => containChip s c seq) s

/-- An engine silent for 1 ms after its abort (R288): a chip-level fault, which also aborts the context's job set (R387). -/
def doAbortTimeoutChip (r : NodeRef) (s : State) : State :=
  let ctx := s.qContext r.queue
  let waits := (s.queue r.queue).aborts.contains r
  let lost := (nodesWhere s r.queue (fun n => decide (n.stage = .running))).length
  let t := doAbortTimeout r s
  if waits && decide (0 < lost) && fabricMode t then
    (List.range 64).foldl (fun t j =>
      if jsState t j = jsActive ∧ jsMember t j = true ∧ t.rget Fld.EL_JOBSET_CONTEXT 0 j = ctx then
        raiseAbort t j (Config.containCause j).toNat
      else t) t
  else t

/-! ### The front-end pair (R388) -/

/-- A node that held a front-end step in flight at a mismatch: it will complete CONTAINED. -/
def heldByFe (s : State) (r : NodeRef) : State :=
  match s.node r with
  | none => s
  | some n =>
    match n.stage with
    | .running => abortNode s r stContained
    | .waiting => s.mapNode r (fun n => { n with stage := .acted, status := stContained })
    | .acted => if n.fin = 0 then s.mapNode r (fun n => { n with status := stContained }) else s
    | .done => s

/-- The two microcontrollers disagree: both stop and restart from the journal (R388). `held` names the nodes that held a
front-end step in flight. -/
def doFeMismatch (held : List NodeRef) (s : State) : State :=
  if s.rget Fld.FE_PAIR_STATUS_MODE ≠ 0 ∨ bits (s.rget Fld.FE_RECOVERY_SOURCES) 5 1 = 1 then s
  else { held.foldl heldByFe (s.setRecovery 5 true) with feSince := s.now, feFault := true }

/-- The record of a front-end restart (R383). -/
def feRecord (s : State) (mc cause us mode : Nat) : State :=
  s.logErr { kind := 0x11, cls := 3, status := stContained, object := mc, valueA := cause, valueB := us, detail := mode }

/-- The front end's restart ends: each microcontroller passes or fails its self-test (R388). The restart of a SWITCH ends
the same way, without a record (R416). -/
def doFeRestart (fail0 fail1 : Bool) (s : State) : State :=
  if bits (s.rget Fld.FE_RECOVERY_SOURCES) 5 1 = 0 then s
  else
    let us := (s.now - s.feSince) / 1000
    let s := s.setRecovery 5 false
    let s := { s with sp := { s.sp with switching := match s.sp.switching with
      | some w => if w.kind = 2 then none else some w
      | none => none } }
    if !s.feFault then s
    else
      let s := { s with feFault := false }
      let mode := if fail0 && fail1 then 3 else if fail0 then 2 else if fail1 then 1 else s.rget Fld.FE_PAIR_STATUS_MODE
      let s := (s.rput Fld.FE_PAIR_STATUS_MODE mode).rbump Fld.FE_PAIR_STATUS_RESTARTS
      let s := s.rput Fld.FE_PAIR_STATUS_LAST_US us
      if mode = 3 then s
      else if fail0 then feRecord s 0 2 us mode
      else if fail1 then feRecord s 1 2 us mode
      else feRecord s 0 1 us mode

/-! ### Recovery overrun (R391) -/

/-- FE_RECOVERY[5:0] has stayed non-zero for FE_RECOVERY_LIMIT: a record, and from now on no timer pauses. -/
def doOverrun (s : State) : State :=
  match s.recSince with
  | none => s
  | some t =>
    if s.flag Fld.FE_RECOVERY_OVERRUN then s
    else
      let s := s.pass (t + 1000 * s.rget Fld.FE_RECOVERY_LIMIT_US - s.now)
      let w := (s.regWord Fld.FE_RECOVERY_SOURCES 0 0).toNat
      let s := s.logErr { kind := 0x10, cls := 7, object := w, valueA := s.now - t }
      (s.rput Fld.FE_RECOVERY_OVERRUN 1).rbump Fld.FE_RECOVERY_OVERRUNS

/-- Recovery has been zero for a microsecond: pauses apply again. -/
def doOverrunClear (s : State) : State :=
  if s.flag Fld.FE_RECOVERY_OVERRUN && decide (s.rget Fld.FE_RECOVERY_SOURCES = 0) then
    (s.pass (s.calmSince + 1000 - s.now)).rput Fld.FE_RECOVERY_OVERRUN 0
  else s

/-! ### The domain reset (R234) -/

/-- Step 2: lines that the home records as M in an L1 are written to HBM poisoned. -/
def poisonModified (s : State) : State :=
  s.lines.foldl (fun s e => if e.2.l1.any (fun x => x.2 == L1St.m) then poisonLine s e.1 else s) s

/-- Step 3: L1s, snoop filters, home directories and unlocked ways are invalidated, and lock groups are released. -/
def dropCaches (s : State) : State :=
  let s := { s with
    lines := (s.lines.filter (fun e => (e.2.slice.bind (fun w => w.lock)).isSome)).map (fun (e : Nat × Line) =>
      (e.1, { e.2 with l1 := [], txn := none, queue := [], reloadAt := none }))
    cores := s.cores.map (fun (e : Nat × Core) => (e.1, { e.2 with l1 := [] }))
    groupHeld := [], groupLoad := [] }
  showReloads ((List.range 16).foldl groupFreed s)

/-- The contents of every range that a core could write are undefined from now on; SHARED_IMM ranges keep theirs. -/
def loseContents (s : State) : State :=
  let k := s.domainResets
  let ext := s.ranges.filterMap (fun (e : Nat × Range) =>
    if decide (e.2.perm &&& (permW + permA) ≠ 0) && !(mattrImm e.2.mattr) && decide (4096 * e.2.pbase < hostBase) then
      some (4096 * e.2.pbase, 4096 * e.2.ngran)
    else none)
  { s with
    mem := s.mem.filter (fun c => !(ext.any (fun e => decide (e.1 ≤ c.1) && decide (c.1 < e.1 + e.2))))
    undef := ext.map (fun e => (e.1, e.2, some k)) ++ s.undef, domainResets := k + 1 }

/-- Step 4 for a node in flight: it completes with the domain-reset status. -/
def resetNode (s : State) (r : NodeRef) : State :=
  match s.node r with
  | none => s
  | some n =>
    let s := s.mapNode r (fun n => n.caused s.domainErr)
    let s := if n.launch = 0 then dropGranules s r else closeLaunch (discardLaunch (dropDescs s n.launch) n.launch) r
    completeOne s r stDomainReset

/-- Step 4: every context fails, and the job sets with a member context raise their abort. -/
def failContexts (s : State) : State :=
  let s := s.queues.foldl (fun s e =>
    if s.qState e.1 = qFree then s
    else
      let s := (nodesWhere s e.1 (fun n => decide (n.stage = .running))).foldl resetNode s
      queueGuilty (s.mapQueue e.1 (fun q => { q with aborts := [] })) e.1 stDomainReset s.domainErr) s
  let s := { s with
    movers := []
    cores := s.cores.map (fun (e : Nat × Core) =>
      (e.1, { e.2 with trays := [], sheets := [], sets := [], tq := [], veq := [], ops := [], moverCredits := 4 })) }
  let s := (List.range 24).foldl (fun s b => s.setMover b {}) s
  (List.range 64).foldl (fun s j => if jsMember s j then raiseAbort s j 2 else s) s

/-- The domain reset completes its last step; arriving requests are served again. -/
def doDomainReset (s : State) : State :=
  if !s.domainStopped then s
  else
    let s := loseContents (dropCaches (poisonModified s))
    let s := failContexts s
    let s := s.notify 4 0 s.now
    noteReady { s with domainStopped := false }

def execCoreSilent (core : Fin 192) (s : State) : Out State := .next (s.onClock (doCoreSilent core s))
def execFeMismatch (held : List NodeRef) (s : State) : Out State := .next (s.onClock (doFeMismatch held s))
def execFeRestartDone (fail0 fail1 : Bool) (s : State) : Out State := .next (s.onClock (doFeRestart fail0 fail1 s))
def execRecoveryOverrun (s : State) : Out State := .next (s.onClock (doOverrun s))
def execOverrunClear (s : State) : Out State := .next (s.onClock (doOverrunClear s))
def execDomainResetDone (s : State) : Out State := .next (s.onClock (retryAll (doDomainReset s)))
def execAbortReportTimeout (r : NodeRef) (s : State) : Out State := .next (s.onClock (doAbortTimeoutChip r s))

end Sys2Proof.Machine
end

