-- ==== Sys2Proof/Machine/Power.lean ====
section
/-!
DEFINITION. Machine/Power.lean: the power manager (R25, R26, R360 to R379): the cap loop, droop, lending, temperature, the
sampling window with its energies and slowdowns (R291, R371, R437), and the writes that set its policy.
-/
namespace Sys2Proof.Machine

def State.mapPw (s : State) (f : Pw → Pw) : State := { s with pw := f s.pw }

/-- The common point f, as its code: 0.50 GHz + code x 25 MHz (R363). -/
def State.point (s : State) : Nat := s.rget Fld.PM_STATUS_POINT
def State.duty (s : State) : Nat := s.rget Fld.PM_STATUS_DUTY

def regionLent (s : State) (r : Nat) : Bool := s.flag (Fld.PM_REGION_STATE_LENT r)
def regionsOn (s : State) : List Nat := (List.range 4).filter (fun r => regionOn s r)

/-- The clock of a region: its lent point, or the common point below its ceiling (R363, R369, R370); never above what the
voltage of a failed regulator covers (R443). -/
def regionPoint (s : State) (r : Nat) : Nat :=
  let p := if regionLent s r then s.pw.lendPoint else min s.point (s.rget (Fld.PM_REGION_STATE_CEILING r))
  min p (SMap.get s.pw.railPoint r 70)

/-! ### The effective cap (R361) -/

/-- C in units of 5 mW. -/
def capOf (s : State) : Nat :=
  let c := min (200 * s.pw.cap) s.pw.thermal
  if s.flag Fld.PM_STATUS_ALERT then min c (200 * s.rget Fld.TH_CTRL_ALERT_CAP) else c

def showCap (s : State) : State :=
  (s.rput Fld.PM_STATUS_C_EFF (roundFree (capOf s) 200).toNat).rput Fld.TH_STATUS_THERMAL_CAP
    (roundFree s.pw.thermal 400).toNat

/-! ### The loop (R363 to R367) -/

/-- Mean power as a fraction: numerator in mW over a denominator. -/
structure Mean where
  num : Int
  den : Nat
deriving DecidableEq, Repr

/-- fmax of R363. -/
def fmaxCode (s : State) : Nat := if s.pw.fixed then s.pw.point else 70

/-- A change of point: samples are counted from when it has taken effect (R363). -/
def newPoint (s : State) (c : Nat) : State :=
  if c = s.point then s
  else (s.rput Fld.PM_STATUS_POINT c).mapPw (fun p => { p with sum := 0, count := 0, skip := true })

/-- The down rule: at most 20 steps, or the issue duty at the lowest point (R363, R365). -/
def stepDown (s : State) (m : Mean) : State :=
  let c := s.point
  let excess := m.num - (5 * capOf s : Nat) * (m.den : Int)
  if 0 < c then
    let q := (excess * ((20 + c : Nat) : Int) + m.num - 1) / m.num
    newPoint s (c - min c (min 20 q.toNat))
  else s.rput Fld.PM_STATUS_DUTY (max 1 (s.duty - 1))

/-- Is a mean above so many hundredths of C? -/
def above (s : State) (m : Mean) (pct : Nat) : Bool := decide ((pct * 5 * capOf s : Nat) * (m.den : Int) < 100 * m.num)

/-- The rule of R363, with the return of R367 in fixed-frequency mode. -/
def capRule (s : State) (m : Mean) : State :=
  let c := s.point
  let fmax := fmaxCode s
  if above s m 100 then stepDown s m
  else if m.num * 100 < (98 * 5 * capOf s : Nat) * (m.den : Int) ∧ s.duty < 16 then s.rput Fld.PM_STATUS_DUTY (s.duty + 1)
  else if s.duty < 16 then s
  else if s.pw.fixed then
    (if c < fmax ∧ m.num * ((20 + fmax : Nat) : Int) ≤ (5 * capOf s : Nat) * (m.den : Int) * ((20 + c : Nat) : Int) then newPoint s fmax
     else s)
  else if m.num * 100 < (98 * 5 * capOf s : Nat) * (m.den : Int) then newPoint s (min fmax (c + 1))
  else s

/-- Note a region below the ceiling point, or a lowered duty, in this epoch (R367, PM_STATUS). -/
def noteBelow (s : State) : State :=
  s.mapPw (fun p => { p with
    below := p.below || (regionsOn s).any (fun r => !(regionLent s r) && decide (regionPoint s r < fmaxCode s))
    dutyLow := p.dutyLow || decide (s.duty < 16) })

/-- The rail monitors' sample of one microsecond: the device's power and each region's core rail, in mW (R360, R364). -/
def doPowerSample (total r0 r1 r2 r3 : Nat) (s : State) : State :=
  let rs := [(0, r0), (1, r1), (2, r2), (3, r3)]
  let s := s.mapPw (fun p => { p with
    samples := p.samples + 1
    regionSum := rs.map (fun e => (e.1, SMap.get p.regionSum e.1 0 + e.2)), regionNow := rs
    sum := if p.skip then 0 else p.sum + total, count := if p.skip then 0 else p.count + 1, skip := false })
  let m : Mean := { num := s.pw.sum, den := s.pw.count }
  if s.flag Fld.PM_STATUS_TRIP then s
  else if 2 ≤ s.pw.samples ∧ 0 < s.pw.count ∧ above s m 110 = true then noteBelow (stepDown s m)
  else s

/-! ### Lending (R261, R370) -/

/-- Is a tray long-waiting or halted? -/
def trayLong (t : Tray) : Bool :=
  t.halted || (!t.paths.isEmpty && t.paths.all (fun p => p.wait.isSome) &&
    t.paths.any (fun p => match p.wait with
      | some w => w.long
      | none => false))

/-- Is a core lendable (R261)? -/
def lendable (s : State) (core : Nat) : Bool :=
  let c := s.core core
  let m := s.mover (blockOf core)
  let named := fun (d : Desc) => d.cells.contains core
  c.trays.all (fun e => trayLong e.2 && e.2.pend.all (fun p => match p.kind with
    | .matrix _ _ => false
    | _ => true)) &&
    c.veq.isEmpty && !(m.queue.any named) && !(match m.job with
      | some (.desc d) => named d
      | _ => false)

/-- May a region be lent at this boundary: it is ON, and every core of it is lendable or holds no tray? -/
def regionLends (s : State) (r : Nat) : Bool :=
  regionOn s r && (List.range 48).all (fun i => (s.core (48 * r + i)).trays.isEmpty || lendable s (48 * r + i))

/-! ### Droop (R368, R369) -/

/-- A detector fires: the next cycle of its region is stretched and counted. A disabled detector does not fire (R418). -/
def doDroop (detector : Nat) (s : State) : State :=
  let r := detector / 24
  if s.pw.detOff.contains detector then s
  else (s.rbump Fld.PM_DROOP_STATS_STRETCHES 1 0 r).mapPw (fun p => { p with
    stretches := SMap.put p.stretches r (SMap.get p.stretches r 0 + 1) })

/-- A region's ceiling at a boundary (R369); it does not move in fixed-frequency mode. -/
def droopCeiling (s : State) (r : Nat) : State :=
  let f := Fld.PM_REGION_STATE_CEILING r
  let n := SMap.get s.pw.stretches r 0
  if s.pw.fixed then s.rput f 70
  else if s.rget Fld.PM_DROOP_CTRL_LIMIT < n then
    let s := (s.rput f (s.rget f - 1)).rbump Fld.PM_DROOP_STATS_CEILING_DROPS (if s.rget f = 0 then 0 else 1) 0 r
    s.mapPw (fun p => { p with calm := SMap.put p.calm r 0 })
  else
    let k := SMap.get s.pw.calm r 0 + 1
    if k = 100 then (s.rput f (min 70 (s.rget f + 1))).mapPw (fun p => { p with calm := SMap.put p.calm r 0 })
    else s.mapPw (fun p => { p with calm := SMap.put p.calm r k })

/-! ### Temperature (R373 to R377) -/

/-- A sensor's reading in units of 0.125 degrees, if it is valid. -/
def sensorTemp (s : State) (i : Nat) : Option Int :=
  if s.flag Fld.TH_SENSOR_VALID 0 i then some (signedOf 12 (s.rget Fld.TH_SENSOR_TEMP 0 i)) else none

def validTemps (s : State) : List Int := (List.range 64).filterMap (fun i => sensorTemp s i)

/-- Does some valid sensor read at or above so many degrees? -/
def anyAt (s : State) (deg : Nat) : Bool := (validTemps s).any (fun t => decide ((8 * deg : Nat) ≤ t))

/-- Does every valid sensor read at or below so many degrees? -/
def allBelow (s : State) (deg : Nat) : Bool := (validTemps s).all (fun t => decide (t ≤ (8 * deg : Nat)))

/-- A region with more than four invalid sensors counts as lying at THROTTLE (R373). -/
def blindRegion (s : State) : Bool :=
  (List.range 4).any (fun r => decide (4 < (s.pw.bad.filter (fun i => i / 16 == r)).length))

/-- The thermal cap at a boundary (R374). -/
def thermalStep (s : State) : State :=
  let th := s.rget Fld.TH_CTRL_THROTTLE
  let blind := blindRegion s
  let top := 200 * s.pw.cap
  let p := s.pw
  let v :=
    if anyAt s th || blind then min top (max 100000 (p.thermal - 4 * p.cap))
    else if allBelow s (th - 3) then min top (p.thermal + p.cap)
    else min top p.thermal
  s.mapPw (fun p => { p with thermal := v })

/-- HOT_N: driven low, or released once nothing holds it and a millisecond has passed (R376). -/
def hotPin (s : State) : State :=
  let hot := s.rget Fld.TH_CTRL_HOT
  let hold := anyAt s hot || s.flag Fld.PM_STATUS_TRIP
  if s.flag Fld.TH_STATUS_HOT_DRIVEN then
    if !hold && allBelow s (hot - 5) && decide (s.pw.hotSince + 1000000 ≤ s.now) then s.rput Fld.TH_STATUS_HOT_DRIVEN 0 else s
  else if hold then
    ((s.rput Fld.TH_STATUS_HOT_DRIVEN 1).rbump Fld.TH_GLITCH_HOT).mapPw (fun p => { p with hotSince := s.now })
  else s

/-- The record of a thermal event (R383). -/
def thermalRecord (s : State) (sensor reading detail : Nat) : State :=
  s.logErr { kind := 0x0F, cls := 7, unit := 9, place := sensor, object := sensor, valueA := reading, detail := detail }

/-- Enter or leave the trip hold (R377). -/
def tripHold (s : State) (sensor reading : Nat) : State :=
  if s.flag Fld.PM_STATUS_TRIP then
    if allBelow s (s.rget Fld.TH_CTRL_HOT - 10) then thermalRecord (s.rput Fld.PM_STATUS_TRIP 0) sensor reading 3 else s
  else if anyAt s 115 then
    let s := thermalRecord (s.rput Fld.PM_STATUS_TRIP 1) sensor reading 2
    noteBelow ((newPoint s 0).rput Fld.PM_STATUS_DUTY 1)
  else s

/-- The hottest valid sensor. -/
def showHottest (s : State) : State :=
  let best := (List.range 64).foldl (fun (b : Option (Nat × Int)) i =>
    match sensorTemp s i, b with
    | some t, some (_, u) => if u < t then some (i, t) else b
    | some t, none => some (i, t)
    | none, _ => b) none
  match best with
  | some (i, t) => (s.rput Fld.TH_STATUS_HOTTEST i).rput Fld.TH_STATUS_HOTTEST_TEMP (truncTo 12 t)
  | none => s

/-- A sensor is read (R373): out of range, or unchanged for 100 ms while its region draws more than 50 W, marks it invalid. -/
def doSensor (i : Nat) (raw : Nat) (s : State) : State :=
  let t := signedOf 12 raw
  let old := SMap.find? s.pw.seen i
  let since := match old with
    | some (v, t0) => if v = raw then t0 else s.now
    | none => s.now
  let stuck := decide (100000000 ≤ s.now - since) && decide (50000 < SMap.get s.pw.regionNow (i / 16) 0)
  let wrong := decide (t < -320) || decide (1200 < t) || stuck
  let s := (s.rput Fld.TH_SENSOR_TEMP raw 0 i).mapPw (fun p => { p with seen := SMap.put p.seen i (raw, since) })
  let s :=
    if s.pw.bad.contains i then s
    else if wrong then
      thermalRecord ((s.rput Fld.TH_SENSOR_VALID 0 0 i).mapPw (fun p => { p with bad := p.bad ++ [i] })) i raw 1
    else s.rput Fld.TH_SENSOR_VALID 1 0 i
  hotPin (tripHold (showHottest s) i raw)

/-- HOT_N has been low for a millisecond (R376). -/
def doHotExpire (s : State) : State :=
  if s.flag Fld.TH_STATUS_HOT_DRIVEN then hotPin (s.pass (s.pw.hotSince + 1000000 - s.now)) else s

/-- THERM_ALERT_N low for so many ns (R375): the new C acts at once. -/
def doAlertOn (ns : Nat) (s : State) : State :=
  if ns < 2000 then s.rbump Fld.TH_GLITCH_ALERT
  else
    let s := showCap (s.rput Fld.PM_STATUS_ALERT 1)
    let m : Mean := { num := s.pw.sum, den := s.pw.count }
    if 0 < s.pw.count ∧ s.flag Fld.PM_STATUS_TRIP = false ∧ above s m 110 = true then noteBelow (stepDown s m) else s

def doAlertOff (ns : Nat) (s : State) : State :=
  if ns < 2000 then s.rbump Fld.TH_GLITCH_ALERT else showCap (s.rput Fld.PM_STATUS_ALERT 0)

/-! ### The power epoch boundary (R363, R369, R370, R374) -/

/-- The settings written since the last boundary take effect (R362, R378). -/
def takeSettings (s : State) : State :=
  let s := s.mapPw (fun p => { p with
    cap := s.rget Fld.PM_CAP_WATTS, fixed := s.flag Fld.PM_CLK_MODE_FIXED, point := s.rget Fld.PM_CLK_MODE_POINT
    lendPoint := s.rget Fld.PM_LEND_POINT })
  if fmaxCode s < s.point then newPoint s (fmaxCode s) else s

/-- Power freed by a region at a point, over a common denominator: its mean over the epoch times (1 - lent clock / f). -/
def freedNum (s : State) (r c : Nat) : Int :=
  ((SMap.get s.pw.regionSum r 0 : Nat) : Int) * (((20 + c : Nat) : Int) - ((20 + s.pw.lendPoint : Nat) : Int)) * (s.pw.count : Int)

def doEpoch (s : State) : State :=
  let due := (s.pw.lastEpoch / 10000 + 1) * 10000
  let s := s.pass (due - s.now)
  -- counts of the epoch that ends
  let s := noteBelow s
  let s := if s.pw.dutyLow then s.rbump Fld.PM_STATUS_DUTY_EPOCHS else s
  let s := if s.pw.fixed && (s.pw.below || s.pw.dutyLow) then s.rbump Fld.PM_FIXED_EXCURSIONS_COUNT else s
  let s := if (List.range 4).any (regionLent s) then s.rbump Fld.PM_LEND_LENT_EPOCHS else s
  let s := partEpoch (takeSettings s)
  let s := showCap (thermalStep s)
  -- lending
  let was := (List.range 4).filter (regionLent s)
  let lends := (List.range 4).filter (fun r => regionLends s r)
  let s := (List.range 4).foldl (fun s r => s.rput (Fld.PM_REGION_STATE_LENT r) (b2n (lends.contains r))) s
  let lentNow := lends.filter (fun r => !(was.contains r))
  let back := was.filter (fun r => !(lends.contains r))
  let c := s.point
  let p := s.pw
  let s :=
    if p.count = 0 ∨ s.flag Fld.PM_STATUS_TRIP then s
    else
      let freed := fun (rs : List Nat) => rs.foldl (fun a r => a + freedNum s r c) (0 : Int)
      let m : Mean := {
        num := (p.sum : Int) * ((p.samples * (20 + c) : Nat) : Int) - freed lentNow + freed back
        den := p.count * (p.samples * (20 + c)) }
      capRule s m
  let s := (regionsOn s).foldl droopCeiling s
  let s := s.mapPw (fun p => { p with
    lastEpoch := s.now, sum := 0, count := 0, samples := 0, regionSum := [], below := false, dutyLow := false, stretches := [] })
  noteBelow s

/-! ### The sampling window (R291, R371, R437) -/

/-- A queue's sugar cycles of the window in a region. -/
def sugarOf (s : State) (q r : Nat) : Nat := SMap.get s.sugar (4 * q + r) 0

/-- Core-side energy of a queue in units of 0.1 pJ x 790^2, with the region's mean core-rail voltage in mV (R371). -/
def coreEnergy (s : State) (volts : Nat → Nat) (a : QueueAct) : Nat :=
  let sq := fun (r : Nat) => volts r * volts r
  let cores := a.cores.foldl (fun e c =>
    e + sq (regionOf c.core) * (10400 * c.array8 + 7400 * c.array4 + 6600 * c.array2 + 4000 * c.vec + 500 * c.insns +
      80 * c.sramWords)) 0
  cores + (List.range 4).foldl (fun e r => e + sq r * 3500 * sugarOf s a.queue r) 0

/-- All the terms of R371's table for a queue, in the same units. -/
def queueEnergy (s : State) (volts : Nat → Nat) (a : QueueAct) : Nat :=
  coreEnergy s volts a + 624100 * (4500 * a.l2 + 33000 * a.hbm + 100 * a.esrelBytes + 125 * a.ucieBytes)

/-- The larger of two fractions. -/
def maxFrac (a b : Nat × Nat) : Nat × Nat := if a.1 * b.2 < b.1 * a.2 then b else a

/-- The solo estimate of R291 in ns, as a fraction. -/
def soloNs (s : State) (a : QueueAct) : Nat × Nat :=
  let core := fun (c : CoreAct) =>
    let f := 20 + regionPoint s (regionOf c.core)
    maxFrac (20 * c.insns, f) (40 * max (c.array8 + c.array4 + c.array2) c.vec, f)
  a.cores.foldl (fun m c => maxFrac m (core c)) (128 * a.hbm, 9420)

/-- A queue's measured slowdown of the window, in 8.8 fixed point (R291). -/
def slowdown (o : Nat) (e : Nat × Nat) : Nat :=
  if o = 0 then 0
  else if e.1 = 0 then 0xFFFF
  else min 0xFFFF (max 256 (roundFree ((o * 256 * e.2 : Nat) : Int) e.1).toNat)

/-- The time in the window during which a queue had a running node, counted up to now. -/
def closeActive (s : State) (qn : Nat) : State × Nat :=
  let q := s.queue qn
  let o := q.activeNs + (match q.activeSince with
    | some t => s.now - t
    | none => 0)
  (s.mapQueue qn (fun q => { q with activeNs := 0, activeSince := q.activeSince.map (fun _ => s.now) }), o)

/-- A sampling window ends (R437): the last window's registers, then DB_SAMPLE_SEQ. `measured` is the device's energy of the
window in uJ, `volts` each region's mean core-rail voltage in mV, `acts` what each queue has done in it. -/
def doWindow (measured : Nat) (volts : Nat → Nat) (acts : List QueueAct) (s : State) : State :=
  let due := (s.lastWindow / 1000000 + 1) * 1000000
  let s := s.pass (due - s.now)
  let act := fun (q : Nat) => (acts.find? (fun a => a.queue.val == q)).getD { queue := 0 }
  let s := s.queues.foldl (fun s e =>
    let (s, o) := closeActive s e.1
    let a := if acts.any (fun a => a.queue.val == e.1) then act e.1 else { queue := 0 }
    let s := s.rput Fld.FE_QUEUE_SLOWDOWN_SLOWDOWN (slowdown o (soloNs s a)) 0 e.1
    s.rput Fld.FE_QUEUE_SLOWDOWN_ACTIVE_US (min 1000 (o / 1000)) 0 e.1) s
  let s := partWindow s
  let unit : Nat := 10000000 * 624100
  let cycles : Nat := acts.foldl (fun n a => n + a.trayCycles) 0
  let table : Nat := acts.foldl (fun n a => n + queueEnergy s volts a) 0
  let pool : Int := ((measured * unit : Nat) : Int) - table
  let share := fun (a : QueueAct) =>
    let t : Int := queueEnergy s volts a
    (if cycles = 0 then roundFree t unit else roundFree (t * cycles + pool * a.trayCycles) (cycles * unit)).toNat
  let s := { s with regs := s.regs.filter (fun e =>
    !(decide (Fld.PM_QUEUE_ENERGY_UJ.offset 0 0 ≤ e.1) && decide (e.1 < Fld.PM_QUEUE_ENERGY_UJ.offset 0 1024))) }
  let s := acts.foldl (fun s a => s.rput Fld.PM_QUEUE_ENERGY_UJ (share a) 0 a.queue) s
  let s := s.rput Fld.PM_ENERGY_WINDOW_MJ measured
  let s := s.rput Fld.PM_ENERGY_UNATTRIBUTED (measured - acts.foldl (fun n a => n + share a) 0)
  let s := s.rput Fld.DB_SAMPLE_SEQ_WINDOWS (s.rget Fld.DB_SAMPLE_SEQ_WINDOWS + 1)
  -- the windows of R209, R304, R311 and R384
  { s with
    el := { s.el with links := s.el.links.map (fun (e : Nat × ELink) => (e.1, { e.2 with symbols := (0, 0) })) }
    lastWindow := s.now, sugar := [], windowNotified := false, windowDecreased := []
    channels := s.channels.map (fun (e : Nat × Channel) => (e.1, { e.2 with windowCorrected := 0 })) }

/-! ### Writes (R26, R362, R378) -/

/-- PM_CAP: 500 to 1,600 W, above 900 W only with LIQUID (R362). -/
def capLegal (w liquid : Nat) : Bool := decide (500 ≤ w) && decide (w ≤ 1600) && (decide (w ≤ 900) || decide (liquid = 1))

def pmCap (v : Nat) (s : State) : State × Nat :=
  if capLegal (bits v 0 11) (bits v 16 1) then
    ((s.rput Fld.PM_CAP_WATTS (bits v 0 11)).rput Fld.PM_CAP_LIQUID (bits v 16 1), stOk)
  else (s, stInvalidArgument)

/-- PM_CLK_MODE: a point of at most 2.0 GHz (R26). -/
def pmClkMode (v : Nat) (s : State) : State × Nat :=
  if bits v 1 7 ≤ 60 then ((s.rput Fld.PM_CLK_MODE_FIXED (bits v 0 1)).rput Fld.PM_CLK_MODE_POINT (bits v 1 7), stOk)
  else (s, stInvalidArgument)

/-- PM_LEND. -/
def pmLend (v : Nat) (s : State) : State × Nat :=
  if bits v 0 7 ≤ 60 then (s.rput Fld.PM_LEND_POINT (bits v 0 7), stOk) else (s, stInvalidArgument)

/-- POWER_POLICY: every field whose SET bit is 1 is checked and written; a failing check changes nothing (R378). -/
def powerPolicy (w : Nat) (s : State) : State × Nat :=
  let okCap := bits w 12 1 = 0 ∨ capLegal (bits w 0 11) (bits w 11 1) = true
  let okMode := bits w 21 1 = 0 ∨ bits w 14 7 ≤ 60
  let okLend := bits w 29 1 = 0 ∨ bits w 22 7 ≤ 60
  if okCap ∧ okMode ∧ okLend then
    let s := if bits w 12 1 = 1 then (pmCap (bits w 0 11 + bits w 11 1 * 2 ^ 16) s).1 else s
    let s := if bits w 21 1 = 1 then (pmClkMode (bits w 13 1 + bits w 14 7 * 2) s).1 else s
    (if bits w 29 1 = 1 then (pmLend (bits w 22 7) s).1 else s, stOk)
  else (s, stInvalidArgument)

def execPowerEpochBoundary (s : State) : Out State := .next (s.onClock (doEpoch s))
def execPowerSample (total r0 r1 r2 r3 : BitVec 32) (s : State) : Out State :=
  .next (s.onClock (doPowerSample total.toNat r0.toNat r1.toNat r2.toNat r3.toNat s))
def execDroopDetect (detector : Fin 96) (s : State) : Out State := .next (s.onClock (doDroop detector s))
def execSensorRead (sensor : Fin 64) (reading : BitVec 12) (s : State) : Out State := .next (s.onClock (doSensor sensor reading.toNat s))
def execHotHoldExpire (s : State) : Out State := .next (s.onClock (doHotExpire s))
def execThermAlertAssert (ns : Nat) (s : State) : Out State := .next (s.onClock (doAlertOn ns s))
def execThermAlertDeassert (ns : Nat) (s : State) : Out State := .next (s.onClock (doAlertOff ns s))
def execSamplingWindowBoundary (measured : BitVec 32) (v0 v1 v2 v3 : BitVec 12) (acts : List QueueAct) (s : State) : Out State :=
  .next (s.onClock (doWindow measured.toNat (fun r => ([v0, v1, v2, v3].map BitVec.toNat).getD r 0) acts s))
def execPmCapWrite (kernel : Bool) (v : Word) (s : State) : Out State := .next (s.onClock (krwWrite kernel (pmCap v.toNat) s))
def execPmClkModeWrite (kernel : Bool) (v : Word) (s : State) : Out State := .next (s.onClock (krwWrite kernel (pmClkMode v.toNat) s))

end Sys2Proof.Machine
end

