-- ==== Sys2Proof/Machine/RegAccess.lean ====
section
/-!
DEFINITION. Machine/RegAccess.lean: what a read of a register returns and does, and what a write of one does (R9 to R13), by
every path: packets, nodes and the management chain. Registers that show other state are computed here.
-/
namespace Sys2Proof.Machine

/-- A word with fields set. -/
def showFields (w : Nat) (fs : List (Fld × Nat)) : Nat :=
  fs.foldl (fun w e => (putBits (BitVec.ofNat 64 w) e.1.lo e.1.len e.2).toNat) w

/-- The registers of a core answer only while its region is not OFF (R19). -/
def RegName.gated (r : RegName) (s : State) : Bool :=
  (decide (r.unit = 2) || (decide (r.unit = 13) && decide (r.index ≠ 17))) && !(coreReachable s r.inst)

/-! ### Registers that show other state -/

/-- DB_TRAY_STATUS and DB_TRAY_MASK: the tray that DB_TRAY_CTRL.SLOT selects (R79). -/
def trayView (s : State) (core : Nat) : Option (Nat × Nat × Nat × Nat) :=
  (s.tray core (s.rget Fld.DB_TRAY_CTRL_SLOT core)).map (fun t =>
    let p := t.path
    (t.paths.length, (p.map (fun p => p.pc)).getD 0, (p.map (fun p => p.lanes.toNat)).getD 0, t.live.toNat))

def accCode : AccState → Nat
  | .free => 0
  | .openTile => 1
  | .draining => 2

def tqCode : TqState → Nat
  | .free => 0
  | .filling => 1
  | .ready => 2

/-- A number with bit i set where a test of i holds. -/
def bitsWhere (n : Nat) (p : Nat → Bool) : Nat := ((List.range n).filter p).foldl (fun m i => m + 2 ^ i) 0

/-- CO_MX_STATUS (R90, R91, R93). -/
def mxView (s : State) (core : Nat) : List (Fld × Nat) :=
  let c := s.core core
  let owner := fun (i : Nat) => if (c.accSet i).state = .free then 0 else (c.accSet i).owner
  [(Fld.CO_MX_STATUS_SET0_STATE, accCode (c.accSet 0).state), (Fld.CO_MX_STATUS_SET0_OWNER, owner 0),
   (Fld.CO_MX_STATUS_SET1_STATE, accCode (c.accSet 1).state), (Fld.CO_MX_STATUS_SET1_OWNER, owner 1),
   (Fld.CO_MX_STATUS_TQ_STATE, (List.range 4).foldl (fun m i => m + tqCode (c.entry i).state * 4 ^ i) 0),
   (Fld.CO_MX_STATUS_RH_VALID, bitsWhere 8 (fun h => (c.row h).valid))]

/-- Does the head of the engine's queue wait on a tile-queue entry (R149)? -/
def headWaits (c : Core) : Bool :=
  match c.veq with
  | [] => false
  | e :: _ => e.result.isNone && e.members.any (fun m => m.tsrc && (c.entry m.tq).state != TqState.ready)

/-- CO_VE_STATUS (R149, R163). -/
def veView (s : State) (core : Nat) : List (Fld × Nat) :=
  let c := s.core core
  [(Fld.CO_VE_STATUS_QUEUE, c.veq.foldl (fun n e => n + e.members.length) 0), (Fld.CO_VE_STATUS_HEAD_WAIT, b2n (headWaits c)),
   (Fld.CO_VE_STATUS_FWD_VALID, bitsWhere 4 (fun i => (c.table i).valid)),
   (Fld.CO_VE_STATUS_DER_VALID, bitsWhere 4 (fun i => (c.table (i + 4)).valid))]

/-- The locked lines of a slice with their groups. -/
def lockedIn (s : State) (slice : Nat) : List (Nat × Nat) :=
  s.lines.filterMap (fun e =>
    if (homeOf e.1).slice = slice then (e.2.slice.bind (fun w => w.lock)).map (fun g => (e.1, g)) else none)

/-- L2_LOCK_STATUS (R198). -/
def lockView (s : State) (slice : Nat) : List (Fld × Nat) :=
  let ls := lockedIn s slice
  let sets := (ls.map (fun e => (homeOf e.1).set)).eraseDups
  let full := sets.filter (fun x => decide (lockLimit s slice x ≤ (ls.filter (fun e => (homeOf e.1).set == x)).length))
  [(Fld.L2_LOCK_STATUS_GROUPS, bitsWhere 16 (fun g => ls.any (fun e => e.2 == g))), (Fld.L2_LOCK_STATUS_LINES, ls.length),
   (Fld.L2_LOCK_STATUS_FULL_SETS, min full.length 0xFFFF)]

/-- L2_DIR_STATUS: lines absent from the slice that some L1 holds (R225). How many directory sets are full is a free value, at
most one for each 16 entries. -/
def dirView (s : State) (slice : Nat) : List (Fld × Nat) :=
  let n := (s.lines.filter (fun e => decide ((homeOf e.1).slice = slice) && e.2.slice.isNone && !e.2.l1.isEmpty)).length
  [(Fld.L2_DIR_STATUS_ENTRIES, n), (Fld.L2_DIR_STATUS_FULL_SETS, Config.dirFull slice s.reads % (n / 16 + 1))]

/-- HM_ERR_COUNTS of the channel that HM_ERR_SEL selects. -/
def errCountView (s : State) : List (Fld × Nat) :=
  let c := SMap.get s.channels (s.rget Fld.HM_ERR_SEL_CHANNEL) {}
  [(Fld.HM_ERR_COUNTS_CORRECTED, min c.corrected 0xFFFFFF), (Fld.HM_ERR_COUNTS_UNCORRECTABLE, min c.uncorrectable 0xFFFF),
   (Fld.HM_ERR_COUNTS_RETRAINS, min c.retrains 0xFFFF), (Fld.HM_ERR_COUNTS_SKIPPED, min c.skipped 0xFF)]

/-- Does FE_ERRLOG_SEL name a record that the ring holds (R381, R384)? -/
def selValid (s : State) : Bool :=
  let q := s.rget Fld.FE_ERRLOG_SEL_SEQUENCE
  let next := s.rget Fld.FE_ERRLOG_NEXT_SEQUENCE
  decide (q < next) && decide (next ≤ q + s.rget Fld.FE_ERRLOG_STATUS_HELD)

/-- The persistent registers of R409: unit and INDEX, with their copies. -/
def persistent : List (Nat × Nat × Nat) :=
  [(8, 1, 1), (8, 2, 1), (8, 6, 1), (8, 7, 1), (8, 1037, 1), (9, 0, 1), (5, 10, 1), (5, 11, 1), (5, 48, 1), (4, 2, 1), (4, 23, 1),
   (6, 500, 1), (6, 98, 48), (6, 146, 48), (14, 10, 1), (14, 11, 1), (0, 130, 1), (0, 2179, 1), (0, 2180, 1), (0, 2206, 1),
   (7, 2, 1), (12, 2, 1)]

/-- The bits of a persistent register that a bank keeps: its KRW fields. START of PM_CAL_CTRL is a command and is not kept. -/
def keptBits (m : RegDef) : Nat :=
  m.fields.foldl (fun k f => if f.acc = Acc.krw ∧ ¬(m.index = 1037 ∧ f.lo = 32) then k + ones f.lo f.len else k) 0

/-- Every persistent register by name; L2_VICTIM_BUDGET has a copy in each slice. -/
def persistentRegs : List RegName :=
  persistent.flatMap (fun p => (List.range p.2.2).flatMap (fun k =>
    (List.range (instances p.1 (p.2.1 + k))).filterMap (fun i => regNamed (regOffset p.1 i (p.2.1 + k)))))

/-- What a bank holds of a register. -/
def RegName.kept (s : State) (r : RegName) : Nat := r.raw s &&& keptBits r.map

/-- The bank in force: the valid one with the higher sequence number (R409). -/
def bankInForce (s : State) : Option (Nat × Bank) :=
  s.store.banks.foldl (fun (best : Option (Nat × Bank)) e =>
    match best with
    | none => some e
    | some b => if b.2.seq < e.2.seq then some e else best) none

/-- The committed value of a persistent register: its Reset value without a bank. -/
def committed (s : State) (r : RegName) : Nat :=
  let reset := BitVec.ofNat 64 (r.map.rst &&& keptBits r.map)
  match bankInForce s with
  | some (_, b) => (SMap.get b.regs r.offset reset).toNat
  | none => reset.toNat

/-- ST_STATUS.DIRTY: a live value differs from the committed bank (R410). -/
def storeDirty (s : State) : Bool :=
  persistentRegs.any (fun r => decide (r.kept s ≠ committed s r)) || s.flag Fld.HM_RETIRE_STATUS_UNCOMMITTED

/-- Every register by unit, instance and INDEX, in the order of offsets (segment 7 of R430). -/
def regsInOrder : List (Nat × Nat × Nat) :=
  (List.range 15).flatMap (fun u => (List.range 192).flatMap (fun i =>
    ((regsOfUnit u).flatMap (fun m => (List.range m.copies).map (fun k => m.index + k))).filterMap (fun x =>
      if i < instances u x then some (u, i, x) else none)))

/-! ### Reads -/

/-- The raw word with the fields that show other state; the scan window apart. -/
def regShow (s : State) (r : RegName) : Nat :=
  let w := r.raw s
  let off := r.offset
  let cyc := fun (f : Fld) => (f, Config.cycles s.reads off f.lo)
  match r.unit, r.index with
  | 0, 2187 => showFields w [(Fld.FE_ERRLOG_STATUS_SEL_VALID, b2n (selValid s))]
  | 2, 1 => showFields w [cyc Fld.CO_ISSUE_STATS_DUAL_SAME, cyc Fld.CO_ISSUE_STATS_IDLE_ACTIVE]
  | 2, 3 => showFields w (mxView s r.inst)
  | 2, 23 => showFields w (veView s r.inst)
  | 2, 24 => showFields w [(Fld.CO_VE_TABLE_TAG_TAG,
      (List.range 8).foldl (fun m t => m + ((s.core r.inst).table t).tag % 64 * 2 ^ (6 * t)) 0)]
  | 2, 25 => showFields w [cyc Fld.CO_VE_ACTIVITY_BUSY]
  | 2, 42 => showFields w [cyc Fld.CO_FENCE_STATS_WAIT]
  | 2, 91 => showFields w [cyc Fld.CO_SYNC_STATS_LENT]
  | 4, 3 => showFields w (lockView s r.inst)
  | 4, 22 => showFields w (dirView s r.inst)
  | 5, 13 => showFields w (errCountView s)
  | 6, 243 => SMap.get s.el.routes (s.rget Fld.EL_ROUTE_SEL_ENTRY) 0
  | 10, 0 => showFields w [(Fld.MC_STATUS_FROZEN, s.rget Fld.MC_FREEZE_STATUS_FROZEN),
      (Fld.MC_STATUS_RECOVERY, b2n (decide (s.rget Fld.SP_BOOT_STATUS_STAGE = 15))), (Fld.MC_STATUS_FE_MODE, s.rget Fld.FE_PAIR_STATUS_MODE)]
  | 12, 0 => showFields w [(Fld.ST_STATUS_DIRTY, b2n (storeDirty s))]
  | 13, 2 =>
    (match trayView s r.inst with
     | some v => showFields w [(Fld.DB_TRAY_STATUS_PATHS, v.1), (Fld.DB_TRAY_STATUS_PC, v.2.1)]
     | none => w)
  | 13, 3 =>
    (match trayView s r.inst with
     | some v => showFields w [(Fld.DB_TRAY_MASK_RUNNING, v.2.2.1), (Fld.DB_TRAY_MASK_LIVE, v.2.2.2)]
     | none => w)
  | 14, 0 => s.now % 2 ^ 64
  | 0, x =>
    if 2189 ≤ x ∧ x < 2205 then
      (if selValid s then s.readLE (errSlot s (s.rget Fld.FE_ERRLOG_SEL_SEQUENCE) + 8 * (x - 2189)) 8 else 0)
    else w
  | _, _ => w

/-- A word of a scan segment (R430): local SRAM below the L1's part, and the registers in the order of their offsets; what
the manual gives no layout for is a free value. -/
def scanWord (s : State) (seg unit off : Nat) : Nat :=
  let raw := (Config.scanWord s.store.incarn (s.rget Fld.MC_FREEZE_TIME_COUNT) seg unit off).toNat
  if seg = 3 ∧ unit < 192 ∧ 8 * off + 8 ≤ (1024 - (s.core unit).l1KiB) * 1024 then s.readLE (sramAddr unit (8 * off)) 8
  else if seg = 7 then
    match regsInOrder[off]? with
    | some (u, i, x) => if u = 10 ∧ x = 5 then 0 else ((regNamed (regOffset u i x)).map (fun r => r.shown (regShow s r))).getD 0
    | none => raw
  else raw

/-- What MC_SCAN_DATA shows: the selected word, zero while the device is not iced (R432). -/
def scanData (s : State) : Nat :=
  if s.flag Fld.MC_FREEZE_STATUS_FROZEN then
    scanWord s (s.rget Fld.MC_SCAN_SEL_SEG) (s.rget Fld.MC_SCAN_SEL_UNIT) (s.rget Fld.MC_SCAN_SEL_OFFSET)
  else 0

/-- A read of a register: its value, and RC fields cleared (R11, R12). -/
def regRead (s : State) (r : RegName) : State × Nat :=
  let s := { s with reads := s.reads + 1 }
  if r.gated s then (s, 0)
  else if r.unit = 10 ∧ r.index = 5 then
    (s.rput Fld.MC_SCAN_SEL_OFFSET (s.rget Fld.MC_SCAN_SEL_OFFSET + 1), scanData s)
  else
    let v := r.shown (regShow s r)
    let s := r.setRaw s (r.afterRead (r.raw s))
    if r.unit = 5 ∧ r.index = 13 then
      ({ s with channels := SMap.update s.channels (s.rget Fld.HM_ERR_SEL_CHANNEL) (fun c =>
          { c with corrected := 0, uncorrectable := 0, retrains := 0, skipped := 0 }) }, v)
    else (s, v)

/-! ### Writes -/

/-- Is a value in the range that the register's map gives it? -/
def writeLegal (r : RegName) (v : Nat) : Bool :=
  let within := fun (x lo hi : Nat) => decide (lo ≤ x) && decide (x ≤ hi)
  match r.unit, r.index with
  | 0, 130 => decide (10000 ≤ bits v 0 40)
  | 0, 2179 => decide (bits v 0 32 ≠ 0)
  | 0, 2180 => within (bits v 0 20) 10 1000000 && within (bits v 20 20) 10 1000000
  | 0, 2206 => within (bits v 0 32) 1000 100000
  | 4, 2 => decide (bits v 0 11 ≤ 1024)
  | 4, 23 => within (bits v 0 32) 5000 200000
  | 5, 10 => within v 1000000 10000000000
  | 6, 500 => within (bits v 0 10) 10 640 && within (bits v 10 10) 100 640 && decide (bits v 0 10 ≤ bits v 10 10) &&
      within (bits v 20 6) 4 63
  | 7, 2 => within (bits v 0 32) 10000 1000000
  | 8, 0 => within (bits v 0 32) 2000 1000000
  | 8, 7 => within (bits v 0 8) 10 19
  | 8, 1037 => within (bits v 0 32) 60 86400
  | 9, 0 => within (bits v 0 8) 60 105 && within (bits v 8 8) (bits v 0 8 + 5) 110 && within (bits v 16 11) 500 1600
  | 10, 4 => decide (bits v 0 4 ≤ 9)
  | 13, x => if 12 ≤ x ∧ x < 16 then within (bits v 48 5) 3 30 else true
  | 14, 10 => within (bits v 0 32) 100000 100000000
  | _, _ => true

/-- Start the calibration of regions by a mask (R418). -/
def calStart (s : State) (regions : Nat) : State :=
  s.rput Fld.PM_CAL_STATUS_BUSY (s.rget Fld.PM_CAL_STATUS_BUSY ||| regions)

/-- What a privileged write does, but for ST_CTRL: registers with an action of their own, and the others by their access
codes. -/
def regAct (s : State) (r : RegName) (kernel : Bool) (v : Nat) : State × Nat :=
  let store := fun (s : State) => r.setRaw s (r.written kernel (r.raw s) v)
  match r.unit, r.index with
  | 5, 1 => (chanCommand s (bits v 0 7) (bits v 8 3), stOk)
  | 5, 14 => (tgWrite s (bits v 0 7) (bits v 8 2) (bits v 10 1) (bits v 16 32) (decide (bits v 11 1 = 1)), stOk)
  | 6, 243 => (putRoute s (s.rget Fld.EL_ROUTE_SEL_ENTRY) v, stOk)
  | 7, 1 => (ucCommand s (bits v 0 2), stOk)
  | 8, 1 => pmCap v s
  | 8, 2 => pmClkMode v s
  | 8, 6 => pmLend v s
  | 8, 1037 => (calStart (store s) (bits v 32 4), stOk)
  | 9, 0 => (showCap (store s), stOk)
  | 13, 0 => (trayCommand s r.inst (bits v 0 6) (bits v 8 2), stOk)
  | 14, 1 => mtCtrl v s
  | 14, 3 => mtSet v s
  | 14, 4 => mtStep v s
  | 14, 6 => mtFreqTrim v s
  | 14, 9 => mtUpstream v s
  | 5, x => if 16 ≤ x ∧ x < 32 then partWrite s (x - 16) v else (store s, stOk)
  | _, _ => (store s, stOk)

/-- A write of a register: a KRW field only from a kernel queue or the chain (R13); a value out of range changes nothing. -/
def regPut (s : State) (r : RegName) (kernel : Bool) (v : Nat) : State × Nat :=
  if r.hasKrw && !kernel then (s, stPrivilege)
  else if r.gated s then (s, stOk)
  else if !(writeLegal r v) then (s, stInvalidArgument)
  else regAct s r kernel v

/-- The status and value of the last access, as a command that asks for it gets them. -/
def State.answer (s : State) (status value : Nat) : State := { s with status := status, value := value }

/-- A read by offset (R10). -/
def readAt (s : State) (off : Nat) : State :=
  match regNamed off with
  | none => s.answer stInvalidArgument 0
  | some r =>
    let t := regRead s r
    t.1.answer stOk t.2

/-- RC_FIELD_READ. -/
def execRcFieldRead (off : BitVec 32) (s : State) : Out State := .next (s.onClock (readAt s off.toNat))
/-- CALIBRATION_START: a write of the START bits (R418). -/
def execCalibrationStart (kernel : Bool) (regions : BitVec 4) (s : State) : Out State :=
  .next (s.onClock (krwWrite kernel (fun s => (calStart (s.rput Fld.PM_CAL_CTRL_START regions.toNat) regions.toNat, stOk)) s))
/-- HM_PART_CTRL_WRITE (R214). -/
def execHmPartCtrlWrite (kernel : Bool) (n : Fin 16) (v : Word) (s : State) : Out State :=
  .next (s.onClock (krwWrite kernel (fun s => partWrite s n v.toNat) s))

end Sys2Proof.Machine
end

