-- ==== Sys2Proof/Machine/Action.lean ====
section
/-!
DEFINITION. Machine/Action.lean: what the actions of nodes share: the running node that an action serves, its end, and what it
reads and writes in device memory and on the host window (R276, R283, R353, R355).
-/
namespace Sys2Proof.Machine

/-- The node that an action serves: running, of a type, not told to stop. -/
def actNode (s : State) (r : NodeRef) (typ : Nat) : Option Node :=
  match s.node r with
  | none => none
  | some n =>
    if feRuns s && decide (n.stage = .running) && !n.aborting && decide (n.typ = typ) && decide (n.launch = 0) then some n else none

/-- The same, for an operation of a type. -/
def actOp (s : State) (r : NodeRef) (typ op : Nat) : Option Node :=
  (actNode s r typ).bind (fun n => if bits (n.word 8) 0 4 = op then some n else none)

/-- An action has ended: its node completes with a status and a result word. -/
def acted (s : State) (r : NodeRef) (status result : Nat) : State :=
  s.mapNode r (fun n => { n with stage := .acted, status := status, result := result })

/-- The requests of an action on the host window; a port that is down fails it at once (R355). -/
def actRequests (s : State) (r : NodeRef) (kind : ReqKind) (a n data : Nat) : State :=
  let mk := fun (p : Nat × Nat) => ({
    src := .body r, kind := kind, stream := streamFe, off := p.1, len := p.2
    data := bits data (8 * (p.1 + hostBase - a)) (8 * p.2) } : DevReq)
  let ps := piecesIn a n
  if hostReachable s then
    ps.foldl (fun s p => s.hostReq (mk p)) (s.mapNode r (fun x => { x with waiting := ps.length }))
  else
    match ps with
    | [] => s
    | p :: _ => acted (ucRecord s (mk p) 0) r stDeliveryFailure 0

/-- What a read of an action finds: nothing yet, a status that ends it, or the bytes as a number. -/
inductive ActRead where
  | wait (s : State)
  | failed (s : State) (status : Nat)
  | data (s : State) (v : Nat)

/-- Bytes of an extent, from what has come by address. -/
def gathered (m : SMap Nat) (a : Nat) : Nat → Nat
  | 0 => 0
  | n + 1 => SMap.get m a 0 + 256 * gathered m (a + 1) n

/-- Read an extent for an action: from device memory at once, from the host window by requests, after whose completions the
action's row runs again. -/
def actRead (s : State) (r : NodeRef) (n : Node) (a len : Nat) : ActRead :=
  if len = 0 then .data s 0
  else if isHost a then
    if n.waiting ≠ 0 then .wait s
    else if n.data.isEmpty then .wait (actRequests s r .read a len 0)
    else .data s (gathered n.data a len)
  else if !(extentReady s a len) then .wait s
  else
    match agentRead s a len with
    | (t, _, false) => .failed t stUncorrectable
    | (t, v, true) => .data t v

/-- Write an extent in device memory, line by line. -/
def writeLines (s : State) (a n v : Nat) : State :=
  (List.range ((n + 63) / 64)).foldl (fun s i =>
    agentWrite s (a + 64 * i) (min 64 (n - 64 * i)) (bits v (512 * i) 512) (policyAt s a)) s

/-- End an action with a write of bytes: at once in device memory, with the last completion on the host window. -/
def actWrite (s : State) (r : NodeRef) (a n v status result : Nat) : State :=
  if isHost a then
    actRequests (s.mapNode r (fun x => { x with status := status, result := result })) r .write a n v
  else acted (writeLines s a n v) r status result

/-- A number as bytes, least significant first. -/
def toBytes (n v : Nat) : List Byte := (List.range n).map (fun i => BitVec.ofNat 8 (v >>> (8 * i)))

/-- Bytes as a number. -/
def ofBytes (bs : List Byte) : Nat := bs.foldr (fun b acc => b.toNat + 256 * acc) 0

end Sys2Proof.Machine
end

