-- ==== Sys2Proof/Machine/Settings.lean ====
section
/-!
DEFINITION. Machine/Settings.lean: the settings store (R408 to R413), image slots and their checks (R402 to R404, R414 to
R417), attestation (R405 to R407), and the order of these operations (R413).
-/
namespace Sys2Proof.Machine

def State.mapStore (s : State) (f : Store → Store) : State := { s with store := f s.store }
def State.mapSp (s : State) (f : Sp → Sp) : State := { s with sp := f s.sp }

/-! ### Images (R402, R403, R408) -/

/-- The image in slot A (0) or B (1) of a KIND. -/
def State.image (s : State) (kind b : Nat) : List Byte := SMap.get s.store.slots (2 * kind + b) []
def State.activeSlot (s : State) (kind : Nat) : Nat := SMap.get s.store.active kind 0

/-- Bytes of a slot of a KIND (R408). -/
def slotBytes (kind : Nat) : Nat := 4096 * (if kind = 2 then 12 else if kind = 3 then 4 else 3)

/-- A field of an image's header. -/
def imgLE (img : List Byte) (off n : Nat) : Nat := ofBytes ((img.drop off).take n)
def imgKeySlot (img : List Byte) : Nat := imgLE img 5 1
def imgSvn (img : List Byte) : Nat := imgLE img 6 1 % 64
def imgLength (img : List Byte) : Nat := imgLE img 16 4

/-- Is the header's format correct for a KIND? -/
def imgFormat (kind : Nat) (img : List Byte) : Bool :=
  decide (2048 ≤ img.length) && decide (imgLE img 0 4 = 0x55363430) && decide (imgLE img 4 1 = kind) &&
    decide (imgKeySlot img < 4) && decide (imgLE img 6 1 < 64) && decide (imgLE img 7 1 = 0) && decide (imgLE img 20 12 = 0) &&
    decide (imgLE img 233 23 = 0)

/-- The reason of R415 for an image of a KIND; 0 is valid under R403. -/
def imageReason (s : State) (kind : Nat) (img : List Byte) : Nat :=
  let k := imgKeySlot img
  let signed := img.take 256
  let ec := (img.drop 80).take 97
  let lms := (img.drop 177).take 56
  if !(imgFormat kind img) then 1
  else if slotBytes kind < 2048 + imgLength img then 6
  else if img.length < 2048 + imgLength img then 1
  else if (Config.sha384 ((img.drop 2048).take (imgLength img))).toNat ≠ imgLE img 32 48 then 1 + Config.digestReason % 6
  else if Config.sha384 ec ≠ Config.fusedHash k false ∨ Config.sha384 lms ≠ Config.fusedHash k true ∨
      Nat.testBit s.store.revoked k = true then 5
  else if Config.ecdsaOk ec signed ((img.drop 256).take 96) = false then 2
  else if Config.lmsOk lms signed ((img.drop 352).take 1696) = false then 3
  else if imgSvn img < SMap.get s.store.svn kind 0 then 4
  else 0

/-- Does a slot of a KIND hold a valid image? -/
def slotValid (s : State) (kind b : Nat) : Bool := decide (imageReason s kind (s.image kind b) = 0)

/-- SP_IMAGE_STATUS and the revocation fuses as SP_ATTEST_STATUS shows them. -/
def showImages (s : State) : State :=
  let s := [1, 2, 3, 4].foldl (fun s k =>
    let a := s.activeSlot k
    let s := (s.rput (Fld.SP_IMAGE_STATUS_ACTIVE (k - 1)) a).rput (Fld.SP_IMAGE_STATUS_A_VALID (k - 1)) (b2n (slotValid s k 0))
    let s := (s.rput (Fld.SP_IMAGE_STATUS_B_VALID (k - 1)) (b2n (slotValid s k 1))).rput (Fld.SP_IMAGE_STATUS_SVN (k - 1))
      (imgSvn (s.image k a))
    s.rput (Fld.SP_IMAGE_STATUS_FUSED_SVN (k - 1)) (SMap.get s.store.svn k 0)) s
  s.rput Fld.SP_ATTEST_STATUS_REVOKED s.store.revoked

/-- Write an image into the inactive slot of a KIND and verify it: the reason. One that fails leaves the slot invalid
(R414, R415). -/
def stageImage (s : State) (kind : Nat) (img : List Byte) : State × Nat :=
  if kind = 0 ∨ 4 < kind then (s, 1)
  else
    let b := 1 - s.activeSlot kind
    let why := if slotBytes kind < img.length then 6 else imageReason s kind img
    let s := s.mapStore (fun t => { t with
      slots := if why = 0 then SMap.put t.slots (2 * kind + b) img else SMap.del t.slots (2 * kind + b) })
    (showImages s, why)

/-- The node status of a reason (R415). -/
def reasonStatus (why : Nat) : Nat := if why = 0 then stOk else if why ≤ 6 then stInvalidArgument else stInvalidState

/-! ### Commits (R409 to R412) -/

/-- A retired entry as numbers. -/
def Retired.flat : Retired → List Nat
  | .granule g => [0, g]
  | .way sl st w => [1, sl, st, w]

/-- A bank as numbers, for its digest. -/
def Bank.flat (b : Bank) : List Nat :=
  b.seq :: (b.regs.flatMap (fun e => [e.1, e.2.toNat]) ++ b.retired.flatMap Retired.flat)

/-- A snapshot of every item of R409. -/
def snapshot (s : State) : Bank :=
  { seq := ((bankInForce s).map (fun b => b.2.seq)).getD 0 + 1
    regs := persistentRegs.foldl (fun m r =>
      SMap.store m r.offset (BitVec.ofNat 64 (r.map.rst &&& keptBits r.map)) (BitVec.ofNat 64 (r.kept s))) []
    retired := s.retired }

/-- A commit begins: into the bank not used last, which is no valid bank until the digest is written (R411). A worn store
refuses it (R412). -/
def startCommit (s : State) (node : Option NodeRef) : State :=
  if 100000 ≤ s.store.commits then
    match node with
    | some r => acted s r stInvalidState 0
    | none => s
  else
    let b := snapshot s
    let s := s.mapStore (fun t => { t with banks := SMap.del t.banks (1 - t.last) })
    (s.mapSp (fun p => { p with job := some (b, node) })).rput Fld.ST_STATUS_BUSY 1

/-- The committed values go back into the persistent registers, each under its own rules (R410). -/
def revert (s : State) : State := persistentRegs.foldl (fun t r => (regPut t r true (committed s r)).1) s

/-- The bank reads back valid (R411). -/
def commitDone (s : State) : State :=
  match s.sp.job with
  | none => s
  | some (b, node) =>
    let k := 1 - s.store.last
    let s := s.mapStore (fun t => { t with banks := SMap.put t.banks k b, last := k, commits := t.commits + 1 })
    let s := (s.mapSp (fun p => { p with job := none })).rput Fld.ST_STATUS_BUSY 0
    let s := (s.rput Fld.ST_STATUS_BANK k).rput Fld.ST_STATUS_COMMITS s.store.commits
    let s := if 100000 ≤ s.store.commits then s.rput Fld.ST_STATUS_WORN 1 else s
    let s := s.rput Fld.HM_RETIRE_STATUS_UNCOMMITTED (b2n (decide (s.retired ≠ b.retired)))
    match node with
    | none => s
    | some r =>
      match s.node r with
      | some n => if n.stage = .running ∧ n.aborting = false then acted s r stOk s.store.commits else s
      | none => s

/-! ### One at a time (R413) -/

/-- Is a node one of those that R413 orders? -/
def Node.ordered (n : Node) : Bool := decide (n.typ = ntSettings) || decide (n.typ = ntFw)

/-- A SWITCH whose node has not completed. -/
def switchOpen (s : State) : Option Switching :=
  s.sp.switching.filter (fun w => match s.node w.node with
    | some n => !n.isDone && decide (n.fin = 0)
    | none => false)

/-- Is no such operation under way? -/
def storeFree (s : State) : Bool :=
  s.sp.job.isNone && (switchOpen s).isNone &&
    !((s.queue 0).buffers.any (fun b => b.nodes.any (fun n => n.ordered && decide (n.stage = .running))))

/-- Does a node that became ready by a time wait? -/
def orderedReady (s : State) (t : Nat) : Bool :=
  (readyNodes s 0).any (fun r => match s.node r with
    | some n => n.ordered && decide (n.readyAt.getD s.now ≤ t)
    | none => false)

def runJob (s : State) (j : StoreJob) : State :=
  match j with
  | .store => startCommit s none
  | .revert => revert s
  | .image kind bytes => (stageImage s kind bytes).1

/-- Run the chain's operations whose turn has come. -/
def drainJobs (s : State) : Nat → State
  | 0 => s
  | n + 1 =>
    match s.sp.jobs with
    | [] => s
    | (t, j) :: rest =>
      if storeFree s && !(orderedReady s t) then drainJobs (runJob (s.mapSp (fun p => { p with jobs := rest })) j) n else s

def State.drain (s : State) : State := drainJobs s s.sp.jobs.length

/-- An operation from the chain or a register write takes its place in the order. -/
def queueJob (s : State) (j : StoreJob) : State := (s.mapSp (fun p => { p with jobs := p.jobs ++ [(s.now, j)] })).drain

/-- May a node start now? A SETTINGS or FW_UPDATE node waits for the operations before it. -/
def mayStart (s : State) (r : NodeRef) : Bool :=
  match s.node r with
  | some n => !n.ordered || (storeFree s && s.sp.jobs.all (fun j => decide (n.readyAt.getD s.now ≤ j.1)))
  | none => false

/-- A write of a register, ST_CTRL among them (R410). -/
def regWrite (s : State) (r : RegName) (kernel : Bool) (v : Nat) : State × Nat :=
  let t := regPut s r kernel v
  if r.unit = 12 ∧ r.index = 1 ∧ t.2 = stOk then
    (match bits v 0 2 with
     | 1 => queueJob t.1 .store
     | 2 => queueJob t.1 .revert
     | _ => t.1, stOk)
  else t

/-- A write by offset (R10, R13). -/
def writeAt (s : State) (off : Nat) (kernel : Bool) (v : Nat) : State :=
  match regNamed off with
  | none => { s with status := stInvalidArgument }
  | some r =>
    let t := regWrite s r kernel v
    { t.1 with status := t.2 }

/-! ### FW_UPDATE (R414 to R417) -/

def fwKind (n : Node) : Nat := bits (n.word 8) 4 3
def fwBad (n : Node) : Bool := decide (fwKind n = 0) || decide (4 < fwKind n)
def fwEnd (s : State) (r : NodeRef) (why : Nat) : State := (acted s r (reasonStatus why) why).drain

/-- The inactive slot of a KIND holds no image: a STAGE that fails leaves it so (R415). -/
def dropImage (s : State) (kind : Nat) : State :=
  showImages (s.mapStore (fun t => { t with slots := SMap.del t.slots (2 * kind + (1 - s.activeSlot kind)) }))

/-- STAGE: the image comes from the node's address, and is written and verified in one step. -/
def doStage (r : NodeRef) (s : State) : State :=
  match actOp s r ntFw 1 with
  | none => s
  | some n =>
    let len := bits (n.word 10) 0 32
    if fwBad n then fwEnd s r 1
    else if slotBytes (fwKind n) < len then
      fwEnd (stageImage s (fwKind n) (List.replicate (slotBytes (fwKind n) + 1) 0)).1 r 6
    else
      match actRead (dropImage s (fwKind n)) r n (n.phys.getD 0 0) len with
      | .wait s => s
      | .failed s st => (acted s r st 0).drain
      | .data s v =>
        let t := stageImage s (fwKind n) (toBytes len v)
        fwEnd t.1 r t.2

/-- SWITCH: the inactive slot is verified again and becomes the active one, and the KIND's processor restarts (R414, R416). -/
def doSwitch (r : NodeRef) (s : State) : State :=
  match actOp s r ntFw 2 with
  | none => s
  | some n =>
    let k := fwKind n
    if fwBad n then fwEnd s r 1
    else
      let was := s.activeSlot k
      if !(slotValid s k (1 - was)) then fwEnd s r 8
      else
        let s := s.mapStore (fun t => { t with active := SMap.put t.active k (1 - was) })
        let s := s.mapSp (fun p => { p with
          switching := some { node := r, kind := k, was := was }, tree := if k = 1 then none else p.tree })
        let s := if k = 2 then { s.setRecovery 5 true with feSince := s.now, feFault := false } else s
        acted (showImages s) r stOk 0

/-- A new image has not reported ready within its pause: the other slot is active again (R417). -/
def doReadyTimeout (s : State) : State :=
  match switchOpen s with
  | none => s
  | some w =>
    let s := s.mapStore (fun t => { t with active := SMap.put t.active w.kind w.was })
    let s := (s.mapSp (fun p => { p with switching := none }))
    let s := if w.kind = 2 then
        feRecord s 0 Config.switchCause.toNat ((s.now - s.feSince) / 1000) (s.rget Fld.FE_PAIR_STATUS_MODE)
      else s
    (acted (showImages s) w.node stInvalidState 7).drain

/-- COMMIT_SVN: the fused SVN rises to the active image's (R404, R414). -/
def doCommitSvn (r : NodeRef) (s : State) : State :=
  match actOp s r ntFw 3 with
  | none => s
  | some n =>
    let k := fwKind n
    if fwBad n then fwEnd s r 1
    else
      let v := max (SMap.get s.store.svn k 0) (imgSvn (s.image k (s.activeSlot k)))
      fwEnd (showImages (s.mapStore (fun t => { t with svn := SMap.store t.svn k 0 v }))) r 0

/-- REVOKE: refused while an image in a slot uses the key slot (R414). -/
def doRevoke (r : NodeRef) (s : State) : State :=
  match actOp s r ntFw 4 with
  | none => s
  | some n =>
    let k := bits (n.word 8) 8 2
    if s.store.slots.any (fun e => decide (imgKeySlot e.2 = k)) then fwEnd s r 10
    else fwEnd (showImages (s.mapStore (fun t => { t with revoked := t.revoked ||| 2 ^ k }))) r 0

/-- The next leaf: of the current middle tree, or of the next unused one, which is then recorded (R407). -/
def nextLeaf (s : State) : Option (State × Nat × Nat) :=
  match s.sp.tree with
  | some (m, used) =>
    if used < 2 ^ 20 then some (s.mapSp (fun p => { p with tree := some (m, used + 1) }), m, used)
    else if s.store.middle < 32768 then
      let m := s.store.middle
      some (((s.mapSp (fun p => { p with tree := some (m, 1) })).mapStore (fun t => { t with middle := m + 1 })).rput
        Fld.SP_ATTEST_STATUS_MIDDLE (m + 1), m, 0)
    else none
  | none =>
    if s.store.middle < 32768 then
      let m := s.store.middle
      some (((s.mapSp (fun p => { p with tree := some (m, 1) })).mapStore (fun t => { t with middle := m + 1 })).rput
        Fld.SP_ATTEST_STATUS_MIDDLE (m + 1), m, 0)
    else none

/-- The signed body of a report (R406): bytes 0 to 511. -/
def reportBody (s : State) (n : Node) : List Byte :=
  let word := fun (f : Fld) => (s.regWord f 0 0).toNat
  let kind := fun (k : Nat) =>
    let img := s.image k (s.activeSlot k)
    toBytes 1 k ++ toBytes 1 (s.activeSlot k) ++ toBytes 1 (imgSvn img) ++ toBytes 1 (SMap.get s.store.svn k 0) ++
      toBytes 4 0 ++ toBytes 8 (imgLE img 8 8) ++ toBytes 48 (imgLE img 32 48)
  let bank := match bankInForce s with
    | some (_, b) => b.flat
    | none => []
  toBytes 8 1 ++ toBytes 8 (s.rget Fld.EL_SERIAL_SERIAL) ++ toBytes 2 (s.rget Fld.EL_DEVICE_ID_ID) ++
    toBytes 2 (s.rget Fld.EL_DEVICE_ID_INCARN) ++ toBytes 4 (word Fld.SP_BOOT_STATUS_STAGE) ++ toBytes 8 s.now ++
    toBytes 1 s.mtState ++ toBytes 1 (s.rget Fld.FE_PAIR_STATUS_MODE) ++ toBytes 46 0 ++
    (List.range 6).flatMap (fun i => toBytes 8 (n.word (10 + i))) ++ [1, 2, 3, 4].flatMap kind ++
    toBytes 48 (Config.bankDigest bank).toNat ++ toBytes 8 (word (Fld.SP_IMAGE_STATUS_ACTIVE 0)) ++ toBytes 72 0

/-- Bytes cut or padded with zeros to a length. -/
def padTo (n : Nat) (bs : List Byte) : List Byte := (bs ++ List.replicate n 0).take n

/-- ATTEST: the report, with the certificate chain behind it where asked (R406, R414). -/
def doAttest (r : NodeRef) (s : State) : State :=
  match actOp s r ntFw 5 with
  | none => s
  | some n =>
    if n.waiting ≠ 0 then s
    else
      match nextLeaf s with
      | none => fwEnd (s.rput Fld.SP_ATTEST_STATUS_EXHAUSTED 1) r 9
      | some (s, middle, leaf) =>
        let body := reportBody s n
        let report := body ++ padTo 96 (Config.ecdsaSign body) ++ padTo 7584 (Config.hssSign middle leaf body)
        let all := if bits (n.word 8) 7 1 = 1 then report ++ Config.certs.take 24576 else report
        (actWrite (s.rbump Fld.SP_ATTEST_STATUS_REPORTS) r (n.phys.getD 0 0) all.length (ofBytes all) stOk 0).drain

/-! ### SETTINGS -/

def doStoreSettings (r : NodeRef) (s : State) : State :=
  match actOp s r ntSettings 1 with
  | none => s
  | some _ => if s.sp.job.isSome then s else startCommit s (some r)

def doRevert (r : NodeRef) (s : State) : State :=
  match actOp s r ntSettings 2 with
  | none => s
  | some _ => (acted (revert s) r stOk 0).drain

/-! ### The rows -/

def execNodeComplete (r : NodeRef) (s : State) : Out State := .next (s.onClock (doNodeComplete r s).drain)
def execStage (r : NodeRef) (s : State) : Out State := .next (s.onClock (doStage r s))
def execSwitch (r : NodeRef) (s : State) : Out State := .next (s.onClock (doSwitch r s))
def execImageReadyTimeout (s : State) : Out State := .next (s.onClock (doReadyTimeout s))
def execCommitSvn (r : NodeRef) (s : State) : Out State := .next (s.onClock (doCommitSvn r s))
def execRevoke (r : NodeRef) (s : State) : Out State := .next (s.onClock (doRevoke r s))
def execAttest (r : NodeRef) (s : State) : Out State := .next (s.onClock (doAttest r s))
def execStoreSettings (r : NodeRef) (s : State) : Out State := .next (s.onClock (doStoreSettings r s))
def execRevert (r : NodeRef) (s : State) : Out State := .next (s.onClock (doRevert r s))
def execSettingsCommitDone (s : State) : Out State := .next (s.onClock (commitDone s).drain)
/-- REGISTER_WRITE: a write from a queue, kernel or user, by access code. -/
def execRegisterWrite (kernel : Bool) (off : BitVec 32) (v : Word) (s : State) : Out State :=
  .next (s.onClock (writeAt s off.toNat kernel v.toNat))

end Sys2Proof.Machine
end

