-- ==== Sys2Proof/Machine/Boot.lean ====
section
/-!
DEFINITION. Machine/Boot.lean: reset and its sources (R398, R444), the boot (R399 to R401), calibration (R418), failed
regulators (R443) and icing (R425 to R428).
-/
namespace Sys2Proof.Machine

/-- Are the main rails within range? -/
def railsUp (s : State) : Bool := s.flag Fld.MC_STATUS_RAILS_UP

/-! ### Reset (R398) -/

/-- A reset: every register at its Reset value, icing ended, memory lost. What stays is the store, the pin, and what is the
model's own: the queue of commands, the messages sent, and the counters that keep free values apart. A commit in progress is
lost with its bank. The device is held until its boot starts. -/
def doReset (rails : Bool) (s : State) : State :=
  let t : State := { State.reset with
    pending := s.pending, sent := s.sent, store := s.store, reads := s.reads, nextUid := s.nextUid
    domainResets := s.domainResets, boot := { s.boot with held := true, input := {}, fresh := [] } }
  t.rput Fld.MC_STATUS_RAILS_UP (b2n rails)

/-! ### Boot (R400, R401) -/

/-- The slot whose image of a KIND boots: the active one, or the other if that fails. -/
def bootSlot (s : State) (kind : Nat) : Option Nat :=
  let a := s.activeSlot kind
  if slotValid s kind a then some a else if slotValid s kind (1 - a) then some (1 - a) else none

/-- The boot stops in RECOVERY for image kinds that are missing. -/
def recovery (s : State) (kinds : Nat) : State :=
  (s.rput Fld.SP_BOOT_STATUS_STAGE 15).rput Fld.SP_BOOT_STATUS_RECOVERY_KINDS kinds

/-- Take the image slots of kinds that boot; the bits of those with no valid image. -/
def takeSlots (s : State) (kinds : List Nat) : State × Nat :=
  let missing := (kinds.filter (fun k => (bootSlot s k).isNone)).foldl (fun m k => m + 2 ^ (k - 1)) 0
  let s := kinds.foldl (fun s k =>
    match bootSlot s k with
    | some b => s.mapStore (fun t => { t with active := SMap.store t.active k 0 b })
    | none => s) s
  (showImages s, missing)

/-- Load the persistent registers from the bank in force (R409). -/
def loadPersistent (s : State) : State :=
  let s := persistentRegs.foldl (fun s r => r.setRaw s (r.raw s - r.kept s + committed s r)) s
  let p := fun (f : Fld) => s.rget f
  showCap { s with pw := { s.pw with
    cap := p Fld.PM_CAP_WATTS, fixed := decide (p Fld.PM_CLK_MODE_FIXED = 1), point := p Fld.PM_CLK_MODE_POINT
    lendPoint := p Fld.PM_LEND_POINT, thermal := 200 * p Fld.PM_CAP_WATTS } }

/-- The retired list as the bank holds it: granules that no range may take, ways that are disabled. -/
def loadRetired (s : State) : State :=
  let list := match bankInForce s with
    | some (_, b) => b.retired
    | none => []
  let s := { s with retired := list }.rput Fld.HM_RETIRE_STATUS_RETIRED list.length
  list.foldl (fun s e => match e with
    | .way slice set way =>
      let k := setKey slice set
      { s with l2Off := SMap.put s.l2Off k (SMap.get s.l2Off k 0 ||| 2 ^ way) }.rbump Fld.L2_ERRORS_DISABLED 1 slice
    | .granule _ => s) s

/-- Step 5: channels are trained and scrubbed; one that fails is OFFLINE. HM_CAPACITY is set. -/
def bootChannels (s : State) : State :=
  let i := s.boot.input
  let period := s.rget Fld.HM_RETRAIN_PERIOD_PERIOD
  let s := { s with channels := (List.range 128).map (fun c => (c, { due := s.now + (c % 16 + 1) * period / 16 })) }
  let s := i.failed.foldl (fun (s : State) (c : Fin 128) => s.setChan c chanOffline) s
  let s := if i.failed.isEmpty then s else s.rput Fld.SP_BOOT_STATUS_DEGRADED 1
  s.rput Fld.HM_CAPACITY_BYTES (min (i.capacity.toNat / 16384 * 16384) (2 ^ 39))

/-- Step 6: the carve-out at the top of memory, with its areas (R23, R454). -/
def bootCarveout (s : State) : State :=
  let base := s.rget Fld.HM_CAPACITY_BYTES - carveBytes
  let s := (s.rput Fld.FE_CARVEOUT_BASE_BASE base).rput Fld.FE_OBJ_TABLE_BASE_BASE (base + objTableOff)
  s.rput Fld.FE_ERRLOG_BASE_BASE (base + errLogOff)

/-- Step 7: the port trains, and the links of ST_LINK_ENABLE are enabled. -/
def bootPorts (s : State) : State :=
  let links := (List.range 48).filter (fun n => Nat.testBit (s.rget Fld.ST_LINK_ENABLE_LINKS) n)
  let s := links.foldl linkTrain (ucTrain s)
  { s with boot := { s.boot with fresh := links } }

/-- When each region's next calibration is due, spread over the period (R418). -/
def planCalibrations (s : State) : State :=
  let p := 1000000000 * s.rget Fld.PM_CAL_CTRL_PERIOD
  s.mapPw (fun w => { w with calDue := (List.range 4).map (fun r => (r, s.now + (r + 1) * p / 4)) })

/-- Steps 4 to 8. -/
def bootRest (s : State) : State :=
  let s := loadPersistent (s.rput Fld.PM_STATUS_POINT 0)
  let s := planCalibrations (bootChannels s)
  let s := bootPorts (bootCarveout (loadRetired s))
  let s := (s.rput Fld.SP_BOOT_STATUS_STAGE 8).rput Fld.SP_BOOT_STATUS_RECOVERY_KINDS 0
  (s.rput Fld.SP_BOOT_STATUS_BOOT_MS s.boot.input.ms.toNat).rput Fld.MC_STATUS_READY 1

/-- Steps 2 and 3: the security processor's image, then the others; a missing one stops the boot. -/
def bootImages (s : State) : State :=
  match takeSlots s [1] with
  | (s, 0) =>
    (match takeSlots s [2, 3, 4] with
     | (s, 0) => bootRest s
     | (s, m) => recovery s m)
  | (s, m) => recovery s m

/-- What the boot shows of fuses and the store. INCARN rises (R317). -/
def bootFuses (s : State) : State :=
  let n := (s.store.incarn + 1) % 2 ^ 16
  let s := s.mapStore (fun t => { t with incarn := n })
  let s := (s.rput Fld.EL_DEVICE_ID_INCARN n).rput Fld.EL_SERIAL_SERIAL s.store.serial.toNat
  let s := s.rput Fld.SP_ATTEST_STATUS_MIDDLE s.store.middle
  let s := (s.rput Fld.ST_STATUS_BANK (((bankInForce s).map (fun b => b.1)).getD 0)).rput Fld.ST_STATUS_COMMITS s.store.commits
  showImages (s.rput Fld.ST_STATUS_WORN (b2n (decide (100000 ≤ s.store.commits))))

/-- Reset is released: the strap is sampled and the boot runs (R399, R400). -/
def doBoot (i : BootInput) (s : State) : State :=
  let s := { s with boot := { s.boot with held := false, input := i } }
  let s := bootFuses (s.rput Fld.SP_BOOT_STATUS_STRAP i.strap.toNat)
  if i.strap = 0 then bootImages s else recovery s 15

/-- An image of a KIND has arrived over the chain in RECOVERY: the boot resumes once none is awaited (R401, R422). -/
def resumeBoot (s : State) (kind : Nat) (img : List Byte) : State :=
  match stageImage s kind img with
  | (s, 0) =>
    let s := showImages (s.mapStore (fun t => { t with active := SMap.store t.active kind 0 (1 - s.activeSlot kind) }))
    let k := s.rget Fld.SP_BOOT_STATUS_RECOVERY_KINDS
    let k := k - bits k (kind - 1) 1 * 2 ^ (kind - 1)
    if k = 0 then bootImages (s.rput Fld.SP_BOOT_STATUS_RECOVERY_KINDS 0) else s.rput Fld.SP_BOOT_STATUS_RECOVERY_KINDS k
  | (s, _) => s

/-- Release the reset unless the pin or the rails hold it. -/
def release (i : BootInput) (s : State) : State := if s.boot.pinLow || !(railsUp s) then s else doBoot i s

/-- Every rail has reached its range. -/
def doPowerOn (i : BootInput) (s : State) : State :=
  if railsUp s then s
  else
    let s := doReset true { s with boot := { s.boot with pinLow := i.pinLow, bypass := false } }
    release i s

/-- RESET_N has been low for a time. -/
def doResetN (ns : Nat) (s : State) : State :=
  if ns < 2000 ∨ s.boot.bypass = true then s else doReset (railsUp s) { s with boot := { s.boot with pinLow := true } }

def doResetRelease (i : BootInput) (s : State) : State :=
  if s.boot.pinLow then release i { s with boot := { s.boot with pinLow := false } } else s

/-- A main rail has been outside its range for a time (R444). -/
def doRailOut (ns : Nat) (s : State) : State := if ns ≤ 1000 then s else doReset false s

/-- VDD_IO falls (R444): everything is reset and the chain stage is in bypass. -/
def doIoLoss (s : State) : State := doReset false { s with boot := { s.boot with bypass := true } }

/-! ### Links' first training (R401) and their departure from UP (R335) -/

def doLinkTrained (n lanes : Nat) (d : Discovery) (s : State) : State :=
  let st := s.lkState n
  if st ≠ lkTraining ∧ st ≠ lkRetraining then s
  else
    let s := doLinkTraining n lanes d s
    let failed := decide (s.lkState n = lkFailed)
    let s := if failed && s.boot.fresh.contains n then s.rput Fld.SP_BOOT_STATUS_DEGRADED 1 else s
    let s := { s with boot := { s.boot with fresh := s.boot.fresh.filter (fun m => m != n) } }
    if failed then resendLink s n else s

/-! ### Calibration (R418) and regulators (R443) -/

/-- A region's periodic calibration comes due. -/
def doCalDue (r : Nat) (s : State) : State :=
  let due := SMap.get s.pw.calDue r s.now
  let s := s.pass (due - s.now)
  let s := s.mapPw (fun p => { p with calDue := SMap.put p.calDue r (due + 1000000000 * s.rget Fld.PM_CAL_CTRL_PERIOD) })
  calStart s (2 ^ r)

/-- A region's calibration ends: items outside their limits are counted; such a sensor is invalid, such a detector disabled. -/
def doCalDone (r monitors : Nat) (sensors detectors : List Nat) (s : State) : State :=
  let busy := s.rget Fld.PM_CAL_STATUS_BUSY
  if bits busy r 1 = 0 then s
  else
    let sensors := (sensors.filter (fun i => decide (i / 16 = r))).eraseDups
    let detectors := (detectors.filter (fun i => decide (i / 24 = r))).eraseDups
    let s := (s.rput Fld.PM_CAL_STATUS_BUSY (busy - 2 ^ r)).rbump Fld.PM_CAL_STATUS_RUNS
    let s := s.rbump Fld.PM_CAL_STATUS_OUT_OF_TRIM (monitors + sensors.length + detectors.length)
    let s := sensors.foldl (fun s i =>
      if s.pw.bad.contains i then s
      else thermalRecord ((s.rput Fld.TH_SENSOR_VALID 0 0 i).mapPw (fun p => { p with bad := p.bad ++ [i] })) i
        (s.rget Fld.TH_SENSOR_TEMP 0 i) 1) s
    s.mapPw (fun p => { p with detOff := (p.detOff ++ detectors).eraseDups })

/-- A regulator fails three commands or reports a fault: its region is held to the points that its voltage covers, at most
`covers` (R443). -/
def doAvsFail (r requested sensed : Nat) (fault : Bool) (covers : Nat) (s : State) : State :=
  let s := s.logErr {
    kind := 0x12, cls := 7, unit := 8, place := r, object := r, valueA := requested, valueB := sensed, detail := if fault then 2 else 1 }
  s.mapPw (fun p => { p with railPoint := SMap.put p.railPoint r covers })

/-! ### Icing (R425, R426) -/

/-- Is no request outstanding anywhere? -/
def drained (s : State) : Bool :=
  s.cores.all (fun e => e.2.ops.isEmpty && e.2.trays.all (fun t => t.2.pend.isEmpty) && e.2.veq.isEmpty) &&
    s.movers.all (fun e => e.2.job.isNone && e.2.queue.isEmpty && e.2.fe.isEmpty) &&
    s.lines.all (fun e => e.2.txn.isNone && e.2.queue.isEmpty && e.2.reloadAt.isNone) &&
    s.uc.waiting.isEmpty && s.uc.out.isEmpty && s.uc.held.isEmpty && s.submits.isEmpty &&
    s.el.out.isEmpty && s.el.waiting.isEmpty && s.el.links.all (fun e => e.2.sent.isEmpty)

/-- May the device be iced: RESET_N not held, the main rails up? -/
def freezable (s : State) : Bool := railsUp s && !s.boot.pinLow

/-- A cause of icing: 1 FREEZE_N, 2 the chain or the TAP. The clocks stop 2,000 ns after recognition; a further cause only
sets its bit. -/
def doFreeze (cause : Nat) (s : State) : State :=
  let c := s.rget Fld.MC_FREEZE_STATUS_CAUSE ||| cause
  if s.flag Fld.MC_FREEZE_STATUS_FROZEN then s.rput Fld.MC_FREEZE_STATUS_CAUSE c
  else
    let s := (s.rput Fld.MC_FREEZE_TIME_COUNT s.now).rput Fld.MC_FREEZE_STATUS_DRAINED (b2n (drained s))
    ((s.pass 2000).rput Fld.MC_FREEZE_STATUS_CAUSE c).rput Fld.MC_FREEZE_STATUS_FROZEN 1

/-- FREEZE_N has been low for a time. -/
def doFreezeN (ns : Nat) (s : State) : State :=
  if ns < 2000 then s.rbump Fld.MC_FREEZE_STATUS_GLITCH else if freezable s then doFreeze 1 s else s

def execPowerOnReset (i : BootInput) (s : State) : Out State := .next (s.beside (doPowerOn i s))
def execResetN (ns : Nat) (s : State) : Out State := .next (s.beside (doResetN ns s))
def execResetNRelease (i : BootInput) (s : State) : Out State := .next (s.beside (doResetRelease i s))
def execRailOutOfRange (ns : Nat) (s : State) : Out State := .next (s.beside (doRailOut ns s))
def execVddIoLoss (s : State) : Out State := .next (s.beside (doIoLoss s))
def execFreezeN (ns : Nat) (s : State) : Out State := .next (s.beside (doFreezeN ns s))
def execLinkTrainingDone (link : Fin 48) (lanes : BitVec 2) (d : Discovery) (s : State) : Out State :=
  .next (s.onClock (doLinkTrained link lanes.toNat d s))
def execCalibrationDue (region : Fin 4) (s : State) : Out State := .next (s.onClock (doCalDue region s))
def execCalibrationDone (region : Fin 4) (monitors : Nat) (sensors : List (Fin 64)) (detectors : List (Fin 96)) (s : State) :
    Out State :=
  .next (s.onClock (doCalDone region monitors (sensors.map Fin.val) (detectors.map Fin.val) s))
def execAvsCommandFail (region : Fin 4) (requested sensed : BitVec 12) (fault : Bool) (covers : Fin 71) (s : State) : Out State :=
  .next (s.onClock (doAvsFail region requested.toNat sensed.toNat fault covers s))

end Sys2Proof.Machine
end

