-- ==== Sys2Proof/Machine/Chain.lean ====
section
/-!
DEFINITION. Machine/Chain.lean: the management chain (R419 to R424), readout (R430 to R432) and the TAP (R433). These run
from the I/O rail alone, whatever the device's clocks do.
-/
namespace Sys2Proof.Machine

/-! ### Frames (R420, R421) -/

/-- CRC-8 with polynomial 0x07 and initial value 0, over bits in the order in which they are sent. -/
def crc8 (bs : List Bool) : Nat :=
  bs.foldl (fun c b =>
    let top := (bits c 7 1 + b2n b) % 2
    ((c * 2) % 256) ^^^ (if top = 1 then 0x07 else 0)) 0

/-- The bits of a field, least significant first. -/
def fieldBits (n v : Nat) : List Bool := (List.range n).map (fun i => Nat.testBit v i)

def hcrcOf (f : Frame) : BitVec 8 :=
  BitVec.ofNat 8 (crc8 (fieldBits 8 f.addr.toNat ++ fieldBits 4 f.cmd.toNat ++ fieldBits 32 f.arg.toNat))
def dcrcOf (f : Frame) : BitVec 8 := BitVec.ofNat 8 (crc8 (fieldBits 64 f.data.toNat))

/-- DATA driven by this stage. -/
def driveData (f : Frame) (v : Nat) : Frame :=
  let f := { f with data := BitVec.ofNat 64 v }
  { f with dcrc := dcrcOf f }

/-- What a stage does of a frame that is addressed to it: the state, the frame it passes on, and whether it accepts. -/
structure Handled where
  s : State
  f : Frame
  ok : Bool := true

/-- A frame arrives with a command code. One whose HCRC fails, whose command is reserved, or that is not addressed passes
unchanged; a broadcast is for those commands that allow it. With the state, whether this device takes the command. -/
def takeFrame (cmd : Nat) (broadcast addressed : Bool) (act : Frame → State → Handled) (f : Frame) (s : State) : State × Bool :=
  let f := { f with cmd := BitVec.ofNat 4 cmd }
  if s.boot.bypass then (s.emit (.chain f), false)
  else if f.hcrc ≠ hcrcOf f then ((s.rbump Fld.MC_STATS_HCRC_ERR).emit (.chain f), false)
  else if 10 ≤ cmd then ((s.rbump Fld.MC_STATS_RESERVED_CMD).emit (.chain f), false)
  else
    let all := decide (f.addr = 255)
    let mine := decide (f.addr ≠ 0) && decide (f.addr.toNat = s.rget Fld.MC_STATUS_ADDR)
    if !(all || mine) then (s.emit (.chain f), false)
    else
      let s := s.rbump Fld.MC_STATS_FRAMES
      let h := if (all && broadcast) || (!all && addressed) then act f s else { s := s, f := f, ok := false }
      (h.s.emit (.chain { h.f with ack := if all then h.f.ack && h.ok else h.ok }), h.ok)

def onFrame (cmd : Nat) (broadcast addressed : Bool) (act : Frame → State → Handled) (f : Frame) (s : State) : State :=
  (takeFrame cmd broadcast addressed act f s).1

/-- May a frame reach the registers outside the chain stage: rails up, not iced (R422, R432)? -/
def reaches (s : State) (r : RegName) : Bool := decide (r.unit = 10) || (railsUp s && !(s.flag Fld.MC_FREEZE_STATUS_FROZEN))

def State.mapChain (s : State) (f : Chain → Chain) : State := { s with chain := f s.chain }

/-! ### Readout (R431, R432) -/

/-- What the code says of a word of a segment that is read. -/
def noteScan (s : State) (e : Ecc) : State :=
  match e with
  | .clean => s
  | .corrected => s.rbump Fld.MC_SCAN_STATUS_CORRECTED
  | .uncorrectable =>
    let s := if s.rget Fld.MC_SCAN_STATUS_UNCORRECTABLE = 0 then
        s.rput Fld.MC_SCAN_STATUS_FIRST_BAD (s.rget Fld.MC_SCAN_SEL_OFFSET)
      else s
    s.rbump Fld.MC_SCAN_STATUS_UNCORRECTABLE

/-- Has the other port read a segment within the last millisecond? `recent` says that the millisecond has not passed. -/
def scanBusy (s : State) (tap recent : Bool) : Bool := recent && decide (s.chain.reader = some (!tap))

def isScanData (r : RegName) : Bool := decide (r.unit = 10) && decide (r.index = 5)
def isScanSel (r : RegName) : Bool := decide (r.unit = 10) && decide (r.index = 4)

/-! ### The commands -/

def doNop (f : Frame) (s : State) : State :=
  onFrame (if 10 ≤ f.cmd.toNat then f.cmd.toNat else 0) true true (fun f s => { s := s, f := f }) f s

/-- ENUMERATE (R423). -/
def doEnumerate (f : Frame) (s : State) : State :=
  onFrame 1 true false (fun f s =>
    let n := bits f.arg.toNat 0 8
    if n = 255 then { s := (s.rput Fld.MC_STATUS_ADDR 0).rput Fld.MC_STATUS_OVERFLOW 1, f := f }
    else if n = 0 then { s := s, f := f }
    else
      let g := { f with arg := f.arg + 1 }
      { s := s.rput Fld.MC_STATUS_ADDR n, f := { g with hcrc := hcrcOf g } }) f s

/-- READ: the value of the previous READ, and the start of this one. -/
def doChainRead (ecc : Ecc) (f : Frame) (s : State) : State :=
  onFrame 2 false true (fun f s =>
    let g := match s.chain.prev with
      | some v => driveData f v.toNat
      | none => { f with err := true }
    match regNamed f.arg.toNat with
    | none => { s := s.mapChain (fun c => { c with prev := none }), f := { g with err := true } }
    | some r =>
      if reaches s r then
        let s := if isScanData r && s.flag Fld.MC_FREEZE_STATUS_FROZEN then
            (noteScan s ecc).mapChain (fun c => { c with reader := some false })
          else s
        let t := regRead s r
        { s := t.1.mapChain (fun c => { c with prev := some (BitVec.ofNat 64 t.2) }), f := g }
      else { s := s.mapChain (fun c => { c with prev := none }), f := { g with err := true } }) f s

/-- WRITE. One that is out of range, unreachable, or refused by the scan controller sets ERR. -/
def doChainWrite (recent : Bool) (f : Frame) (s : State) : State :=
  onFrame 3 true true (fun f s =>
    if f.dcrc ≠ dcrcOf f then { s := s.rbump Fld.MC_STATS_DCRC_ERR, f := f, ok := false }
    else
      let fail : Handled := { s := s, f := { f with err := true } }
      match regNamed f.arg.toNat with
      | none => fail
      | some r =>
        if !(reaches s r) || (s.boot.held && decide (r.unit ≠ 10)) || (isScanSel r && scanBusy s false recent) then fail
        else
          let t := regWrite s r true f.data.toNat
          if t.2 = stOk then { s := t.1, f := f } else fail) f s

/-- STATUS. -/
def doChainStatus (f : Frame) (s : State) : State :=
  onFrame 4 false true (fun f s =>
    match regNamed (regOffset 10 0 0) with
    | some r => { s := s, f := driveData f (r.shown (regShow s r)) }
    | none => { s := s, f := f }) f s

def doChainFreeze (f : Frame) (s : State) : State :=
  onFrame 5 true true (fun f s =>
    if freezable s then { s := doFreeze 2 s, f := f } else { s := s, f := f, ok := false }) f s

/-- RESET acts at the end of its frame. -/
def doChainReset (i : BootInput) (f : Frame) (s : State) : State :=
  let t := takeFrame 6 true true (fun f s => { s := s, f := f }) f s
  if t.2 then release i (doReset (railsUp s) t.1) else t.1

/-- A node that PARK ends. -/
def parkNode (s : State) (r : NodeRef) : State :=
  match s.node r with
  | none => s
  | some n =>
    let s := if n.launch = 0 then dropGranules s r else closeLaunch (discardLaunch (dropDescs s n.launch) n.launch) r
    completeOne s r stAborted

/-- PARK (R422): a running commit ends, every node completes ABORTED, links and port go to DISABLING. -/
def park (s : State) : State :=
  let s := commitDone s
  let s := s.el.ops.foldl (fun s e => opDone s e.1 e.2 stAborted) s
  let s := s.queues.foldl (fun s e =>
    let open' := nodesWhere s e.1 (fun n => decide (n.stage = .waiting) || decide (n.stage = .running) ||
      (decide (n.stage = .acted) && decide (n.fin = 0)))
    (open'.foldl parkNode s).mapQueue e.1 (fun q => { q with aborts := [] })) s
  let s := (List.range 48).foldl (fun s n => linkCommand s n 1) s
  let st := s.ucState
  let s := if st = 1 ∨ st = 2 ∨ st = 3 then ucLost s 4 else s
  s.rput Fld.MC_STATUS_PARKED 1

def doPark (f : Frame) (s : State) : State :=
  onFrame 7 true true (fun f s =>
    if !(railsUp s) || s.boot.held || s.flag Fld.MC_FREEZE_STATUS_FROZEN then { s := s, f := { f with err := true } }
    else { s := park s, f := f }) f s

/-- Can the security processor take part in an image's transfer? -/
def spRuns (s : State) : Bool := railsUp s && !s.boot.held && !(s.flag Fld.MC_FREEZE_STATUS_FROZEN)

/-- IMAGE: eight bytes of the recovery buffer of 64 KiB. -/
def doImage (f : Frame) (s : State) : State :=
  onFrame 8 false true (fun f s =>
    if f.dcrc ≠ dcrcOf f then { s := s.rbump Fld.MC_STATS_DCRC_ERR, f := f, ok := false }
    else if 8192 ≤ f.arg.toNat ∨ spRuns s = false then { s := s, f := { f with err := true } }
    else { s := s.mapChain (fun c => { c with buf := SMap.put c.buf f.arg.toNat f.data }), f := f }) f s

/-- The image in the buffer: its header and the body that the header's LENGTH gives. -/
def bufferImage (s : State) : List Byte :=
  let all := (List.range 8192).flatMap (fun i => toBytes 8 (SMap.get s.chain.buf i 0).toNat)
  all.take (2048 + imgLength all)

/-- IMAGE_DONE: as STAGE does for the KIND; in recovery the boot resumes. -/
def doImageDone (f : Frame) (s : State) : State :=
  onFrame 9 false true (fun f s =>
    let kind := bits f.arg.toNat 0 3
    if spRuns s = false ∨ kind = 0 ∨ 4 < kind then { s := s, f := { f with err := true } }
    else if s.rget Fld.SP_BOOT_STATUS_STAGE = 15 then { s := resumeBoot s kind (bufferImage s), f := f }
    else { s := queueJob s (.image kind (bufferImage s)), f := f }) f s

/-! ### The TAP (R433) -/

def tapBypass : Nat := 0xFF
def tapSelect (s : State) (ir : Nat) : State := s.mapChain (fun c => { c with ir := ir })

/-- A frozen-only instruction; used while not frozen it selects BYPASS. -/
def frozenOnly (ir : Nat) (act : State → State) (s : State) : State :=
  if s.flag Fld.MC_FREEZE_STATUS_FROZEN then act (tapSelect s ir) else tapSelect s tapBypass

def doExtest (s : State) : State := frozenOnly 0x00 (fun s => s) s
def doIdcode (s : State) : State := (tapSelect s 0x01).emit (.tap 0x64000A6B)
def doSample (s : State) : State := tapSelect s 0x02
def doTapFreeze (s : State) : State :=
  let s := tapSelect s 0x10
  if freezable s then doFreeze 2 s else s

/-- SCAN_SEL: the 64-bit data register goes to MC_SCAN_SEL, unless the chain holds the controller. -/
def doScanSel (v : Nat) (recent : Bool) (s : State) : State :=
  frozenOnly 0x11 (fun s =>
    if scanBusy s true recent then s.rput Fld.MC_SCAN_STATUS_BUSY 1
    else
      let s := s.rput Fld.MC_SCAN_STATUS_BUSY 0
      if 9 < bits v 0 4 then s
      else ((s.rput Fld.MC_SCAN_SEL_SEG (bits v 0 4)).rput Fld.MC_SCAN_SEL_UNIT (bits v 4 8)).rput Fld.MC_SCAN_SEL_OFFSET
        (bits v 16 31)) s

/-- SCAN_DATA: the selected word, and the next OFFSET. -/
def doScanData (ecc : Ecc) (s : State) : State :=
  frozenOnly 0x12 (fun s =>
    let w := scanData s
    let s := (noteScan s ecc).mapChain (fun c => { c with reader := some true })
    (s.rput Fld.MC_SCAN_SEL_OFFSET (s.rget Fld.MC_SCAN_SEL_OFFSET + 1)).emit (.tap w)) s

def doBypass (s : State) : State := tapSelect s tapBypass

/-- The TAP runs from the I/O rail too. -/
def onIo (f : State → State) (s : State) : State := if s.boot.bypass then s else f s

def execNop (f : Frame) (s : State) : Out State := .next (s.beside (doNop f s))
def execEnumerate (f : Frame) (s : State) : Out State := .next (s.beside (doEnumerate f s))
def execChainRead (ecc : Ecc) (f : Frame) (s : State) : Out State := .next (s.beside (doChainRead ecc f s))
def execChainWrite (recent : Bool) (f : Frame) (s : State) : Out State := .next (s.beside (doChainWrite recent f s))
def execChainStatus (f : Frame) (s : State) : Out State := .next (s.beside (doChainStatus f s))
def execChainFreeze (f : Frame) (s : State) : Out State := .next (s.beside (doChainFreeze f s))
def execChainReset (i : BootInput) (f : Frame) (s : State) : Out State := .next (s.beside (doChainReset i f s))
def execPark (f : Frame) (s : State) : Out State := .next (s.beside (doPark f s))
def execImage (f : Frame) (s : State) : Out State := .next (s.beside (doImage f s))
def execImageDone (f : Frame) (s : State) : Out State := .next (s.beside (doImageDone f s))
def execExtest (s : State) : Out State := .next (s.beside (onIo doExtest s))
def execIdcode (s : State) : Out State := .next (s.beside (onIo doIdcode s))
def execSamplePreload (s : State) : Out State := .next (s.beside (onIo doSample s))
def execTapFreeze (s : State) : Out State := .next (s.beside (onIo doTapFreeze s))
def execScanSel (v : Word) (recent : Bool) (s : State) : Out State := .next (s.beside (onIo (doScanSel v.toNat recent) s))
def execScanData (ecc : Ecc) (s : State) : Out State := .next (s.beside (onIo (doScanData ecc) s))
def execBypass (s : State) : Out State := .next (s.beside (onIo doBypass s))

end Sys2Proof.Machine
end

