-- ==== Sys2Proof/Machine/Switch.lean ====
section
/-!
DEFINITION. Machine/Switch.lean: sheets saved at safe points (R75, R79, R95, R103, R174, R263, R286, R289, R290), as a forced
switch and a region shutdown do it, and which sheets and launches wait for cores.
-/
namespace Sys2Proof.Machine

/-! ### Watchdogs of saved launches (R286) -/

/-- The node of a launch. -/
def Launch.ref (L : Launch) : NodeRef := { queue := L.queue, seq := L.seq, node := L.node }

/-- What has passed of a timer, in place of the moment at which it started. -/
def Timer.stop (t : Timer) (clock : Nat) : Timer := { t with mark := clock - t.mark }

/-- The node's watchdog stands while sheets of it are saved away, and runs on with its remaining time after that. -/
def settleWatchdog (s : State) (serial : Nat) : State :=
  match s.launch serial with
  | none => s
  | some L =>
    let away := !L.saved.isEmpty
    s.mapNode L.ref (fun n =>
      if n.timerHeld = away then n
      else { n with timerHeld := away, timer := n.timer.map (fun t => t.stop (s.clockOf L.context)) })

/-! ### Safe points (R75, R174) -/

/-- Is the descriptor in service at a mover one that names a sheet's cell for the sheet's launch, or that the sheet's core
posted? -/
def inService (s : State) (core launch : Nat) : Bool :=
  s.movers.any (fun e => match e.2.job with
    | some (.desc d) => decide (d.launch = launch) && (d.cells.contains core || decide (d.core = core))
    | _ => false)

/-- A sheet can be saved: every tray of it stands at a safe point. -/
def sheetQuiet (s : State) (core : Nat) (h : Sheet) : Bool :=
  ((s.core core).trays.filter (fun e => e.2.sheet == h.uid)).all (fun e =>
    e.2.pend.isEmpty && (trayOps (s.core core) e.1).isEmpty && !((s.core core).veq.any (fun v => v.slot == e.1))) &&
    !(inService s core h.launch)

/-! ### Saving -/

/-- A tray as it is saved: timers with what has passed of them, no reservations. -/
def saveTray (clock : Nat) (t : Tray) : Tray :=
  { t with
    active := false, yieldHold := false, resv := [], disturbed := t.disturbed + 1
    paths := t.paths.map (fun p => { p with
      wait := p.wait.map (fun w => { w with timer := w.timer.map (fun x => x.stop clock), lend := w.lend.map (fun x => x.stop clock) }) }) }

/-- The cores on which a launch has sheets. -/
def coresOf (s : State) (serial : Nat) : List Nat :=
  (s.cores.filter (fun e => e.2.sheets.any (fun h => h.launch == serial))).map (fun (e : Nat × Core) => e.1)

/-- Keep a gang launch's block and device barriers before its slots are freed (R254). -/
def saveBars (s : State) (L : Launch) : State :=
  if L.gang && L.dbar.isSome then
    let blocks := ((coresOf s L.serial).map blockOf).eraseDups
    let hub := blocks.flatMap (fun b => (((hubSlots s b L.serial).zip (List.range 4)).map (fun e =>
      (4 * b + e.2, (s.rget Fld.BK_BAR_SLOT_COUNT b e.1, s.flag Fld.BK_BAR_SLOT_SENSE b e.1)))))
    let base := L.dbar.getD 0
    let dev := (List.range 4).map (fun i =>
      (96 + i, (s.rget Fld.FE_DBAR_SLOT_COUNT 0 (base + i), s.flag Fld.FE_DBAR_SLOT_SENSE 0 (base + i))))
    let s := s.mapLaunch L.serial (fun L => { L with bars := (hub ++ dev).foldl (fun m e => SMap.put m e.1 e.2) [] })
    freeGang s L
  else s

/-- Save a sheet: trays, scratchpad, OPEN sets, READY entries, its context's rows and tables, its launch's counters. -/
def saveSheet (s : State) (core : Nat) (h : Sheet) : State :=
  match s.launch h.launch with
  | none => s
  | some L =>
    let c := s.core core
    let mine := c.trays.filter (fun e => e.2.sheet == h.uid)
    let isMine := fun (slot : Nat) => mine.any (fun e => e.1 == slot)
    let a := sramAddr core h.base
    let v : SavedSheet := {
      sheet := { h with leaving := false }
      trays := mine.map (fun (e : Nat × Tray) => (e.1, saveTray (s.clockOf L.context) e.2))
      bytes := (s.mem.filter (fun e => decide (a ≤ e.1) && decide (e.1 < a + h.size))).map (fun (e : Nat × Byte) => (e.1 - a, e.2))
      poison := (s.poison.filter (fun e => decide (a / 32 ≤ e.1) && decide (e.1 < (a + h.size) / 32))).map
        (fun (e : Nat × Bool) => (e.1 - a / 32, e.2))
      sets := c.sets.filter (fun e => isMine e.2.owner && e.2.state == AccState.openTile)
      tq := c.tq.filter (fun e => e.2.sheet == h.uid && e.2.state == TqState.ready)
      rows := c.rows.filter (fun e => e.2.valid && e.2.tag == L.context)
      tables := c.tables.filter (fun e => e.2.valid && e.2.tag == L.context)
      counters := ((List.range 48).filter (fun i => Nat.testBit L.counterMask i)).map (fun i => (i, BitVec.ofNat 64 (s.counter core i)))
      block := blockOf core, core := core }
    let s := s.mapCore core (fun c => { c with
      sets := c.sets.filter (fun e => !(isMine e.2.owner && e.2.state == AccState.openTile))
      tq := c.tq.filter (fun e => !(e.2.sheet == h.uid && e.2.state == TqState.ready)) })
    let s := mine.foldl (fun s e => trayLeaves s core e.1) s
    let s := sheetLeaves s core h
    settleWatchdog (s.mapLaunch h.launch (fun L => { L with saved := L.saved ++ [v], waitSince := s.now })) h.launch

/-- Live bytes of a saved sheet (R290): scratchpad, registers, accumulators, and where asked the rows and tables. -/
def liveBytes (L : Launch) (v : SavedSheet) (shared : Bool) : Nat :=
  v.sheet.size + 128 * L.regs * v.trays.length + 16384 * (v.sets.length + v.tq.length) +
    (if shared then v.rows.foldl (fun n e => n + 9 * mxWidth e.2.fmt) 0 + 4160 * v.tables.length else 0)

/-- Live bytes of the saved sheets of a launch from an index on; what a core shares counts once. -/
def liveOf (L : Launch) (vs : List SavedSheet) : Nat :=
  (vs.foldl (fun (acc : Nat × List Nat) v => (acc.1 + liveBytes L v (!(acc.2.contains v.core)), v.core :: acc.2)) (0, [])).1

/-- Save a list of sheets, gangs' barriers first; the contexts' rows and counters of a core that they leave empty are cleared
in fabric mode (R95, R263). The live bytes saved. -/
def saveAll (s : State) (hs : List (Nat × Sheet)) : State × Nat :=
  let serials := (hs.map (fun e => e.2.launch)).eraseDups
  let s := serials.foldl (fun s n => match s.launch n with
    | some L => saveBars s L
    | none => s) s
  let had := serials.map (fun n => (n, ((s.launch n).map (fun L => L.saved.length)).getD 0))
  let s := hs.foldl (fun s e => saveSheet s e.1 e.2) s
  let live := had.foldl (fun n e => match s.launch e.1 with
    | some L => n + liveOf L (L.saved.drop e.2)
    | none => n) 0
  let gone := ((hs.map (fun e => e.1)).eraseDups).filter (fun c => (s.core c).sheets.isEmpty)
  let s := gone.foldl (fun s c =>
    let out := ((hs.find? (fun e => e.1 == c)).bind (fun e => s.launch e.2.launch)).map (fun L => L.context)
    match out with
    | some ctx => (if fabricMode s then clearCore s c ctx else s).mapCore c (fun c => { c with lastContext := none })
    | none => s) s
  (s, live)

/-- Mark sheets of a core for saving; a gang launch's go whole (R254, R289). -/
def markLeaving (s : State) (pick : Nat → Sheet → Bool) : State :=
  let gangs := s.launches.filter (fun e => e.2.gang && s.cores.any (fun c => c.2.sheets.any (fun h => h.launch == e.1 && pick c.1 h)))
  { s with cores := s.cores.map (fun (c : Nat × Core) => (c.1, { c.2 with sheets := c.2.sheets.map (fun h =>
    if pick c.1 h || gangs.any (fun e => e.1 == h.launch) then { h with leaving := true } else h) })) }

/-! ### Room (R39, R289) -/

/-- Places at which a sheet could start on a core: the bottom of its scratchpad and the ends of resident sheets. -/
def basesOn (s : State) (core : Nat) : List Nat := 0 :: ((s.core core).sheets.map (fun h => h.base + h.size))

/-- Sheets of a size that the gaps of a core's scratchpad hold. -/
def gapRoom (s : State) (L : Launch) (core : Nat) : Nat :=
  if L.scratch = 0 then 64
  else
    let hs := (s.core core).sheets.filter (fun h => decide (h.size ≠ 0))
    (basesOn s core).eraseDups.foldl (fun n b =>
      let next := hs.foldl (fun m h => if b ≤ h.base then min m h.base else m) ((1024 - L.l1) * 1024)
      let inside := hs.any (fun h => decide (h.base ≤ b) && decide (b < h.base + h.size))
      if inside then n else n + (next - b) / L.scratch) 0

/-- Sheets of a launch that a core could take now. -/
def coreRoom (s : State) (L : Launch) (core : Nat) : Nat :=
  if (basesOn s core).any (fun b => fitsCore s L core b) then
    let c := s.core core
    let used := c.trays.foldl (fun a e => a + ((s.launch e.2.launch).map (fun M => M.regs)).getD 0) 0
    let n := min ((64 - c.trays.length) / max 1 L.trays) (min ((2048 - used) / max 1 (L.trays * L.regs)) (gapRoom s L core))
    if L.aligned then min n 1 else n
  else 0

/-- Could a launch place sheets now: one of an ordinary launch, all of a gang launch, which also needs barrier slots (R254)? -/
def hasRoom (s : State) (L : Launch) : Bool :=
  let free := fun (core : Nat) => if L.gang && decide ((hubFree s (blockOf core)).length < 4) then 0 else coreRoom s L core
  let n := (List.range 192).foldl (fun n c => n + free c) 0
  let want := if L.gang then (if L.saved.isEmpty then L.sheets else L.saved.length) else 1
  decide (want ≤ n) && (!L.gang || (unitFree s).isSome) && (takeMailbox s L).isSome

end Sys2Proof.Machine
end

