-- ==== Sys2Proof/Machine/NodeOps.lean ====
section
/-!
DEFINITION. Machine/NodeOps.lean: the actions of the nodes any queue may hold (R276): launches (R279, R280), copies and fills
(R277, R396), events (R255, R304, R305), lock groups (R197 to R201), realign pairs (R262), registers and seeds.
-/
namespace Sys2Proof.Machine

/-! ### LAUNCH (R279, R280) -/

/-- The launch that a LAUNCH node describes (R279). -/
def mkLaunch (s : State) (r : NodeRef) (n : Node) : Launch :=
  let w9 := n.word 9
  let startAt := n.word 13
  { serial := if s.nextLaunch = 0 then 1 else s.nextLaunch, context := s.qContext r.queue, queue := r.queue, seq := r.seq, node := r.node
    codeBase := n.code.1, codeBytes := n.code.2, windows := n.windows, sheets := bits w9 0 32, trays := bits w9 32 6 + 1
    regs := 8 * (bits w9 38 4 + 1), l1 := 64 * bits w9 42 4, gang := Nat.testBit w9 46, aligned := Nat.testBit w9 47
    sugar := bits w9 55 8, scratch := 4096 * bits (n.word 10) 0 9, stream := bits (n.word 10) 32 24
    counterMask := bits (n.word 11) 0 48, waitTimeout := bits (n.word 12) 0 40, startAt := startAt, seed := (s.queue r.queue).seed
    started := s.now, waitSince := n.readyAt.getD s.now, late := n.late || (decide (startAt ≠ 0) && decide (startAt < n.readyAt.getD s.now)) }

/-- A ready LAUNCH that cannot be placed now: before its START_AT, or without room (R278, R280). -/
def noRoom (s : State) (r : NodeRef) : Bool :=
  match s.node r with
  | some n => decide (n.typ = ntLaunch) && (decide (s.now < n.word 13) || !(hasRoom s (mkLaunch s r n)))
  | none => true

/-- A ready node starts. -/
def startNode (r : NodeRef) (s : State) : State :=
  if mayStart s r && !(noRoom s r) then doNodeStart (noRoom s) r s else s

/-- A started LAUNCH takes its serial and its queue's SEED (R279). -/
def doLaunch (r : NodeRef) (s : State) : State :=
  match actNode s r ntLaunch with
  | none => s
  | some n =>
    let L := mkLaunch s r n
    let s := { s with launches := SMap.put s.launches L.serial L, nextLaunch := (L.serial + 1) % 2 ^ 32 }
    s.mapNode r (fun n => { n with launch := L.serial })

/-! ### COPY, FILL, CKPT_COPY (R277, R396) -/

/-- The granules of a copy: 4 KiB each, dealt round-robin over the movers from block 0. -/
def granulesOf (r : NodeRef) (src dst : Nat) (len : Nat) : List (Nat × Granule) :=
  (List.range ((len + 4095) / 4096)).map (fun i =>
    (i % 24, { queue := r.queue, seq := r.seq, node := r.node, src := src + 4096 * i, dst := dst + 4096 * i, bytes := min 4096 (len - 4096 * i) }))

/-- Deal a copy to the movers; the row may come again to hand over what did not fit. -/
def startCopy (s : State) (r : NodeRef) (n : Node) (len : Nat) : State :=
  if len = 0 then acted s r stOk 0
  else if n.deal.isEmpty && decide (n.moving = 0) then
    dealGranules (s.mapNode r (fun x => { x with deal := granulesOf r (n.phys.getD 0 0) (n.phys.getD 1 0) len })) r 48
  else dealGranules s r 48

def doCopy (r : NodeRef) (s : State) : State :=
  match actNode s r ntCopy with
  | none => s
  | some n => startCopy s r n (n.word 10)

/-- FILL: the 8 B pattern, repeated from the destination on. -/
def doFill (r : NodeRef) (s : State) : State :=
  match actNode s r ntFill with
  | none => s
  | some n =>
    let a := n.phys.getD 0 0
    let len := n.word 9
    if n.waiting ≠ 0 then s
    else if len = 0 then acted s r stOk 0
    else if isHost a then
      actRequests s r .write a len (joinWords (List.replicate (len / 8) (n.word 10)))
    else
      let row := joinWords (List.replicate 8 (n.word 10))
      acted ((List.range ((len + 63) / 64)).foldl (fun s i =>
        agentWrite s (a + 64 * i) (min 64 (len - 64 * i)) (bits row 0 (8 * min 64 (len - 64 * i))) (policyAt s a)) s) r stOk 0

/-- The bytes of an extent, as numbers of 4 KiB by offset, for the CRC of R396. -/
def crcExtent (s : State) (a len : Nat) : Nat :=
  (List.range (len / 4096)).foldl (fun c i => crcOf c (s.readLE (a + 4096 * i) 4096) 4096) 0

/-- CKPT_COPY: local, as a COPY; remote, as one PUT of the Esrel port in parts of 256 B (R396). -/
def doCkptCopy (r : NodeRef) (s : State) : State :=
  match actNode s r ntCkpt with
  | none => s
  | some n =>
    let w8 := n.word 8
    let len := bits (n.word 11) 0 48
    let src := n.phys.getD 0 0
    if bits w8 0 1 = 0 then startCopy s r n len
    else if n.moving ≠ 0 then s
    else
      let j := bits w8 4 6
      if jsState s j ≠ jsActive ∨ jsMember s j = false ∨ s.rget Fld.EL_JOBSET_CONTEXT 0 j ≠ s.qContext r.queue ∨ isHost src = true then
        acted s r stInvalidArgument 0
      else if len = 0 then acted s r stOk 0
      else if !(extentReady s src len) then s
      else
        let (s, _, clean) := agentRead s src len
        if !clean then acted s r stUncorrectable 0
        else
          let res := if n.wantsCrc then crcExtent s src len else len
          let s := s.mapNode r (fun x => { x with moving := 1, result := res })
          startOp s {
            core := 192, launch := 0, sheet := 0, tray := 0, slot := 0, op := opPut, evt := 0, size64 := false, jslot := j
            jobset := s.rget Fld.EL_JOBSET_JOBSET 0 j, epoch := s.rget Fld.EL_JOBSET_EPOCH 0 j, dst := bits w8 16 16, dwin := bits w8 10 6
            doff := n.word 10, len := len, loc := src, operand := 0, compare := 0, evwin := 0, evoff := 0, evalue := 0, sevt := 0
            started := s.now, node := some r }

/-! ### Events (R255, R304, R305, R453) -/

def doEventSignal (r : NodeRef) (s : State) : State :=
  match actNode s r ntSignal with
  | none => s
  | some n =>
    let a := n.phys.getD 0 0
    let v := n.word 9
    if isHost a then
      if n.waiting ≠ 0 then s
      else if hostReachable s then (s.mapNode r (fun x => { x with waiting := 1 })).hostReq (signalReq (.body r) a v)
      else acted (signalLost s r) r stOk 0
    else if s.extentPoisoned a 8 then acted s r stUncorrectable 0
    else
      match feSignal s a v (feWho s r.queue) with
      | (t, true) => acted (t.chargeNode s r) r stOk 0
      | (t, false) => acted (signalLost t r) r stOk 0

/-- EVENT_WAIT: the word is looked at; the node has acted once it is at least the target. A word on the host window is read
by request (R305). -/
def doEventWait (r : NodeRef) (s : State) : State :=
  match actNode s r ntWait with
  | none => s
  | some n =>
    let a := n.phys.getD 0 0
    if isHost a then (if n.waiting ≠ 0 then s else actRequests s r .read a 8 0)
    else if s.extentPoisoned a 8 then acted s r stUncorrectable 0
    else if n.word 9 ≤ s.readLE a 8 then acted s r stOk 0
    else s

/-! ### PRELOAD, UNLOCK (R197 to R201) -/

/-- Lines of a PRELOAD's extent, from its window, offset and length. -/
def preloadLines (n : Node) : List Nat :=
  let base := ((n.windows.head?.map (fun w => w.base)).getD 0) + n.word 10
  linesOf base (n.word 11)

/-- A PRELOAD's end: its counts are in its result word, which every line has kept. -/
def preloadEnd (s : State) (r : NodeRef) (n : Node) (status : Nat) : State := acted (preloadOver s r) r status n.result

/-- One line of a PRELOAD, in rising order: fetched if it is absent, then locked or counted as not locked; the first line opens
the group. -/
def doPreload (r : NodeRef) (s : State) : State :=
  match actNode s r ntPreload with
  | none => s
  | some n =>
    let g := bits (n.word 12) 0 4
    let st := s.rget Fld.L2_GROUP_STATE 0 g
    let ctx := s.qContext r.queue
    let mine := decide (SMap.find? s.groupLoad g = some r)
    if mine && decide (st = groupReleasing) then preloadEnd s r n stAborted
    else if st ≠ groupFree ∧ s.rget Fld.L2_GROUP_CONTEXT 0 g ≠ ctx then acted s r stInvalidArgument 0
    else if st = groupReleasing then { s with groupHeld := SMap.put s.groupHeld g r }.rput Fld.L2_GROUP_PENDING 1 0 g
    else if st = groupLoading ∧ mine = false then s
    else
      let s := { s with groupLoad := SMap.put s.groupLoad g r, groupHeld := SMap.del s.groupHeld g }
      let s := (s.rput Fld.L2_GROUP_PENDING 0 0 g).rput Fld.L2_GROUP_STATE groupLoading 0 g
      let s := s.rput Fld.L2_GROUP_CONTEXT ctx 0 g
      match (preloadLines n)[n.progress]? with
      | none => preloadEnd s r n stOk
      | some l =>
        let count := fun (s : State) (locked : Bool) =>
          let s := if locked then s else s.rput Fld.L2_GROUP_PARTIAL 1 0 g
          let n := { n with progress := n.progress + 1, result := n.result + (if locked then 1 else 2 ^ 32) }
          let s := s.mapNode r (fun x => { x with progress := n.progress, result := n.result })
          if n.progress = (preloadLines n).length then preloadEnd s r n stOk else s
        if !(isHbmLine l) then count s false
        else
          let s := if (s.line l).slice.isNone && (s.line l).l1.isEmpty then doL2Fill l ctx false .clean none s else s
          if (s.line l).slice.isNone && (s.line l).l1.isEmpty then s
          else
            let (s, locked) := lockLine s l g
            count s locked

/-- UNLOCK: its group is to become FREE; a PRELOAD into it stops at its next line. -/
def doUnlock (r : NodeRef) (s : State) : State :=
  match actNode s r ntUnlock with
  | none => s
  | some n =>
    let g := bits (n.word 8) 0 4
    let st := s.rget Fld.L2_GROUP_STATE 0 g
    if st = groupFree then acted s r stOk 0
    else if s.rget Fld.L2_GROUP_CONTEXT 0 g ≠ s.qContext r.queue then acted s r stInvalidArgument 0
    else (releaseGroup s g).mapNode r (fun x => { x with progress := 1 })

/-- Every slice has released a group (R201): it is FREE, and the UNLOCK nodes that asked for it have acted. -/
def doUnlockDone (g : Nat) (s : State) : State :=
  if s.rget Fld.L2_GROUP_STATE 0 g ≠ groupReleasing ∨ (SMap.find? s.groupLoad g).isSome = true then s
  else
    let s := { groupFreed s g with groupHeld := SMap.del s.groupHeld g }
    let mine := s.queues.flatMap (fun e => nodesWhere s e.1 (fun n =>
      decide (n.typ = ntUnlock) && decide (n.stage = .running) && !n.aborting && decide (n.progress = 1) && decide (bits (n.word 8) 0 4 = g)))
    mine.foldl (fun s r => acted s r stOk 0) s

/-! ### REALIGN_SET (R262) -/

/-- A pair becomes free: every waiter on it takes the sync-object fault. -/
def freePair (s : State) (p : Nat) : State :=
  let w := pairWaiters s p
  let s := [Fld.FE_RALIGN_PAIR_CORE_A, Fld.FE_RALIGN_PAIR_INDEX_A, Fld.FE_RALIGN_PAIR_CORE_B, Fld.FE_RALIGN_PAIR_INDEX_B,
    Fld.FE_RALIGN_PAIR_CONTEXT, Fld.FE_RALIGN_PAIR_VALID].foldl (fun s f => s.rput f 0 0 p) s
  showPair (w.foldl (fun s e => pairFault s e.1 e.2.1 e.2.2.1 p) s) p

def doRealignSet (r : NodeRef) (s : State) : State :=
  match actNode s r ntRealign with
  | none => s
  | some n =>
    let w8 := n.word 8
    let p := bits w8 0 4
    let ctx := s.qContext r.queue
    let held := s.flag Fld.FE_RALIGN_PAIR_VALID 0 p
    if held ∧ s.rget Fld.FE_RALIGN_PAIR_CONTEXT 0 p ≠ ctx then acted s r stInvalidState 0
    else if bits w8 4 1 = 1 then acted (if held then freePair s p else s) r stOk 0
    else
      let a := bits w8 8 8
      let b := bits w8 24 8
      let w := pairWaiters s p
      let s := (s.rput Fld.FE_RALIGN_PAIR_CORE_A a 0 p).rput Fld.FE_RALIGN_PAIR_INDEX_A (bits w8 16 6) 0 p
      let s := (s.rput Fld.FE_RALIGN_PAIR_CORE_B b 0 p).rput Fld.FE_RALIGN_PAIR_INDEX_B (bits w8 32 6) 0 p
      let s := (s.rput Fld.FE_RALIGN_PAIR_CONTEXT ctx 0 p).rput Fld.FE_RALIGN_PAIR_VALID 1 0 p
      let s := (s.rput Fld.FE_RALIGN_BASE_BASE (bits (n.word 9) 0 32) 0 p).rput Fld.FE_RALIGN_PERIOD_PERIOD (bits (n.word 10) 0 40) 0 p
      let s := s.rput Fld.FE_RALIGN_DUE_DUE (n.word 11) 0 p
      let s := w.foldl (fun s e =>
        if coreId e.1 = (if e.2.2.2 then a else b) then s else pairFault s e.1 e.2.1 e.2.2.1 p) s
      acted (showPair s p) r stOk 0

/-! ### Registers, seeds, time -/

/-- TIMESTAMP: its result is the machine time of its completion. -/
def doTimestamp (r : NodeRef) (s : State) : State :=
  match actNode s r ntTimestamp with
  | none => s
  | some _ => acted s r stOk s.now

def doRegReadNode (r : NodeRef) (s : State) : State :=
  match actNode s r ntRegRead with
  | none => s
  | some n =>
    match regNamed (n.word 8) with
    | none => acted s r stInvalidArgument 0
    | some x =>
      let t := regRead s x
      acted t.1 r stOk t.2

def doRegWriteNode (r : NodeRef) (s : State) : State :=
  match actNode s r ntRegWrite with
  | none => s
  | some n =>
    match regNamed (n.word 8) with
    | none => acted s r stInvalidArgument 0
    | some x =>
      let t := regWrite s x (decide (r.queue = 0)) (n.word 9)
      acted t.1 r t.2 0

def doSetSeed (r : NodeRef) (s : State) : State :=
  match actNode s r ntSetSeed with
  | none => s
  | some n => acted (s.mapQueue r.queue (fun q => { q with seed := n.word 8 })) r stOk 0

/-! ### PARTITION_ASSIGN, POWER_POLICY (R211, R378) -/

def doPartitionAssign (r : NodeRef) (s : State) : State :=
  match actNode s r ntPartition with
  | none => s
  | some n =>
    let ctx := bits (n.word 8) 0 6
    match SMap.find? s.contexts ctx with
    | none => acted s r stInvalidArgument 0
    | some c => acted { s with contexts := SMap.put s.contexts ctx { c with partition := bits (n.word 8) 8 4 } } r stOk 0

def doPowerPolicy (r : NodeRef) (s : State) : State :=
  match actNode s r ntPower with
  | none => s
  | some n =>
    let t := powerPolicy (n.word 8) s
    acted t.1 r t.2 0

/-! ### Aborts and watchdogs, with what they free in the Esrel port -/

/-- A slot that only a stopped remote copy kept LEAVING becomes FREE. -/
def settleSlots (s : State) : State := (List.range 64).foldl settleLeaving s

def execNodeStart (r : NodeRef) (s : State) : Out State := .next (s.onClock (startNode r s))
def execEngineAbortReport (r : NodeRef) (s : State) : Out State := .next (s.onClock (settleSlots (doAbortReport r s)))
def execNodeWatchdogExpire (r : NodeRef) (s : State) : Out State := .next (s.onClock (settleSlots (doWatchdog r s)))
def execLaunch (r : NodeRef) (s : State) : Out State := .next (s.onClock (doLaunch r s))
def execCopy (r : NodeRef) (s : State) : Out State := .next (s.onClock (doCopy r s))
def execFill (r : NodeRef) (s : State) : Out State := .next (s.onClock (doFill r s))
def execEventSignal (r : NodeRef) (s : State) : Out State := .next (s.onClock (doEventSignal r s))
def execEventWait (r : NodeRef) (s : State) : Out State := .next (s.onClock (doEventWait r s))
def execPreload (r : NodeRef) (s : State) : Out State := .next (s.onClock (doPreload r s))
def execUnlock (r : NodeRef) (s : State) : Out State := .next (s.onClock (doUnlock r s))
def execUnlockReleaseDone (group : Fin 16) (s : State) : Out State := .next (s.onClock (doUnlockDone group s))
def execRealignSet (r : NodeRef) (s : State) : Out State := .next (s.onClock (doRealignSet r s))
def execTimestamp (r : NodeRef) (s : State) : Out State := .next (s.onClock (doTimestamp r s))
def execRegReadNode (r : NodeRef) (s : State) : Out State := .next (s.onClock (doRegReadNode r s))
def execRegWriteNode (r : NodeRef) (s : State) : Out State := .next (s.onClock (doRegWriteNode r s))
def execSetSeed (r : NodeRef) (s : State) : Out State := .next (s.onClock (doSetSeed r s))
def execCkptCopy (r : NodeRef) (s : State) : Out State := .next (s.onClock (doCkptCopy r s))
def execPartitionAssign (r : NodeRef) (s : State) : Out State := .next (s.onClock (doPartitionAssign r s))
def execPowerPolicy (r : NodeRef) (s : State) : Out State := .next (s.onClock (doPowerPolicy r s))

end Sys2Proof.Machine
end

