-- ==== Sys2Proof/Machine/RangeOps.lean ====
section
/-!
DEFINITION. Machine/RangeOps.lean: RANGE_WRITE (R21, R292, R297, R298), heaps and the device-side allocator (R306 to R308).
-/
namespace Sys2Proof.Machine

/-! ### Extents (R21, R298) -/

/-- Is a physical extent one that a range or a heap may map: populated HBM outside the carve-out, local SRAM, or the host
window? -/
def physOk (s : State) (a n : Nat) : Bool :=
  (decide (a + n ≤ s.rget Fld.HM_CAPACITY_BYTES) && !(overlaps (a, n) (carveBase s, carveBytes))) ||
    (decide (sramBase ≤ a) && decide (a + n ≤ sramEnd)) || (decide (hostBase ≤ a) && decide (a + n ≤ hostEnd))

/-- Do context addresses, in granules, overlap a range or a heap of a context? -/
def virtTaken (s : State) (context v n : Nat) : Bool :=
  s.ranges.any (fun e => decide (e.2.context = context) && overlaps (v, n) (e.2.vbase, e.2.ngran)) ||
    (match SMap.find? s.contexts context with
     | some c => c.heaps.any (fun h => overlaps (v, n) (h.vbase, h.ngran))
     | none => false)

/-- Does a physical extent, in granules, overlap a heap of another context? -/
def heapElsewhere (s : State) (context p n : Nat) : Bool :=
  s.contexts.any (fun e => decide (e.1 ≠ context) && e.2.heaps.any (fun h => overlaps (p, n) (h.pbase, h.ngran)))

/-- Does it overlap a range of another context? -/
def rangeElsewhere (s : State) (context p n : Nat) : Bool :=
  s.ranges.any (fun e => decide (e.2.context ≠ context) && overlaps (p, n) (e.2.pbase, e.2.ngran))

/-- Does a context exist, and is it not being destroyed? -/
def contextLive (s : State) (context : Nat) : Bool :=
  match SMap.find? s.contexts context with
  | some c => !c.destroying
  | none => false

/-! ### The translation unit (R293) -/

def tuSize : Nat := 32768

/-- The lowest entry of the translation unit that holds no range. -/
def freeTu (s : State) : Option Nat :=
  if tuSize ≤ s.ranges.length then none else (List.range (s.ranges.length + 1)).find? (fun i => (SMap.find? s.ranges i).isNone)

/-- Add a range with its memory object; none when the translation unit is full, or the object table: its status and reason
(R307). -/
def addRange (s : State) (x : Range) (dynamic : Bool) : Except Nat (State × Nat) :=
  match freeTu s with
  | none => .error 2
  | some tu =>
    match newObj s 1 x.context tu dynamic with
    | none => .error 3
    | some (s, i) =>
      let s := { s with ranges := SMap.put s.ranges tu { x with object := i } }
      .ok (showRetirePending (s.rput Fld.TU_STATUS_ENTRIES s.ranges.length), i)

/-! ### RANGE_WRITE -/

def rangeContext (n : Node) : Nat := bits (n.word 8) 4 6

/-- The reload fields of words 10 and 12: RSRC, RWIN, RADDR, RDEV. -/
def reloadFields (n : Node) : Nat × Nat × Nat × Nat :=
  (bits (n.word 10) 48 2, bits (n.word 10) 50 6, bits (n.word 12) 0 48, bits (n.word 12) 48 16)

/-- Are the reload fields legal for a range of so many bytes? -/
def reloadOk (f : Nat × Nat × Nat × Nat) (bytes : Nat) (imm : Bool) : Bool :=
  match f.1 with
  | 0 => true
  | 1 => imm && decide (f.2.2.1 % 128 = 0) && decide (hostBase ≤ f.2.2.1) && decide (f.2.2.1 + bytes ≤ hostEnd)
  | 2 => imm && decide (f.2.2.1 % 128 = 0)
  | _ => false

/-- CREATE: a range and its memory object, whose handle is the result. -/
def doRangeCreate (r : NodeRef) (s : State) : State :=
  match actOp s r ntRange 1 with
  | none => s
  | some n =>
    let ctx := rangeContext n
    let v := n.word 9 / 4096
    let k := bits (n.word 10) 0 36 + 1
    let perm := bits (n.word 10) 36 4
    let mattr := bits (n.word 10) 40 8
    let pa := bits (n.word 11) 0 48
    let f := reloadFields n
    let imm := mattrImm mattr
    if !(contextLive s ctx) || decide (pa % 4096 ≠ 0) || !(physOk s pa (4096 * k)) || decide (2 ^ 52 < v + k) || virtTaken s ctx v k ||
        heapElsewhere s ctx (pa / 4096) k || (imm && decide (perm &&& (permW + permA) ≠ 0)) || decide (bits mattr 4 4 ≠ 0) ||
        !(reloadOk f (4096 * k) imm) then acted s r stInvalidArgument 0
    else
      match addRange s {
        context := ctx, vbase := v, ngran := k, perm := perm, mattr := mattr, pbase := pa / 4096, rsrc := f.1, rwin := f.2.1
        raddr := f.2.2.1, rdev := f.2.2.2, object := 0 } false with
      | .error _ => acted s r stInvalidState 0
      | .ok (s, i) => acted s r stOk (handleOf s i)

/-- The entry that a handle of the node names, of one of the types given: none is an invalid argument. -/
def handleObj (s : State) (n : Node) (types : List Nat) : Option Nat :=
  let i := bits (n.word 9) 0 16
  if types.contains (objType s i) && decide (objState s i ≠ objFree) && decide (objContext s i = rangeContext n) &&
      decide (n.word 9 = handleOf s i) then some i else none

/-- DESTROY: DYING, and the creator's reference is dropped; a launch keeps the reference of its allocation (R301). -/
def doRangeDestroy (r : NodeRef) (s : State) : State :=
  match actOp s r ntRange 2 with
  | none => s
  | some n =>
    match (if contextLive s (rangeContext n) then handleObj s n [1, 2] else none) with
    | none => acted s r stInvalidArgument 0
    | some i =>
      if objDying s i || decide (objState s i = objTeardown) then acted s r stInvalidState 0
      else
        let s := putObj s i 1 11 1 1
        let s := if s.allocs.any (fun a => decide (a.object = i) && a.launch.isSome) then s
          else dropRef { s with allocs := s.allocs.filter (fun a => a.object != i) } i
        acted s r stOk 0

/-- SET_RELOAD: the reload source of a SHARED_IMM range (R217). -/
def doSetReload (r : NodeRef) (s : State) : State :=
  match actOp s r ntRange 3 with
  | none => s
  | some n =>
    match (if contextLive s (rangeContext n) then handleObj s n [1] else none) with
    | none => acted s r stInvalidArgument 0
    | some i =>
      let tu := objWhat s i
      match SMap.find? s.ranges tu with
      | none => acted s r stInvalidArgument 0
      | some x =>
        let f := reloadFields n
        if reloadOk f (4096 * x.ngran) (mattrImm x.mattr) then
          acted { s with ranges := SMap.put s.ranges tu { x with rsrc := f.1, rwin := f.2.1, raddr := f.2.2.1, rdev := f.2.2.2 } } r stOk 0
        else acted s r stInvalidArgument 0

/-- HEAP: a heap of the context. -/
def doHeap (r : NodeRef) (s : State) : State :=
  match actOp s r ntRange 4 with
  | none => s
  | some n =>
    let ctx := rangeContext n
    let v := n.word 9 / 4096
    let k := bits (n.word 10) 0 36 + 1
    let idx := bits (n.word 10) 40 2
    let pa := n.word 11
    match SMap.find? s.contexts ctx with
    | none => acted s r stInvalidArgument 0
    | some c =>
      if c.destroying || decide (n.word 9 % 4096 ≠ 0) || decide (pa % 4096 ≠ 0) || !(physOk s pa (4096 * k)) || decide (2 ^ 52 < v + k) ||
          c.heaps.any (fun h => h.index == idx) || virtTaken s ctx v k || heapElsewhere s ctx (pa / 4096) k ||
          rangeElsewhere s ctx (pa / 4096) k then acted s r stInvalidArgument 0
      else
        let h : Heap := { index := idx, vbase := v, ngran := k, pbase := pa / 4096 }
        acted { s with contexts := SMap.put s.contexts ctx { c with heaps := c.heaps ++ [h] } } r stOk 0

/-- EVENT: an event object on a word. -/
def doRangeEvent (r : NodeRef) (s : State) : State :=
  match actOp s r ntRange 5 with
  | none => s
  | some n =>
    if !(contextLive s (rangeContext n)) then acted s r stInvalidArgument 0
    else
      match registerEvent s (rangeContext n) (n.word 9) with
      | (s, st, some e) => acted s r st (handleOf s e.1)
      | (s, st, none) => acted s r st 0

/-! ### The device-side allocator (R306 to R308) -/

/-- The argument that a window shows is DYNAMIC. -/
def dynamicWin (s : State) (L : Launch) (w : Nat) : Bool :=
  match s.node L.ref with
  | some n => (match (launchArgs n.words)[w]? with
    | some e => decide (argKind e.2 = 1)
    | none => false)
  | none => false

/-- Extents of a heap that hold an allocation or a retired granule, in granules from the heap's base. -/
def heapTaken (s : State) (context : Nat) (h : Heap) : List (Nat × Nat) :=
  (s.ranges.filterMap (fun (e : Nat × Range) =>
    if e.2.context = context ∧ e.2.heap = some h.index then some (e.2.pbase - h.pbase, e.2.ngran) else none)) ++
  s.retired.filterMap (fun x => match x with
    | .granule g => if h.pbase ≤ g ∧ g < h.pbase + h.ngran then some (g - h.pbase, 1) else none
    | .way _ _ _ => none)

/-- First fit at the lowest aligned context address: the offset in granules. -/
def firstFit (h : Heap) (taken : List (Nat × Nat)) (k align : Nat) : Option Nat :=
  let up := fun (off : Nat) => ((h.vbase + off + align - 1) / align) * align - h.vbase
  let fits := fun (off : Nat) => decide (off + k ≤ h.ngran) && !(taken.any (fun t => overlaps (off, k) t))
  let starts := (0 :: taken.map (fun t => t.1 + t.2)).map up
  starts.foldl (fun best off => if fits off then some (match best with
    | some b => min b off
    | none => off) else best) none

/-- The slot of a mailbox page. -/
def mailSlot (s : State) (L : Launch) (slot : Nat) : Option Nat :=
  L.mailbox.map (fun p => carveBase s + mailboxOff + 4096 * p + 64 * slot)

/-- Answer a request: word 3, then the signal on DONE with the request's number (R307). -/
def mailDone (s : State) (L : Launch) (a status reason object gen req : Nat) : State :=
  let s := agentWrite s (a + 24) 8 (status + reason * 2 ^ 8 + object * 2 ^ 16 + gen * 2 ^ 32)
  (feSignal s (a + 32) req { feWho s L.queue with launch := L.serial }).1

/-- A request that a slot holds: its address, its number, its words 1 and 2. -/
def mailRequest (s : State) (L : Launch) (slot : Nat) : Option (Nat × Nat × Nat × Nat) :=
  match mailSlot s L slot with
  | none => none
  | some a =>
    let req := s.readLE a 8
    if s.readLE (a + 32) 8 < req then some (a, req, s.readLE (a + 8) 8, s.readLE (a + 16) 8) else none

/-- Serve an ALLOC; an OP that is neither ALLOC nor FREE is refused here too. -/
def doAlloc (launch slot : Nat) (s : State) : State :=
  match s.launch launch with
  | none => s
  | some L =>
    match mailRequest s L slot with
    | none => s
    | some (a, req, w1, w2) =>
      let win := bits w1 2 6
      let len := bits w2 0 48
      let k := (len + 4095) / 4096
      let al := bits w1 10 5
      let mattr := bits w1 19 8
      let heap := ((SMap.find? s.contexts L.context).bind (fun c => c.heaps.find? (fun h => h.index == bits w1 8 2)))
      if !(feRuns s) || decide (bits w1 0 2 = 2) || L.aborting then s
      else if bits w1 0 2 ≠ 1 ∨ bits w1 27 37 ≠ 0 ∨ bits w2 48 16 ≠ 0 ∨ len = 0 ∨ al < 12 ∨ 21 < al ∨ bits mattr 3 5 ≠ 0 ∨ heap = none then
        mailDone s L a stInvalidArgument 0 0 0 req
      else if !(dynamicWin s L win) then mailDone s L a stInvalidArgument 4 0 0 req
      else if ((L.windows[win]?).getD {}).bound ≠ 0 then mailDone s L a stInvalidState 5 0 0 req
      else
        match heap with
        | none => s
        | some h =>
          match firstFit h (heapTaken s L.context h) k (2 ^ (al - 12)) with
          | none => mailDone s L a stInvalidState 1 0 0 req
          | some off =>
            let perm := bits w1 15 3
            match addRange s {
              context := L.context, vbase := h.vbase + off, ngran := k, perm := perm, mattr := mattr, pbase := h.pbase + off, object := 0
              heap := some h.index } true with
            | .error e => mailDone s L a stInvalidState e 0 0 req
            | .ok (s, i) =>
              let v : Window := {
                base := 4096 * (h.pbase + off), bound := 4096 * k, r := Nat.testBit perm 0, w := Nat.testBit perm 1, a := Nat.testBit perm 2
                policy := mattrPolicy mattr, near := mattrNear mattr, range := i }
              let s := s.mapLaunch launch (fun L => { L with windows := L.windows.set win v })
              let s := { s with allocs := s.allocs ++ [{
                object := i, context := L.context, launch := if bits w1 18 1 = 1 then none else some launch, win := win }] }
              mailDone s L a stOk 0 i (objGen s i) req

/-- Is an access through a window of a launch in flight, in a core or in a mover? -/
def winInUse (s : State) (L : Launch) (win : Nat) (v : Window) : Bool :=
  let inside := fun (a : Nat) => decide (v.base ≤ a) && decide (a < v.base + v.bound)
  s.cores.any (fun c => c.2.ops.any (fun o => decide (o.window = win) && (match c.2.tray o.slot with
    | some t => decide (t.launch = L.serial)
    | none => false))) ||
    s.movers.any (fun m => m.2.queue.any (fun d => decide (d.launch = L.serial) && inside d.base) || (match m.2.job with
      | some (.desc d) => decide (d.launch = L.serial) && inside d.base
      | _ => false))

/-- Serve a FREE: once no core and no mover has an access through the window in flight, it is empty, and the reference is
dropped (R308). -/
def doFree (launch slot : Nat) (s : State) : State :=
  match s.launch launch with
  | none => s
  | some L =>
    match mailRequest s L slot with
    | none => s
    | some (a, req, w1, w2) =>
      let win := bits w1 2 6
      let v := (L.windows[win]?).getD {}
      if !(feRuns s) || decide (bits w1 0 2 ≠ 2) || L.aborting then s
      else if bits w1 27 37 ≠ 0 ∨ bits w2 48 16 ≠ 0 then mailDone s L a stInvalidArgument 0 0 0 req
      else if !(dynamicWin s L win) then mailDone s L a stInvalidArgument 4 0 0 req
      else if v.bound = 0 then mailDone s L a stInvalidState 5 0 0 req
      else if winInUse s L win v then s
      else
        let s := s.mapLaunch launch (fun L => { L with windows := L.windows.set win {} })
        let held := s.allocs.any (fun x => x.object == v.range)
        let gen := objGen s v.range
        let s := if held then dropRef { s with allocs := s.allocs.filter (fun x => x.object != v.range) } v.range else s
        mailDone s L a stOk 0 v.range gen req

def execRangeCreate (r : NodeRef) (s : State) : Out State := .next (s.onClock (doRangeCreate r s))
def execRangeDestroy (r : NodeRef) (s : State) : Out State := .next (s.onClock (doRangeDestroy r s))
def execSetReload (r : NodeRef) (s : State) : Out State := .next (s.onClock (doSetReload r s))
def execHeap (r : NodeRef) (s : State) : Out State := .next (s.onClock (doHeap r s))
def execRangeEvent (r : NodeRef) (s : State) : Out State := .next (s.onClock (doRangeEvent r s))
def execMailboxAlloc (launch : Nat) (slot : Fin 64) (s : State) : Out State := .next (s.onClock (doAlloc launch slot s))
def execMailboxFree (launch : Nat) (slot : Fin 64) (s : State) : Out State := .next (s.onClock (doFree launch slot s))

end Sys2Proof.Machine
end

