-- ==== Sys2Proof/Machine/Regions.lean ====
section
/-!
DEFINITION. Machine/Regions.lean: REGION_CONTROL (R18, R19): a region's cores are shut down and enabled again.
-/
namespace Sys2Proof.Machine

def State.regionState (s : State) (g : Nat) : Nat := s.rget (Fld.PM_REGION_STATE_STATE g)
def State.setRegion (s : State) (g v : Nat) : State := s.rput (Fld.PM_REGION_STATE_STATE g) v
def State.regionJob (s : State) (g : Nat) : RegionJob := SMap.get s.regions g {}
def State.mapRegion (s : State) (g : Nat) (f : RegionJob → RegionJob) : State :=
  { s with regions := SMap.put s.regions g (f (s.regionJob g)) }

/-- The cores of a region. -/
def regionCores (g : Nat) : List Nat := (List.range 48).map (fun i => 48 * g + i)

/-- Does a realign pair name a core of the region? -/
def pairInRegion (s : State) (g : Nat) : Bool :=
  (List.range 16).any (fun p => s.flag Fld.FE_RALIGN_PAIR_VALID 0 p &&
    [s.rget Fld.FE_RALIGN_PAIR_CORE_A 0 p, s.rget Fld.FE_RALIGN_PAIR_CORE_B 0 p].any (fun id =>
      decide ((linearCore id).map regionOf = some g)))

/-- A shutdown is accepted, or refused with INVALID_STATE. -/
def doRegionShutdown (r : NodeRef) (s : State) : State :=
  match actNode s r ntRegion with
  | none => s
  | some n =>
    let g := bits (n.word 8) 0 2
    let st := s.regionState g
    if Nat.testBit (n.word 8) 2 || n.progress != 0 then s
    else if st = 2 then (if (s.regionJob g).enabling then s else acted s r stOk 0)
    else
      let join := fun (s : State) => (s.mapRegion g (fun j => { j with down := j.down ++ [r] })).mapNode r (fun n => { n with progress := 1 })
      if st ≠ 0 then join s
      else if pairInRegion s g || !((List.range 4).any (fun k => decide (k ≠ g) && regionOn s k)) then acted s r stInvalidState 0
      else join (markLeaving (s.setRegion g 1) (fun core _ => decide (regionOf core = g)))

/-- An enable: done when the region is ON, held while its shutdown is in progress. -/
def doRegionEnable (r : NodeRef) (s : State) : State :=
  match actNode s r ntRegion with
  | none => s
  | some n =>
    let g := bits (n.word 8) 0 2
    let st := s.regionState g
    if !(Nat.testBit (n.word 8) 2) || n.progress != 0 then s
    else if st = 0 then acted s r stOk 0
    else
      let s := (s.mapRegion g (fun j => { j with up := j.up ++ [r], enabling := j.enabling || decide (st = 2) })).mapNode r
        (fun n => { n with progress := 1 })
      if st = 1 then s.setRegion g 3 else s

/-- Nodes that waited for a region complete OK. -/
def regionNodes (s : State) (rs : List NodeRef) : State :=
  rs.foldl (fun s r => match actNode s r ntRegion with
    | some _ => acted s r stOk 0
    | none => s) s

/-- A core's L1 is emptied: dirty lines go home. -/
def flushL1 (s : State) (core : Nat) : State :=
  let s := s.lines.foldl (fun s e =>
    match SMap.find? e.2.l1 core with
    | none => s
    | some st =>
      let s := if st = .m then l2Alloc s e.1 true false else s
      s.mapLine e.1 (fun x => { x with l1 := SMap.del x.l1 core })) s
  s.mapCore core (fun c => { c with l1 := [] })

/-- Could a gang launch be resident whole on the cores of the regions that are ON? -/
def gangFits (s : State) (L : Launch) : Bool :=
  let cores := ((List.range 192).filter (fun c => !(coreOffline s c) && regionOn s (regionOf c))).length
  decide (L.sheets ≤ cores * sheetsPerCore L.trays L.regs L.l1 L.scratch L.aligned)

/-- A launch's node ends CONTAINED; a job set that its context is a member of is aborted (R19, R387). -/
def containLaunch (s : State) (L : Launch) : State :=
  let s := abortNode s L.ref stContained
  if fabricMode s then
    (List.range 64).foldl (fun s j =>
      if jsState s j = jsActive ∧ jsMember s j = true ∧ s.rget Fld.EL_JOBSET_CONTEXT 0 j = L.context then
        raiseAbort s j (Config.containCause j).toNat
      else s) s
  else s

/-- The sheets that a region's shutdown saves: those on its cores, and those of gang launches that have one there. -/
def regionSheets (s : State) (g : Nat) : List (Nat × Sheet) :=
  let there := s.cores.flatMap (fun c => if regionOf c.1 = g then c.2.sheets.map (fun h => h.launch) else [])
  s.cores.flatMap (fun c => (c.2.sheets.filter (fun h =>
    decide (regionOf c.1 = g) ||
      (there.contains h.launch && ((s.launch h.launch).map (fun L => L.gang)).getD false))).map (fun h => (c.1, h)))

/-- The region's sheets have reached their safe points: they are saved, what its cores held is lost, and it is OFF; a held
enable takes effect. -/
def doRegionShutdownDone (g : Nat) (s : State) : State :=
  let st := s.regionState g
  let hs := regionSheets s g
  if (st ≠ 1 ∧ st ≠ 3) ∨ hs.all (fun e => sheetQuiet s e.1 e.2) = false then s
  else
    let gangs := ((hs.filterMap (fun e => s.launch e.2.launch)).filter (fun L => L.gang)).map (fun L => L.serial)
    let s := (saveAll s hs).1
    let s := gangs.eraseDups.foldl (fun s k =>
      match s.launch k with
      | some L => if gangFits s L then s else containLaunch s L
      | none => s) s
    let s := (regionCores g).foldl (fun s core =>
      (flushL1 s core).mapCore core (fun c => { c with rows := [], tables := [], sets := [], tq := [] })) s
    let s := regionNodes (s.setRegion g 2) (s.regionJob g).down
    s.mapRegion g (fun j => { j with down := [], enabling := !j.up.isEmpty })

/-- The region's cores are back: their local SRAM holds zero, their counters what they hold after power-up, and the region is
ON. -/
def doRegionEnableDone (g : Nat) (s : State) : State :=
  let j := s.regionJob g
  if s.regionState g ≠ 2 ∨ j.enabling = false then s
  else
    let s := (regionCores g).foldl (fun s core =>
      let s := s.zeroExtent (sramAddr core 0) 0x100000
      (List.range 48).foldl (fun s i =>
        let s := s.rput Fld.CO_SYNC_VALUE_VALUE (if fabricMode s then 0 else (Config.lostCounter g s.now core i).toNat) core i
        (s.rput Fld.CO_SYNC_VALUE_TAGGED 0 core i).rput Fld.CO_SYNC_VALUE_CONTEXT 0 core i) s) s
    let s := regionNodes (s.setRegion g 0) j.up
    s.mapRegion g (fun j => { j with up := [], enabling := false })

def execRegionShutdown (r : NodeRef) (s : State) : Out State := .next (s.onClock (doRegionShutdown r s))
def execRegionEnable (r : NodeRef) (s : State) : Out State := .next (s.onClock (doRegionEnable r s))
def execRegionShutdownDone (region : Fin 4) (s : State) : Out State := .next (s.onClock (doRegionShutdownDone region s))
def execRegionEnableDone (region : Fin 4) (s : State) : Out State := .next (s.onClock (doRegionEnableDone region s))

end Sys2Proof.Machine
end

