-- ==== Sys2Proof/Machine/Fabric.lean ====
section
/-!
DEFINITION. Machine/Fabric.lean: LINK_CONTROL (R312, R313, R315, R316, R318) and JOB_SET (R330, R336 to R338) nodes.
-/
namespace Sys2Proof.Machine

/-! ### LINK_CONTROL -/

/-- A command to a link: what was last sent on a link that leaves UP is sent again (R335). -/
def doLinkOp (r : NodeRef) (op : Nat) (s : State) : State :=
  match actOp s r ntLink op with
  | none => s
  | some n =>
    let k := bits (n.word 8) 4 6
    let was := s.lkState k
    let s := linkCommand s k op
    let s := if (was = lkUp ∨ was = lkRetraining) ∧ s.lkState k ≠ lkUp ∧ s.lkState k ≠ lkRetraining then resendLink s k else s
    acted s r stOk 0

/-- SET_ID (R316). -/
def doSetId (r : NodeRef) (s : State) : State :=
  match actOp s r ntLink 5 with
  | none => s
  | some n =>
    if (List.range 64).any (fun j => decide (jsState s j ≠ jsFree)) || (List.range 64).any (fun e => expValid s e) then
      acted s r stInvalidState 0
    else acted ((s.rput Fld.EL_DEVICE_ID_ID (bits (n.word 8) 16 16)).rput Fld.EL_DEVICE_ID_ASSIGNED 1) r stOk 0

/-- ROUTE_LOAD: entries in ascending order (R313). -/
def doRouteLoad (r : NodeRef) (s : State) : State :=
  match actOp s r ntLink 6 with
  | none => s
  | some n =>
    let first := bits (n.word 10) 0 16
    let count := bits (n.word 10) 16 17
    match actRead s r n (n.phys.getD 0 0) (8 * count) with
    | .wait s => s
    | .failed s st => acted s r st 0
    | .data s v => acted ((List.range count).foldl (fun s i => putRoute s (first + i) (bits v (64 * i) 64)) s) r stOk 0

/-! ### JOB_SET -/

/-- Is a context a member in a slot other than one? -/
def memberElsewhere (s : State) (context j : Nat) : Bool :=
  (List.range 64).any (fun k => decide (k ≠ j) && decide (jsState s k ≠ jsFree) && jsMember s k &&
    decide (s.rget Fld.EL_JOBSET_CONTEXT 0 k = context))

/-- Is a job set held in a slot other than one? -/
def jobsetElsewhere (s : State) (jobset j : Nat) : Bool :=
  (List.range 64).any (fun k => decide (k ≠ j) && decide (jsState s k ≠ jsFree) && decide (s.rget Fld.EL_JOBSET_JOBSET 0 k = jobset))

/-- JOIN. One to a LEAVING slot is held; its node goes on when the slot has become FREE. -/
def doJoin (r : NodeRef) (s : State) : State :=
  match actOp s r ntJobSet 1 with
  | none => s
  | some n =>
    let w := n.word 8
    let j := bits w 4 6
    let st := jsState s j
    let jobset := bits w 16 16
    let fl := bits (n.word 9) 0 48
    if n.progress = 1 then
      if SMap.find? s.el.joins j = some (w, fl) then s
      else if st = jsActive ∧ s.rget Fld.EL_JOBSET_JOBSET 0 j = jobset then acted s r stOk 0
      else acted s r stInvalidArgument 0
    else if (st ≠ jsFree ∧ st ≠ jsLeaving) ∨ s.flag Fld.EL_DEVICE_ID_ASSIGNED = false then acted s r stInvalidState 0
    else if jobset = 0xFFFF ∨ jobsetElsewhere s jobset j = true ∨
        (bits w 40 1 = 1 ∧ (memberElsewhere s (bits w 10 6) j = true ∨ contextLive s (bits w 10 6) = false)) then acted s r stInvalidArgument 0
    else if st = jsLeaving then
      let s := { s with el := { s.el with joins := SMap.put s.el.joins j (w, fl) } }.rput Fld.EL_JOBSET_PENDING 1 0 j
      s.mapNode r (fun n => { n with progress := 1 })
    else acted (joinSlot s j w fl) r stOk 0

/-- The slot is LEAVING until its operations have completed; its exports are removed. -/
def leaveSlot (s : State) (j : Nat) : State :=
  let s := (List.range 64).foldl (fun s e =>
    if expValid s e && !(expOpen s e) && decide (s.rget Fld.EL_EXPORT_BASE_SLOT 0 e = j) then removeExport s e else s) s
  settleLeaving (s.rput Fld.EL_JOBSET_STATE jsLeaving 0 j) j

def doLeave (r : NodeRef) (s : State) : State :=
  match actOp s r ntJobSet 2 with
  | none => s
  | some n =>
    let j := bits (n.word 8) 4 6
    let st := jsState s j
    if st = jsFree then acted s r stInvalidState 0
    else if st = jsLeaving then acted s r stOk 0
    else acted (leaveSlot s j) r stOk 0

/-- EXPORT: the argument is translated in the slot's context (R330). -/
def doExport (r : NodeRef) (s : State) : State :=
  match actOp s r ntJobSet 3 with
  | none => s
  | some n =>
    let w := n.word 8
    let j := bits w 4 6
    let e := bits w 41 6
    let isOpen := bits w 47 1
    let ctx := s.rget Fld.EL_JOBSET_CONTEXT 0 j
    let arg := (n.word 10, n.word 11)
    if expValid s e = true ∨ (isOpen = 0 ∧ jsState s j = jsFree) then acted s r stInvalidState 0
    else if argKind arg.2 ≠ 0 ∨ argRange arg.1 arg.2 = false then acted s r stInvalidArgument 0
    else
      match buildWindow s ctx arg.1 arg.2 with
      | none => acted (countLookup s false) r stTranslation 0
      | some (v, _) =>
        let s := countLookup s true
        let s := (s.rput Fld.EL_EXPORT_BASE_BASE v.base 0 e).rput Fld.EL_EXPORT_BASE_R (b2n v.r) 0 e
        let s := (s.rput Fld.EL_EXPORT_BASE_W (b2n v.w) 0 e).rput Fld.EL_EXPORT_BASE_A (b2n v.a) 0 e
        let s := (s.rput Fld.EL_EXPORT_BASE_VALID 1 0 e).rput Fld.EL_EXPORT_BASE_OPEN isOpen 0 e
        let s := (s.rput Fld.EL_EXPORT_BASE_SLOT j 0 e).rput Fld.EL_EXPORT_BOUND_BOUND v.bound 0 e
        let s := s.rput Fld.EL_EXPORT_BOUND_CONTEXT ctx 0 e
        acted { s with exportObj := SMap.put s.exportObj e v.range } r stOk 0

/-- UNEXPORT: once the operations in progress through the export have completed. -/
def doUnexport (r : NodeRef) (s : State) : State :=
  match actOp s r ntJobSet 4 with
  | none => s
  | some n =>
    let e := bits (n.word 8) 41 6
    if !(expValid s e) then acted s r stInvalidState 0
    else if s.el.waiting.any (fun p => decide (p.dwin.toNat = e)) then s
    else acted (removeExport s e) r stOk 0

/-- ABORT: the job set's abort is raised (R338). -/
def doJobSetAbort (r : NodeRef) (s : State) : State :=
  match actOp s r ntJobSet 5 with
  | none => s
  | some n =>
    let j := bits (n.word 8) 4 6
    if jsState s j ≠ jsActive then acted s r stInvalidState 0 else raiseAbort (acted s r stOk 0) j 3

/-- CLEAR: an ABORTED slot is ACTIVE again in a new epoch (R337). -/
def doClear (r : NodeRef) (s : State) : State :=
  match actOp s r ntJobSet 6 with
  | none => s
  | some n =>
    let j := bits (n.word 8) 4 6
    let ep := bits (n.word 8) 32 8
    if jsState s j ≠ jsAborted then acted s r stInvalidState 0
    else if s.rget Fld.EL_JOBSET_EPOCH 0 j = ep then acted s r stInvalidArgument 0
    else acted ((s.rput Fld.EL_JOBSET_STATE jsActive 0 j).rput Fld.EL_JOBSET_EPOCH ep 0 j) r stOk 0

def execLinkDisable (r : NodeRef) (s : State) : Out State := .next (s.onClock (doLinkOp r 1 s))
def execLinkEnable (r : NodeRef) (s : State) : Out State := .next (s.onClock (doLinkOp r 2 s))
def execLinkRetrain (r : NodeRef) (s : State) : Out State := .next (s.onClock (doLinkOp r 3 s))
def execAckPeer (r : NodeRef) (s : State) : Out State := .next (s.onClock (doLinkOp r 4 s))
def execSetId (r : NodeRef) (s : State) : Out State := .next (s.onClock (doSetId r s))
def execRouteLoad (r : NodeRef) (s : State) : Out State := .next (s.onClock (doRouteLoad r s))
def execJoin (r : NodeRef) (s : State) : Out State := .next (s.onClock (doJoin r s))
def execLeave (r : NodeRef) (s : State) : Out State := .next (s.onClock (doLeave r s))
def execExport (r : NodeRef) (s : State) : Out State := .next (s.onClock (doExport r s))
def execUnexport (r : NodeRef) (s : State) : Out State := .next (s.onClock (doUnexport r s))
def execJobSetAbort (r : NodeRef) (s : State) : Out State := .next (s.onClock (doJobSetAbort r s))
def execClear (r : NodeRef) (s : State) : Out State := .next (s.onClock (doClear r s))

end Sys2Proof.Machine
end

