-- ==== Sys2Proof/Machine/Packets.lean ====
section
/-!
DEFINITION. Machine/Packets.lean: the packets of the host (R264 to R274): what the front end checks of each, what it does, and
its reply; and the end of a context's destruction (R271).
-/
namespace Sys2Proof.Machine

/-! ### What every packet is checked for (R264 to R266) -/

/-- A parameter of a packet. -/
def pktParam (p : Pkt) (i : Nat) : Nat := (p.params.getD i 0).toNat

/-- Has a packet's tag not been answered yet? -/
def tagBusy (s : State) (tag : Nat) : Bool :=
  s.unanswered.contains tag || s.uc.outbox.any (fun m => match m with
    | .reply t _ _ => t == tag
    | _ => false)

/-- The format of a packet whose parameters define the given bits, P0 first: it is 32 B long and nothing else is set. -/
def pktFormat (p : Pkt) (masks : List Nat) : Bool :=
  !p.rsv && decide (p.len = 0) &&
    (List.range p.params.length).all (fun i => decide (pktParam p i &&& masks.getD i 0 = pktParam p i))

/-- A packet is received when the port is ACTIVE and the front end acts; it is checked in this order: its tag, its format,
its queue, its privilege. What passes is done. -/
def takePacket (s : State) (p : Pkt) (masks : List Nat) (kernelOnly : Bool) (act : State → State) : State :=
  let tag := p.tag.toNat
  let q := p.queue.toNat
  if s.ucState ≠ 2 ∨ feRuns s = false then s
  else if tagBusy s tag then s.reply tag stTagBusy
  else if !(pktFormat p masks) then s.reply tag stFormat
  else if s.qState q = qFree then s.reply tag stInvalidArgument
  else if kernelOnly && decide (q ≠ 0) then s.reply tag stPrivilege
  else act s

/-- A packet whose P0 names a queue: that queue exists, and a user queue names only itself. -/
def naming (p : Pkt) (act : Nat → State → State) (s : State) : State :=
  let tag := p.tag.toNat
  let q := pktParam p 0
  if p.queue.toNat ≠ 0 ∧ q ≠ p.queue.toNat then s.reply tag stPrivilege
  else if s.qState q = qFree then s.reply tag stInvalidArgument
  else act q s

/-! ### SUBMIT (R268, R269, R272, R273) -/

/-- Bytes of the pool that are in use. -/
def poolUsed (s : State) : Nat := s.queues.foldl (fun n e => n + e.2.pool) 0

/-- Buffers of a queue submitted and not completed. -/
def buffersOf (s : State) (q : Nat) : Nat :=
  (s.queue q).buffers.length + (s.submits.filter (fun e => decide (e.2.queue = q))).length

def doSubmit (p : Pkt) (s : State) : State :=
  takePacket s p [full, ones 0 14] false (fun s =>
    let tag := p.tag.toNat
    let q := p.queue.toNat
    let st := s.qState q
    let bytes := 64 * (pktParam p 1 + 1)
    if st = qResetting ∨ st = qGuilty ∨ st = qDestroying then s.reply tag stInvalidState
    else if 64 ≤ buffersOf s q then s.reply tag stQueueFull
    else
      match lookup s (s.qContext q) (pktParam p 0) bytes permR with
      | none => (countLookup s false).reply tag stTranslation
      | some (a, _) =>
        let s := countLookup s true
        if poolBytes < poolUsed s + bytes ∨ poolBytes < 4 * ((s.queue q).pool + bytes) then s.reply tag stBufferSpace
        else
          let hold := fun (s : State) => s.mapQueue q (fun x => { x with pool := x.pool + bytes })
          if isHost a then
            let ps := piecesIn a bytes
            let s := { hold s with
              unanswered := s.unanswered ++ [tag], submits := SMap.put s.submits tag { tag := tag, queue := q, bytes := bytes, waiting := ps.length } }
            ps.foldl (fun s e => s.hostReq { src := .submit tag, kind := .read, stream := streamFe, off := e.1, len := e.2 }) s
          else
            let t := agentRead s a bytes
            if t.2.2 then acceptBuffer (hold t.1) tag q bytes ((toBytes bytes t.2.1).map (fun b => b.toNat))
            else t.1.reply tag stUncorrectable)

/-! ### Queues (R268, R270) -/

/-- The lowest queue number that is FREE. -/
def freeQueue (s : State) : Option Nat := (List.range 1024).find? (fun q => decide (s.qState q = qFree) && decide (q ≠ 0))

def doQueueCreate (p : Pkt) (s : State) : State :=
  takePacket s p [ones 0 8, full, full] true (fun s =>
    let tag := p.tag.toNat
    let ctx := bits (pktParam p 0) 0 6
    if !(contextLive s ctx) then s.reply tag stInvalidArgument
    else
      match freeQueue s with
      | none => s.reply tag stInvalidState
      | some q =>
        match newObj s 3 ctx q false with
        | none => s.reply tag stInvalidState
        | some (t, obj) =>
          match registerEvent t ctx (pktParam p 2) with
          | (_, st, none) => s.reply tag st
          | (s, _, some (ev, phys)) =>
            let s := [Fld.FE_QUEUE_STATUS_ORPHAN, Fld.FE_QUEUE_STATUS_ORPHAN_HELD, Fld.FE_QUEUE_STATUS_ORPHAN_LOST,
              Fld.FE_QUEUE_STATUS_INFLIGHT].foldl (fun s f => s.rput f 0 0 q) s
            let s := (s.rput Fld.FE_QUEUE_STATUS_CONTEXT ctx 0 q).rput Fld.FE_QUEUE_STATUS_PRIO (bits (pktParam p 0) 6 2) 0 q
            let x : Queue := { seed := pktParam p 1, event := some phys, eventObj := some ev, obj := some obj }
            { s.setQState q qActive with queues := SMap.put s.queues q x }.reply tag stOk [q])

/-- Hold a command through a transition: the last one held replaces any before it. -/
def holdCmd (s : State) (q : Nat) (c : HeldCmd) : State :=
  (s.mapQueue q (fun x => { x with held := some c })).rput Fld.FE_QUEUE_STATUS_PENDING 1 0 q

/-- What a queue command finds, by the state it arrives in (R270). -/
inductive Arrival where
  | acts | held | noEffect | refused
deriving DecidableEq, Repr

def arriveEnable (st : Nat) : Arrival :=
  if st = qDisabling then .held else if st = qDisabled then .acts else if st = qActive then .noEffect else .refused
def arriveReset (st : Nat) : Arrival :=
  if st = qResetting then .held else if st = qGuilty then .acts else .refused
def arriveDestroy (st : Nat) : Arrival :=
  if st = qDisabling ∨ st = qResetting then .held else if st = qDestroying then .noEffect else .acts
def arriveDisable (st : Nat) : Arrival :=
  if st = qActive then .acts else if st = qDisabling ∨ st = qDisabled then .noEffect else .refused

/-- Carry out a queue command and answer it. -/
def queueCommand (s : State) (tag q : Nat) (a : Arrival) (c : Option HeldCmd) : State :=
  match a with
  | .acts => (queueAct s q c).reply tag stOk
  | .held => (match c with
    | some h => (holdCmd s q h).reply tag stPending
    | none => s.reply tag stOk)
  | .noEffect => s.reply tag stOk
  | .refused => s.reply tag stInvalidState

def doQueueDestroy (p : Pkt) (s : State) : State :=
  takePacket s p [ones 0 10] true (naming p (fun q s =>
    if q = 0 then s.reply p.tag.toNat stInvalidArgument
    else queueCommand s p.tag.toNat q (arriveDestroy (s.qState q)) (some .destroy)))

def doQueueDisable (p : Pkt) (s : State) : State :=
  takePacket s p [ones 0 10] true (naming p (fun q s =>
    if q = 0 then s.reply p.tag.toNat stInvalidArgument
    else queueCommand s p.tag.toNat q (arriveDisable (s.qState q)) none))

def doQueueEnable (p : Pkt) (s : State) : State :=
  takePacket s p [ones 0 10] true (naming p (fun q s => queueCommand s p.tag.toNat q (arriveEnable (s.qState q)) (some .enable)))

def doQueueReset (p : Pkt) (s : State) : State :=
  takePacket s p [ones 0 10] true (naming p (fun q s => queueCommand s p.tag.toNat q (arriveReset (s.qState q)) (some .reset)))

/-! ### Contexts (R268, R271, R336) -/

def doContextCreate (p : Pkt) (s : State) : State :=
  takePacket s p [] true (fun s =>
    match (List.range 64).find? (fun c => (SMap.find? s.contexts c).isNone) with
    | none => s.reply p.tag.toNat stInvalidState
    | some c => { s with contexts := SMap.put s.contexts c {} }.reply p.tag.toNat stOk [c])

/-- The queues of a context that exist. -/
def queuesOf (s : State) (context : Nat) : List Nat :=
  (s.queues.filter (fun e => decide (s.qState e.1 ≠ qFree) && decide (s.qContext e.1 = context))).map (fun (e : Nat × Queue) => e.1)

/-- CONTEXT_DESTROY: a member context's job sets are aborted and left, and each queue is destroyed as QUEUE_DESTROY does. -/
def doContextDestroy (p : Pkt) (s : State) : State :=
  takePacket s p [ones 0 6] true (fun s =>
    let tag := p.tag.toNat
    let ctx := pktParam p 0
    match SMap.find? s.contexts ctx with
    | none => s.reply tag stInvalidArgument
    | some c =>
      if ctx = 0 then s.reply tag stInvalidArgument
      else if c.destroying then s.reply tag stInvalidState
      else
        let s := abortJobsOf s ctx 4
        let s := (List.range 64).foldl (fun s j =>
          if jsMember s j && decide (s.rget Fld.EL_JOBSET_CONTEXT 0 j = ctx) && decide (jsState s j ≠ jsFree) && decide (jsState s j ≠ jsLeaving) then
            leaveSlot s j
          else s) s
        let s := { s with contexts := SMap.put s.contexts ctx { c with destroying := true } }
        let s := (queuesOf s ctx).foldl (fun s q =>
          match arriveDestroy (s.qState q) with
          | .acts => queueAct s q (some .destroy)
          | .held => holdCmd s q .destroy
          | _ => s) s
        s.reply tag stOk)

/-- The entries of a context in the object table that back its ranges and events: events first. -/
def entriesOf (s : State) (context : Nat) : List Nat :=
  ((s.eventObjs.map (fun (e : Nat × Nat) => e.1)).filter (fun i => decide (objContext s i = context))) ++
    (s.ranges.filter (fun e => decide (e.2.context = context))).map (fun (e : Nat × Range) => e.2.object)

/-- The destruction of a context ends: its queues are FREE; its lock groups, pairs, partition and ranges are released, its
entries are torn down, and its number is free (R271, R302). -/
def doContextDestroyDone (ctx : Nat) (s : State) : State :=
  match SMap.find? s.contexts ctx with
  | none => s
  | some c =>
    if !c.destroying || !(queuesOf s ctx).isEmpty then s
    else
      let s := (List.range 16).foldl (fun s g =>
        if s.rget Fld.L2_GROUP_STATE 0 g ≠ groupFree ∧ s.rget Fld.L2_GROUP_CONTEXT 0 g = ctx then
          { groupFreed s g with groupHeld := SMap.del s.groupHeld g, groupLoad := SMap.del s.groupLoad g }
        else s) s
      let s := (List.range 16).foldl (fun s p =>
        if s.flag Fld.FE_RALIGN_PAIR_VALID 0 p && decide (s.rget Fld.FE_RALIGN_PAIR_CONTEXT 0 p = ctx) then freePair s p else s) s
      let s := { s with allocs := s.allocs.filter (fun a => a.context != ctx) }
      let s := (entriesOf s ctx).foldl (fun s i => doTeardown i (putObj s i 1 3 2 objTeardown)) s
      { s with contexts := SMap.del s.contexts ctx }

/-! ### Registers and records (R9, R13, R285) -/

def doRegReadPacket (p : Pkt) (s : State) : State :=
  takePacket s p [full] false (fun s =>
    match regNamed (pktParam p 0) with
    | none => s.reply p.tag.toNat stInvalidArgument
    | some r =>
      let t := regRead s r
      t.1.reply p.tag.toNat stOk [t.2])

def doRegWritePacket (p : Pkt) (s : State) : State :=
  takePacket s p [full, full] false (fun s =>
    match regNamed (pktParam p 0) with
    | none => s.reply p.tag.toNat stInvalidArgument
    | some r =>
      if r.hasKrw && decide (p.queue.toNat ≠ 0) then s.reply p.tag.toNat stPrivilege
      else
        let t := regWrite s r (decide (p.queue.toNat = 0)) (pktParam p 1)
        t.1.reply p.tag.toNat t.2)

def doQueueQuery (p : Pkt) (s : State) : State :=
  takePacket s p [ones 0 10] false (naming p (fun q s =>
    s.reply p.tag.toNat stOk [(s.regWord Fld.FE_QUEUE_STATUS_STATE 0 q).toNat, (s.queue q).doneSeq,
      (s.regWord Fld.FE_QUEUE_SLOWDOWN_SLOWDOWN 0 q).toNat]))

/-- FALLBACK_READ: the oldest record leaves the ring. -/
def doFallbackRead (p : Pkt) (s : State) : State :=
  takePacket s p [ones 0 10] false (naming p (fun q s =>
    let held := s.rget Fld.FE_QUEUE_STATUS_ORPHAN_HELD 0 q
    if held = 0 then s.reply p.tag.toNat stInvalidState
    else
      let h := (s.queue q).ringHead
      let a := carveBase s + ringsOff + q * 2048 + 128 * h
      let ws := (List.range 16).map (fun i => s.readLE (a + 8 * i) 8)
      let s := (s.mapQueue q (fun x => { x with ringHead := (h + 1) % 16 })).rput Fld.FE_QUEUE_STATUS_ORPHAN_HELD (held - 1) 0 q
      s.reply p.tag.toNat stOk ws))

def doEcho (p : Pkt) (s : State) : State :=
  takePacket s p [full, full, full] false (fun s =>
    s.reply p.tag.toNat stOk [pktParam p 0, pktParam p 1, pktParam p 2])

def execSubmit (p : Pkt) (s : State) : Out State := .next (s.onClock (doSubmit p s))
def execQueueCreate (p : Pkt) (s : State) : Out State := .next (s.onClock (doQueueCreate p s))
def execQueueDestroy (p : Pkt) (s : State) : Out State := .next (s.onClock (doQueueDestroy p s))
def execQueueDisable (p : Pkt) (s : State) : Out State := .next (s.onClock (doQueueDisable p s))
def execQueueEnable (p : Pkt) (s : State) : Out State := .next (s.onClock (doQueueEnable p s))
def execQueueReset (p : Pkt) (s : State) : Out State := .next (s.onClock (doQueueReset p s))
def execContextCreate (p : Pkt) (s : State) : Out State := .next (s.onClock (doContextCreate p s))
def execContextDestroy (p : Pkt) (s : State) : Out State := .next (s.onClock (doContextDestroy p s))
def execRegReadPacket (p : Pkt) (s : State) : Out State := .next (s.onClock (doRegReadPacket p s))
def execRegWritePacket (p : Pkt) (s : State) : Out State := .next (s.onClock (doRegWritePacket p s))
def execQueueQuery (p : Pkt) (s : State) : Out State := .next (s.onClock (doQueueQuery p s))
def execFallbackRead (p : Pkt) (s : State) : Out State := .next (s.onClock (doFallbackRead p s))
def execEcho (p : Pkt) (s : State) : Out State := .next (s.onClock (doEcho p s))
def execContextDestroyDone (context : Fin 64) (s : State) : Out State := .next (s.onClock (doContextDestroyDone context s))

end Sys2Proof.Machine
end

