-- ==== Sys2Proof/Machine/Sched.lean ====
section
/-!
DEFINITION. Machine/Sched.lean: how launches compete for cores (R254, R280, R286, R289, R290): the placement of sheets, timed
launches, preemption, slices and forced switches; and the poll of host event words (R305).
-/
namespace Sys2Proof.Machine

/-! ### Who waits, and in what order (R289) -/

def prioOf (s : State) (q : Nat) : Nat := s.rget Fld.FE_QUEUE_STATUS_PRIO 0 q

/-- When a launch's node became ready. -/
def readySince (s : State) (r : NodeRef) : Nat := ((s.node r).bind (fun n => n.readyAt)).getD 0

/-- Does a launch with sheets to place come before another: higher PRIO first, then the earlier? -/
def ranksBefore (s : State) (a b : NodeRef) : Bool :=
  decide (prioOf s b.queue < prioOf s a.queue) ||
    (decide (prioOf s a.queue = prioOf s b.queue) && decide (readySince s a < readySince s b))

/-- Sheets of a launch that wait for a core. -/
def sheetsWaiting (L : Launch) : Nat := if L.aborting then 0 else L.saved.length + (L.sheets - L.nextSheet)

/-- Does a launch that comes before one have sheets for a core that has room for them? -/
def outranked (s : State) (L : Launch) (core : Nat) : Bool :=
  s.launches.any (fun e => decide (e.1 ≠ L.serial) && decide (0 < sheetsWaiting e.2) && decide (e.2.startAt ≤ s.now) &&
    ranksBefore s e.2.ref L.ref && decide (0 < coreRoom s e.2 core) && hasRoom s e.2)

/-- Place sheets of a launch where no launch before it could use the core; its node's watchdog runs again once none is saved
away. -/
def placeSheets (launch : Nat) (spots : List (Nat × Nat)) (s : State) : State :=
  match s.launch launch with
  | none => s
  | some L =>
    if !(feRuns s) || spots.any (fun p => outranked s L p.1) then s
    else
      let n := (s.launch launch).map sheetsWaiting
      let s := doPlace launch spots s
      if (s.launch launch).map sheetsWaiting = n then s
      else settleWatchdog (s.mapLaunch launch (fun L => { L with waitSince := s.now })) launch

/-! ### Timed launches (R280) -/

/-- START_AT arrives for a ready launch: one that cannot be placed then is late. -/
def doTimedLaunch (r : NodeRef) (s : State) : State :=
  match s.node r with
  | none => s
  | some n =>
    if !(feRuns s) || decide (n.typ ≠ ntLaunch) || decide (n.stage ≠ .waiting) || n.readyAt.isNone || decide (n.word 13 < s.now) ||
        decide (n.word 13 = 0) then s
    else
      let s := s.pass (n.word 13 - s.now)
      if noRoom s r then s.mapNode r (fun n => { n with late := true }) else s

/-! ### Preemption and slices (R289) -/

/-- A waiting launch: its context, how many sheets wait, and since when. -/
def waitingLaunch (s : State) (r : NodeRef) : Option (Nat × Nat × Nat) :=
  match s.node r with
  | none => none
  | some n =>
    if n.typ ≠ ntLaunch then none
    else if n.stage = .waiting then
      (match n.readyAt with
       | some t => if nodeReady s r.queue (((s.queue r.queue).buffer r.seq).getD { seq := 0, addr := 0, bytes := 0, concurrent := false, nodes := [] }) n then
           some (s.qContext r.queue, bits (n.word 9) 0 32, max t (n.word 13)) else none
       | none => none)
    else
      match s.launch n.launch with
      | some L => if n.stage = .running ∧ 0 < sheetsWaiting L then some (L.context, sheetsWaiting L, max L.waitSince L.startAt) else none
      | none => none

/-- Mark sheets for a forced switch: eligible ones of other contexts, on no more cores than the waiting launch has sheets. -/
def forceOff (s : State) (context sheets : Nat) (victims : List (Nat × Nat)) (eligible : Launch → Bool) : State :=
  let cores := (victims.map (fun v => v.1)).eraseDups
  if decide (sheets < cores.length) then s
  else
    markLeaving s (fun core h => victims.contains (core, h.uid) &&
      (match s.launch h.launch with
       | some L => decide (L.context ≠ context) && eligible L
       | none => false))

/-- A ready launch has waited longer than PREEMPT: sheets of lower-priority launches of other contexts are to go. -/
def doPreempt (r : NodeRef) (victims : List (Nat × Nat)) (s : State) : State :=
  match waitingLaunch s r with
  | none => s
  | some (ctx, sheets, since) =>
    if !(feRuns s) then s
    else
      let s := s.pass (since + 1000 * s.rget Fld.FE_SCHED_PREEMPT - s.now)
      forceOff s ctx sheets victims (fun L => decide (prioOf s L.queue < prioOf s r.queue))

/-- It has waited longer than SLICE: so are those of equal-priority launches that have run longer than SLICE. -/
def doSlice (r : NodeRef) (victims : List (Nat × Nat)) (s : State) : State :=
  match waitingLaunch s r with
  | none => s
  | some (ctx, sheets, since) =>
    if !(feRuns s) then s
    else
      let slice := 1000 * s.rget Fld.FE_SCHED_SLICE
      let s := s.pass (since + slice - s.now)
      forceOff s ctx sheets victims (fun L => decide (prioOf s L.queue = prioOf s r.queue) && decide (L.started + slice < s.now))

/-! ### The forced switch (R289, R290) -/

/-- The sheets that a forced switch saves: those marked, but for what a region's shutdown takes. -/
def outgoing (s : State) : List (Nat × Sheet) :=
  let held := s.cores.flatMap (fun c => if regionOn s (regionOf c.1) then [] else c.2.sheets.map (fun h => h.launch))
  s.cores.flatMap (fun c => (c.2.sheets.filter (fun h => h.leaving && !(held.contains h.launch))).map (fun h => (c.1, h)))

/-- Every outgoing tray has reached its safe point: the sheets are saved, sheets of the waiting launch come in, and the switch
is counted with its time. -/
def doSwitchForced (r : NodeRef) (spots : List (Nat × Nat)) (s : State) : State :=
  let hs := outgoing s
  if hs.isEmpty || !(hs.all (fun e => sheetQuiet s e.1 e.2)) || !(feRuns s) then s
  else
    let t := saveAll s hs
    let s := t.1.rbump Fld.FE_SWITCH_STATS_FORCED
    let incoming := match (s.node r).bind (fun n => s.launch n.launch) with
      | some L => some (L.serial, liveOf L (L.saved.take spots.length))
      | none => none
    let finish := fun (s : State) (live : Nat) =>
      s.rput Fld.FE_SWITCH_STATS_LAST_NS (min (2 ^ 32 - 1) (3000 + (roundFree ((t.2 + live : Nat) : Int) 6000).toNat))
    match incoming with
    | some (serial, live) =>
      let u := placeSheets serial spots s
      finish u (if (u.launch serial).map (fun L => L.saved.length) = (s.launch serial).map (fun L => L.saved.length) then 0 else live)
    | none => finish s 0

/-- The front end reads again, after 2 us, an event word on the host window that an EVENT_WAIT node watches (R305). -/
def doHostPoll (r : NodeRef) (s : State) : State :=
  match actNode s r ntWait with
  | none => s
  | some n =>
    let a := n.phys.getD 0 0
    if isHost a && decide (n.waiting = 0) then actRequests s r .read a 8 0 else s

/-! ### With no command waiting -/

/-- One period of MTCLK (R27), while the clocks run. -/
def idle (s : State) : State := s.onClock s.tick

def execSheetPlace (launch : Nat) (spots : List (Nat × Nat)) (s : State) : Out State := .next (s.onClock (placeSheets launch spots s))
def execTimedLaunchDue (r : NodeRef) (s : State) : Out State := .next (s.onClock (doTimedLaunch r s))
def execPreemptTimeout (r : NodeRef) (victims : List (Nat × Nat)) (s : State) : Out State := .next (s.onClock (doPreempt r victims s))
def execSliceTimeout (r : NodeRef) (victims : List (Nat × Nat)) (s : State) : Out State := .next (s.onClock (doSlice r victims s))
def execContextSwitchForced (r : NodeRef) (spots : List (Nat × Nat)) (s : State) : Out State :=
  .next (s.onClock (doSwitchForced r spots s))
def execHostEventPoll (r : NodeRef) (s : State) : Out State := .next (s.onClock (doHostPoll r s))

end Sys2Proof.Machine
end

