-- ==== Sys2Proof/Machine/Flags.lean ====
section
/-!
DEFINITION. Machine/Flags.lean: the events of the vector engine (R158): what one destination position counts, and the
first cause that it is counted under.
-/
namespace Sys2Proof.Machine

/-- The event of a position: invalid, overflow or underflow, or none. -/
inductive Ev where
  | none | inv | ovf | unf
deriving DecidableEq, Repr

/-- The event of one rounded result. -/
def FR.ev (r : FR) : Ev := if r.inv then .inv else if r.ovf then .ovf else if r.unf then .unf else .none

def Conv.ev (r : Conv) : Ev := if r.inv then .inv else if r.ovf then .ovf else if r.unf then .unf else .none

/-- The first cause stands (R158). -/
def Ev.first (a b : Ev) : Ev :=
  match a with
  | .none => b
  | _ => a

/-- A value of the compute precision with the event of its position so far. -/
structure EvVal where
  bits : Nat
  ev : Ev := .none
deriving DecidableEq, Repr

/-- A rounded result after earlier events. -/
def FR.after (r : FR) (e : Ev) : EvVal := { bits := r.bits, ev := e.first r.ev }

end Sys2Proof.Machine
end

