-- ==== Sys2Proof/Machine/VecArith.lean ====
section
/-!
DEFINITION. Machine/VecArith.lean: the arithmetic of the vector engine on values of the compute precision (R152 to
R158, R165, R166), and the digits and weights of sliced products (R125, R128, R129, R132).
-/
namespace Sys2Proof.Machine

/-- The compute precision (R145): 0 FP32, 1 FP64, 2 int32. -/
def precFmt (prec : Nat) : FFmt := if prec = 1 then Machine.fp64 else Machine.fp32

/-- A 32-bit pattern as a signed integer. -/
def s32 (v : Nat) : Int := signedOf 32 (v % 2 ^ 32)

/-- Conversion of a source element into the compute precision (R155). -/
def entryConv (prec : Nat) (fmt : VFmt) (field : Nat) : EvVal :=
  match fmt.float with
  | none =>
    let v := fmt.intVal field
    if prec = 2 then { bits := truncTo 32 v } else { bits := ((precFmt prec).ofInt v).bits }
  | some f =>
    if f = Machine.fp64 ∧ prec = 0 then ((f.convert Machine.fp32 field).after .none)
    else if f = precFmt prec then { bits := field }
    else { bits := f.widen (precFmt prec) field }

/-- May the source format enter the compute precision at all (R155)? -/
def entryLegal (prec : Nat) (fmt : VFmt) : Bool := !(decide (prec = 2) && fmt.float.isSome)

/-- One and zero of the compute precision. -/
def precOne (prec : Nat) : Nat := if prec = 2 then 1 else ((precFmt prec).ofInt 1).bits

/-- The value of an elementwise operation on int32 (R152, R153). -/
def intOp (op sub : Nat) (a b c : Nat) : Nat :=
  match op with
  | 0x01 => truncTo 32 (s32 a + s32 b)
  | 0x02 => truncTo 32 (s32 a - s32 b)
  | 0x03 => truncTo 32 (s32 a * s32 b)
  | 0x04 => truncTo 32 (s32 a * s32 b + s32 c)
  | 0x05 => if s32 b < s32 a then b else a
  | 0x06 => if s32 a < s32 b then b else a
  | 0x07 => truncTo 32 (if s32 a < 0 then -s32 a else s32 a)
  | 0x08 => truncTo 32 (-s32 a)
  | 0x0B => b2nat (cmp sub (s32 a) (s32 b))
  | 0x0C => if c ≠ 0 then a else b
  | 0x10 => a &&& b
  | 0x11 => a ||| b
  | 0x12 => a ^^^ b
  | 0x13 => (a * 2 ^ (b % 32)) % 2 ^ 32
  | 0x14 => truncTo 32 (s32 a / ((2 ^ (b % 32) : Nat) : Int))
  | 0x15 => a / 2 ^ (b % 32)
  | _ => a
where
  b2nat (x : Bool) : Nat := if x then 1 else 0
  cmp (code : Nat) (x y : Int) : Bool :=
    match code with
    | 0 => decide (x = y)
    | 1 => decide (x ≠ y)
    | 2 => decide (x < y)
    | 3 => decide (x ≤ y)
    | 4 => decide (x > y)
    | _ => decide (x ≥ y)

/-- The value and event of an elementwise operation on floats (R152, R157, R158). -/
def floatOp (f : FFmt) (op sub one : Nat) (a b c : Nat) : FR :=
  match op with
  | 0x01 => f.add a b
  | 0x02 => f.sub a b
  | 0x03 => f.mul a b
  | 0x04 => f.fma a b c
  | 0x05 => f.min a b
  | 0x06 => f.max a b
  | 0x07 => f.abs a
  | 0x08 => f.negate a
  | 0x09 => f.div a b
  | 0x0A => f.sqrt a
  | 0x0B =>
    let x := f.decode a
    let y := f.decode b
    { bits := if FV.cmp sub x y then one else 0, inv := x.isSNaN || y.isSNaN }
  | _ =>
    -- 0x00 VCVT and any other: the value itself, a NaN canonical
    let x := f.decode a
    if x.isNaN then f.nan x.isSNaN else { bits := a }

/-- VSEL: the selected operand; a NaN canonical, and invalid only when it is signalling (R158). -/
def selectOp (prec : Nat) (a b c : EvVal) : EvVal :=
  if prec = 2 then { bits := if c.bits ≠ 0 then a.bits else b.bits }
  else
    let f := precFmt prec
    let v := if (f.decode c.bits).isZero then b else a
    let d := f.decode v.bits
    if d.isNaN then { bits := f.nanBits, ev := v.ev.first (if d.isSNaN then .inv else .none) } else v

/-- VCVT counts nothing of its own: a NaN is made canonical by the sink or the next member; a signalling one is
counted invalid as an operand (R155, R158). -/
def elementOp (prec op sub : Nat) (a b c : EvVal) : EvVal :=
  if op = 0x0C then selectOp prec a b c
  else
    let before := (a.ev.first b.ev).first c.ev
    if prec = 2 then { bits := intOp op sub a.bits b.bits c.bits, ev := before }
    else (floatOp (precFmt prec) op sub (precOne prec) a.bits b.bits c.bits).after before

/-! ### Function tables (R163, R165, R166) -/

def tblWord (words : List Nat) (i : Nat) : Nat := words.getD i 0

/-- A tail: a zero slope returns the intercept exactly (R165). -/
def tailEval (slope icpt : Nat) (x : EvVal) : EvVal :=
  if (Machine.fp32.decode slope).isZero then { bits := icpt, ev := x.ev }
  else
    let p := (Machine.fp32.mul slope x.bits).after x.ev
    (Machine.fp32.add p.bits icpt).after p.ev

/-- Where an argument falls: outside on the left or right, in a segment with its fraction, or nowhere (a NaN). -/
inductive Seg where
  | nan (ev : Ev)
  | left (ev : Ev)
  | right (ev : Ev)
  | seg (i t : Nat) (ev : Ev)
deriving DecidableEq, Repr

def locate (words : List Nat) (x : EvVal) : Seg :=
  let f := Machine.fp32
  let d := f.decode x.bits
  if d.isNaN then .nan (x.ev.first (if d.isSNaN then .inv else .none))
  else
    let u := (f.sub x.bits (tblWord words 0)).after x.ev
    let w := (f.mul u.bits (tblWord words 1)).after u.ev
    match f.decode w.bits with
    | .nan _ => .nan w.ev
    | .inf n => if n then .left w.ev else .right w.ev
    | .fin n m e =>
      let i := floorOf n m e
      if i < 0 then .left w.ev
      else if 256 ≤ i then .right w.ev
      else .seg i.toNat (f.sub w.bits (f.ofInt i).bits).bits w.ev

/-- eval of R165. -/
def tableEval (words : List Nat) (x : EvVal) : EvVal :=
  let f := Machine.fp32
  match locate words x with
  | .nan e => { bits := f.nanBits, ev := e }
  | .left e => tailEval (tblWord words 2) (tblWord words 3) { x with ev := e }
  | .right e => tailEval (tblWord words 4) (tblWord words 5) { x with ev := e }
  | .seg i t e =>
    let c := fun (j : Nat) => tblWord words (16 + 4 * i + j)
    let a := (f.mul t (c 3)).after e
    let a := (f.add (c 2) a.bits).after a.ev
    let a := (f.mul t a.bits).after a.ev
    let a := (f.add (c 1) a.bits).after a.ev
    let a := (f.mul t a.bits).after a.ev
    (f.add (c 0) a.bits).after a.ev

/-- The derivative of the forward segment, in cross mode (R166). -/
def crossEval (words : List Nat) (x : EvVal) : EvVal :=
  let f := Machine.fp32
  let two := (f.ofInt 2).bits
  let three := (f.ofInt 3).bits
  match locate words x with
  | .nan e => { bits := f.nanBits, ev := e }
  | .left e => { bits := tblWord words 2, ev := e }
  | .right e => { bits := tblWord words 4, ev := e }
  | .seg i t e =>
    let c := fun (j : Nat) => tblWord words (16 + 4 * i + j)
    let b2 := (f.mul two (c 2)).after e
    let b3 := (f.mul three (c 3)).after b2.ev
    let a := (f.mul t b3.bits).after b3.ev
    let a := (f.add b2.bits a.bits).after a.ev
    let a := (f.mul t a.bits).after a.ev
    let a := (f.add (c 1) a.bits).after a.ev
    (f.mul a.bits (tblWord words 1)).after a.ev

/-! ### Reductions (R154) -/

/-- Two values combined by a reduction: 0x20 sum, 0x21 least, 0x22 greatest. -/
def combine (prec op : Nat) (a b : EvVal) : EvVal :=
  let before := a.ev.first b.ev
  let el := if op = 0x20 then 0x01 else if op = 0x21 then 0x05 else 0x06
  if prec = 2 then { bits := intOp el 0 a.bits b.bits 0, ev := before }
  else (floatOp (precFmt prec) el 0 0 a.bits b.bits 0).after before

/-- The partials: partial j takes the positions c with c mod 32 = j in ascending order. The event is the first that arises,
position after position. -/
def partials (prec op : Nat) : List Nat → Nat → List (Option Nat) → Ev → List (Option Nat) × Ev
  | [], _, ps, e => (ps, e)
  | v :: vs, c, ps, e =>
    match ps.getD (c % 32) none with
    | none => partials prec op vs (c + 1) (ps.set (c % 32) (some v)) e
    | some w =>
      let r := combine prec op { bits := w } { bits := v }
      partials prec op vs (c + 1) (ps.set (c % 32) (some r.bits)) (e.first r.ev)

/-- One level: neighbours are combined; a partner of nothing passes up unchanged. -/
def pairUp (prec op : Nat) : List (Option Nat) → Ev → List (Option Nat) × Ev
  | a :: b :: rest, e =>
    match a, b with
    | some x, some y =>
      let r := combine prec op { bits := x } { bits := y }
      let q := pairUp prec op rest (e.first r.ev)
      (some r.bits :: q.1, q.2)
    | some x, none => let q := pairUp prec op rest e; (some x :: q.1, q.2)
    | none, y => let q := pairUp prec op rest e; (y :: q.1, q.2)
  | rest, e => (rest, e)

/-- So many levels. -/
def levels (prec op : Nat) : Nat → List (Option Nat) × Ev → List (Option Nat) × Ev
  | 0, p => p
  | n + 1, p => levels prec op n (pairUp prec op p.1 p.2)

/-- A row reduced: what its positions bring with them is counted first, then the 32 partials, then five levels. A row of one
signalling NaN is still counted as an operand. -/
def reduceRow (prec op : Nat) (row : List EvVal) : EvVal :=
  let before := row.foldl (fun e v => e.first v.ev) Ev.none
  let l5 := levels prec op 5 (partials prec op (row.map (fun v => v.bits)) 0 (List.replicate 32 none) before)
  match l5.1 with
  | some v :: _ =>
    if prec = 2 then { bits := v, ev := l5.2 }
    else
      let d := (precFmt prec).decode v
      if d.isNaN then { bits := (precFmt prec).nanBits, ev := l5.2.first (if d.isSNaN then .inv else .none) }
      else { bits := v, ev := l5.2 }
  | _ => { bits := 0 }

/-! ### Slicing (R125, R128, R129, R132) -/

/-- ENAN and EZERO (R128). -/
def eNan : Int := 32767
def eZero : Int := -32768

/-- The shared exponent of one element. -/
def elemExp (v : FV) : Int :=
  match v with
  | .nan _ => eNan
  | .inf _ => eNan
  | .fin _ m _ => if m = 0 then eZero else v.ilog2

/-- The alignment position L = 8S - 3 (R125). -/
def alignPos (slices : Nat) : Int := 8 * (slices : Int) - 3

/-- The digits of an aligned integer, least significant first: balanced digits, and the rest as s_1 (R129). -/
def digitsOf : Nat → Int → List Int
  | 0, _ => []
  | 1, m => [m]
  | n + 2, m =>
    let d0 := m % 256
    let d := if d0 ≥ 128 then d0 - 256 else d0
    d :: digitsOf (n + 1) ((m - d) / 256)

/-- SLICE of one element under a shared exponent: its digits, s_1 first, or the fault of R129. -/
def sliceElem (slices : Nat) (v : FV) (e : Int) : Option (List Int) :=
  if e = eNan then some (List.replicate slices 0)
  else match v with
    | .nan _ => none
    | .inf _ => none
    | .fin n m x =>
      if m = 0 then some (List.replicate slices 0)
      else if e = eZero ∨ e < v.ilog2 then none
      else some ((digitsOf slices (rintOf n m (x + alignPos slices - e))).reverse)

/-- Passes of a class with S slices: pairs with i + j ≤ S + 1. -/
def passCount (slices : Nat) : Nat := slices * (slices + 1) / 2

/-- The pairs in position order: d from S + 1 down to 2, i ascending (R132). -/
def passPairs (slices : Nat) : List (Nat × Nat) :=
  (List.range slices).flatMap (fun k =>
    let d := slices + 1 - k
    (List.range (d - 1)).map (fun i => (i + 1, d - (i + 1))))

/-- The weight exponent of a position: w = 8 (2S - d). -/
def passWeight (slices p : Nat) : Nat :=
  let ij := (passPairs slices).getD p (1, 1)
  8 * (2 * slices - (ij.1 + ij.2))

end Sys2Proof.Machine
end

