-- ==== Sys2Proof/Machine/Vector.lean ====
section
/-!
DEFINITION. Machine/Vector.lean: the issue of VEC instructions into the engine's queue (R142 to R149, R152, R160,
R167): one shared operation, and one meaning for each row.
-/
namespace Sys2Proof

/-! ### Fields of a VEC word (R145) -/

def TrayOp.vImm (o : TrayOp) : Bool := decide (o.fld 12 1 = 1)
def TrayOp.vChain (o : TrayOp) : Bool := decide (o.fld 11 1 = 1)
def TrayOp.vCin (o : TrayOp) : Bool := decide (o.fld 10 1 = 1)
def TrayOp.vPrec (o : TrayOp) : Nat := o.fld 8 2
def TrayOp.vSr (o : TrayOp) : Bool := decide (o.fld 7 1 = 1)
def TrayOp.vTsrc (o : TrayOp) : Bool := decide (o.fld 6 1 = 1)
def TrayOp.vTq (o : TrayOp) : Nat := o.fld 4 2
def TrayOp.vRel (o : TrayOp) : Bool := decide (o.fld 3 1 = 1)
def TrayOp.vSub (o : TrayOp) : Nat := o.fld 0 3

end Sys2Proof

namespace Sys2Proof.Machine

/-- A descriptor's fields (R142). -/
def descOf (v : Nat) : Stream :=
  { offset := bits v 0 20, fmt := bits v 20 4, cols := bits v 24 12 + 1, rows := bits v 36 12 + 1, pitch := bits v 48 16 }

/-- Reductions; stage instructions with VLDT, which are never chain members (R147). -/
def isReduction (op : Nat) : Bool := op == 0x20 || op == 0x21 || op == 0x22
def isLone (op : Nat) : Bool := op == 0x40 || op == 0x50 || op == 0x51 || op == 0x52 || op == 0x53

/-- How many of the operands a, b, c an operation needs (R152). -/
def vArity (op : Nat) : Nat :=
  if op = 0x04 ∨ op = 0x0C then 3
  else if op = 0x01 ∨ op = 0x02 ∨ op = 0x03 ∨ op = 0x05 ∨ op = 0x06 ∨ op = 0x09 ∨ op = 0x0B ∨ (0x10 ≤ op ∧ op ≤ 0x15)
  then 2 else 1

/-- The PREC column of R152 and R167. -/
def vPrecLegal (op prec : Nat) : Bool :=
  if isLone op then true
  else if op = 0x09 ∨ op = 0x0A then decide (prec ≤ 1)
  else if 0x10 ≤ op ∧ op ≤ 0x15 then decide (prec = 2)
  else if op = 0x30 ∨ op = 0x41 ∨ op = 0x42 then decide (prec = 0)
  else if op = 0x31 then decide (prec = 1 ∨ prec = 2)
  else decide (prec ≤ 2)

/-- The SUB values an operation defines (R152, R164 to R167). -/
def vSubLegal (op sub : Nat) : Bool :=
  if op = 0x0B then decide (sub < 6)
  else if op = 0x40 then true
  else if op = 0x41 ∨ op = 0x42 then decide (sub < 4)
  else if op = 0x50 ∨ op = 0x53 then decide (sub < 2)
  else if op = 0x51 then decide (2 ≤ sub)
  else decide (sub = 0)

/-- The formats a slicing class accepts (R125): 1 FP64-, 2 FP32-, 3 BF16-class. -/
def classAccepts (cls fmt : Nat) : Bool :=
  if cls = 1 then decide (fmt < 4) else if cls = 2 then decide (1 ≤ fmt) && decide (fmt < 4)
  else decide (2 ≤ fmt) && decide (fmt < 4)

/-- Is a code ZERO or a descriptor pair of the launch (R43, R145)? -/
def descLegal (L : Launch) (code : Nat) : Bool := legalSrc64 L code

/-- Does the instruction read SRC_A? It is ignored with TSRC or CIN (R145), except that RECOMB always names its region
there (R167). -/
def usesA (o : TrayOp) (op : Nat) : Bool := op == 0x52 || !(o.vTsrc || o.vCin)

/-- What a reduction with DST ZERO writes (R154). -/
def redRegs (o : TrayOp) (op : Nat) : List Nat :=
  if isReduction op ∧ o.dst.toNat = codeZero then
    (if o.vPrec = 0 then [o.srcC.toNat] else [o.srcC.toNat, o.srcC.toNat + 1])
  else []

/-- The register that takes the tile's saturation count (R161). -/
def countRegs (o : TrayOp) : List Nat :=
  if o.vTsrc ∧ o.srcB.toNat ≠ codeZero then [o.srcB.toNat] else []

/-- The static legality of a VEC word (R145 to R147, R152, R156, R160, R167). -/
def vLegal (o : TrayOp) (op : Nat) (L : Launch) : Bool :=
  let lit := o.lit.toNat
  let zB := decide (o.srcB.toNat = codeZero)
  let zC := decide (o.srcC.toNat = codeZero)
  let zA := decide (o.srcA.toNat = codeZero)
  let zD := decide (o.dst.toNat = codeZero)
  let elementwise := !(isReduction op) && !(isLone op)
  vPrecLegal op o.vPrec && vSubLegal op o.vSub &&
    -- registers and descriptor pairs
    descLegal L o.dst.toNat && (!(usesA o op) || descLegal L o.srcA.toNat) &&
    (if o.vTsrc then zB || legalDst L o.srcB.toNat else descLegal L o.srcB.toNat) &&
    (if isReduction op && zD then
       (if o.vPrec = 0 then legalDst L o.srcC.toNat else legalDst64 L o.srcC.toNat)
     else descLegal L o.srcC.toNat) &&
    -- stochastic rounding, tiles, chains
    (!o.vSr || op == 0x00) &&
    (!o.vTsrc || op == 0x30 || op == 0x31 || op == 0x52) && !(o.vTsrc && o.vCin) &&
    !(o.vCin && (op == 0x30 || op == 0x31)) &&
    !((o.vChain || o.vCin) && isLone op) && !(o.vChain && isReduction op) && !(o.vChain && !zD) &&
    -- operands that are needed
    (isLone op || !(usesA o op) || !zA) &&
    (decide (vArity op < 2) || !zB || o.vImm) &&
    (decide (vArity op < 3) || !zC || (o.vImm && !(decide (o.vPrec = 1) && zB))) &&
    (!elementwise || o.vChain || !zD) &&
    (op != 0x30 || o.vImm) &&
    -- literal fields that must be zero
    (!(o.vSr && o.vImm) || decide (lit < 2 ^ 40)) && (op != 0x51 || (o.vImm && decide (lit < 2 ^ 20))) &&
    (op != 0x52 || (o.vImm && decide (lit < 2 ^ 5))) &&
    -- the stage instructions' fields
    (op != 0x50 || (!zA && !zD)) && (op != 0x51 || (!zA && !zB && !zD)) &&
    (op != 0x52 || (!zA && zD && (o.vTsrc || !zB))) &&
    (op != 0x53 || (!zA && !zB && !zC && (zD != decide (o.vSub % 2 = 1))))

/-- Legality that depends on the descriptors' formats and offsets (R155, R156, R167). -/
def vDynLegal (v : VInstr) : Bool :=
  let fmtOk := fun (d : Option Stream) => match d with
    | none => true
    | some d => (match VFmt.ofCode d.fmt with
      | none => true
      | some f => entryLegal v.prec f)
  let floatIn := match v.srcA with
    | none => true
    | some d => decide (d.fmt < 4) || decide (13 ≤ d.fmt)
  if v.op = 0x50 then floatIn
  else if v.op = 0x51 then (match v.srcA with
    | none => true
    | some d => decide (13 ≤ d.fmt) || classAccepts (v.sub / 2) d.fmt)
  else if v.op = 0x52 ∨ v.op = 0x53 then (match v.srcA with
    | none => true
    | some d => decide (d.offset % 64 = 0))
  else if v.op = 0x40 then true
  else (v.tsrc || v.op == 0x30 || v.op == 0x31 || fmtOk v.srcA) && (v.tsrc || fmtOk v.srcB) &&
    (isReduction v.op || fmtOk v.srcC) &&
    (!v.sr || (match v.dst with
      | none => true
      | some d => !(decide (d.fmt = 0) || decide (d.fmt = 1) || decide (d.fmt = 3))))

/-- The entry of the tray's open chain, if it has one. -/
def openEntry (c : Core) (slot : Nat) : Option VEntry := c.veq.find? (fun e => e.slot == slot && !e.closed)

/-- Queue entries held: one for each member (R149). -/
def veUsed (c : Core) : Nat := (c.veq.map (fun e => e.members.length)).foldl (· + ·) 0

/-- The registers a VEC instruction reads at issue. -/
def vReads (o : TrayOp) (op : Nat) : List Nat :=
  (if usesA o op then regsOf o.srcA.toNat 2 else []) ++ (if o.vTsrc then [] else regsOf o.srcB.toNat 2) ++
    (if isReduction op ∧ o.dst.toNat = codeZero then [] else regsOf o.srcC.toNat 2) ++ regsOf o.dst.toNat 2

/-- The instruction as it enters the queue, its descriptors read in one lane. -/
def vInstr (x : Ctx) (o : TrayOp) (op lane : Nat) : VInstr :=
  let d := fun (code : Nat) => if code = codeZero then none else some (descOf (x.src64 code lane))
  let red := decide (isReduction op) && decide (o.dst.toNat = codeZero)
  { op := op, dst := d o.dst.toNat, srcA := if usesA o op then d o.srcA.toNat else none
    srcB := if o.vTsrc then none else d o.srcB.toNat, srcC := if red then none else d o.srcC.toNat
    regB := if o.vTsrc then o.srcB.toNat else codeZero, regC := if red then o.srcC.toNat else codeZero
    imm := o.vImm, lit := if o.vImm then o.lit.toNat else 0, prec := o.vPrec, sr := o.vSr, tsrc := o.vTsrc
    tq := o.vTq, rel := o.vRel, sub := o.vSub }

/-- Is the tile-queue entry FILLING or READY and the sheet's (R160)? -/
def tileOwned (c : Core) (sheet tq : Nat) : Bool :=
  (c.entry tq).state != TqState.free && (c.entry tq).sheet == sheet

/-- Put an instruction into the queue: it opens a chain, joins the tray's open one, or stands alone (R147 to R149). -/
def enqueue (x : Ctx) (v : VInstr) (chain cin : Bool) (lane : Option Nat) (ecc : Ecc) : State :=
  let c := x.s.core x.core
  let serial := match openEntry c x.slot with
    | some e => if cin then e.serial else x.serial
    | none => x.serial
  let veq :=
    if cin then c.veq.map (fun e =>
      if e.slot == x.slot && !e.closed then { e with members := e.members ++ [v], closed := !chain } else e)
    else c.veq ++ [{
      serial := serial, slot := x.slot, sheet := x.t.sheet, launch := x.L.serial, members := [v], closed := !chain
      lane := lane, tableEcc := ecc }]
  -- a chain with no lane does nothing
  let veq := veq.filter (fun e => !(e.closed && e.lane.isNone))
  let s := x.s.mapCore x.core (fun c => { c with veq := veq })
  let y := { x with s := s }
  y.bumpSerial.issueWith (if v.imm then 2 else 1) (if lane.isNone then none else some {
    serial := x.serial, kind := .external serial, longLatency := true
    regs := (if v.regC ≠ codeZero then (if v.prec = 0 then [v.regC] else [v.regC, v.regC + 1]) else []) ++
      (if v.regB ≠ codeZero then [v.regB] else []) })

/-- Issue of a VEC instruction. -/
def vIssue (o : TrayOp) (op : Nat) (s : State) : State :=
  issueAny o s (fun x =>
    let c := s.core x.core
    let opened := openEntry c x.slot
    -- CIN follows a CHAIN member, and only it; at most four members, one PREC (R147)
    let chainOk := match opened with
      | none => !o.vCin
      | some e => o.vCin && decide (e.members.length < 4) && e.members.all (fun m => m.prec == o.vPrec)
    let lane := match opened with
      | some e => e.lane
      | none => Mask.lowest x.on
    x.withRegs (vLegal o op x.L && chainOk) (vReads o op ++ redRegs o op ++ countRegs o)
      (if 8 ≤ veUsed c then x.s
       else match lane with
         | none =>
           if o.vChain || o.vCin then enqueue x (vInstr x o op 0) o.vChain o.vCin none .clean
           else x.issueWith (if o.vImm then 2 else 1) none
         | some l =>
           let v := vInstr x o op l
           if !(vDynLegal v) then x.illegal
           else if o.vTsrc && !(tileOwned c x.t.sheet o.vTq) then x.fault stVectorOperand
           else enqueue x v o.vChain o.vCin (some l) o.unitEcc))

def execVcvt (o : TrayOp) (s : State) : Out State := .next (s.onClock (vIssue o 0x00 s))
def execVadd (o : TrayOp) (s : State) : Out State := .next (s.onClock (vIssue o 0x01 s))
def execVsub (o : TrayOp) (s : State) : Out State := .next (s.onClock (vIssue o 0x02 s))
def execVmul (o : TrayOp) (s : State) : Out State := .next (s.onClock (vIssue o 0x03 s))
def execVfma (o : TrayOp) (s : State) : Out State := .next (s.onClock (vIssue o 0x04 s))
def execVmin (o : TrayOp) (s : State) : Out State := .next (s.onClock (vIssue o 0x05 s))
def execVmax (o : TrayOp) (s : State) : Out State := .next (s.onClock (vIssue o 0x06 s))
def execVabs (o : TrayOp) (s : State) : Out State := .next (s.onClock (vIssue o 0x07 s))
def execVneg (o : TrayOp) (s : State) : Out State := .next (s.onClock (vIssue o 0x08 s))
def execVdiv (o : TrayOp) (s : State) : Out State := .next (s.onClock (vIssue o 0x09 s))
def execVsqrt (o : TrayOp) (s : State) : Out State := .next (s.onClock (vIssue o 0x0A s))
def execVcmp (o : TrayOp) (s : State) : Out State := .next (s.onClock (vIssue o 0x0B s))
def execVsel (o : TrayOp) (s : State) : Out State := .next (s.onClock (vIssue o 0x0C s))
def execVand (o : TrayOp) (s : State) : Out State := .next (s.onClock (vIssue o 0x10 s))
def execVor (o : TrayOp) (s : State) : Out State := .next (s.onClock (vIssue o 0x11 s))
def execVxor (o : TrayOp) (s : State) : Out State := .next (s.onClock (vIssue o 0x12 s))
def execVshl (o : TrayOp) (s : State) : Out State := .next (s.onClock (vIssue o 0x13 s))
def execVshra (o : TrayOp) (s : State) : Out State := .next (s.onClock (vIssue o 0x14 s))
def execVshrl (o : TrayOp) (s : State) : Out State := .next (s.onClock (vIssue o 0x15 s))
def execVrsum (o : TrayOp) (s : State) : Out State := .next (s.onClock (vIssue o 0x20 s))
def execVrmin (o : TrayOp) (s : State) : Out State := .next (s.onClock (vIssue o 0x21 s))
def execVrmax (o : TrayOp) (s : State) : Out State := .next (s.onClock (vIssue o 0x22 s))
def execTscale (o : TrayOp) (s : State) : Out State := .next (s.onClock (vIssue o 0x30 s))
def execTcopy (o : TrayOp) (s : State) : Out State := .next (s.onClock (vIssue o 0x31 s))
def execVldt (o : TrayOp) (s : State) : Out State := .next (s.onClock (vIssue o 0x40 s))
def execVfun (o : TrayOp) (s : State) : Out State := .next (s.onClock (vIssue o 0x41 s))
def execVder (o : TrayOp) (s : State) : Out State := .next (s.onClock (vIssue o 0x42 s))
def execExpmax (o : TrayOp) (s : State) : Out State := .next (s.onClock (vIssue o 0x50 s))
def execSlice (o : TrayOp) (s : State) : Out State := .next (s.onClock (vIssue o 0x51 s))
def execRecomb (o : TrayOp) (s : State) : Out State := .next (s.onClock (vIssue o 0x52 s))
def execRclose (o : TrayOp) (s : State) : Out State := .next (s.onClock (vIssue o 0x53 s))

end Sys2Proof.Machine
end

