-- ==== Sys2Proof/Machine/VecEngine.lean ====
section
/-!
DEFINITION. Machine/VecEngine.lean: the vector engine at work: the checks at start (R143, R144, R160, R164, R167), the
evaluation of instructions and chains, the slicing stages (R127 to R136), start and completion (R149, R151, R161).
-/
namespace Sys2Proof.Machine

def VFmt.ofStream (d : Stream) : VFmt := (VFmt.ofCode d.fmt).getD .s8
def Stream.width (d : Stream) : Nat := (VFmt.ofStream d).width

/-- The field of element (r, c) of a stream whose offset 0 lies at address `base` (R142). -/
def elemField (s : State) (base : Nat) (d : Stream) (r c : Nat) : Nat :=
  let w := d.width
  let row := base + d.offset + r * d.pitchBytes w
  if w < 8 then bits (s.byte (row + c * w / 8)).toNat (c * w % 8) w else s.readLE (row + c * (w / 8)) (w / 8)

/-- An element of a source whose shape is the operation's, or one row or one column of it (R144). -/
def broadcastField (s : State) (base : Nat) (d : Stream) (r c : Nat) : Nat :=
  elemField s base d (if d.rows = 1 then 0 else r) (if d.cols = 1 then 0 else c)

def shapeOk (d : Stream) (rows cols : Nat) : Bool :=
  (d.rows == rows && d.cols == cols) || (d.rows == 1 && d.cols == cols) || (d.rows == rows && d.cols == 1)

/-- The fields of a row packed from bit 0 upward, unused fields of the last byte zero (R108). -/
def packRow (w : Nat) (fields : List Nat) : Nat := fields.foldr (fun f acc => f + acc * 2 ^ w) 0

/-- The memory writes that put rows of fields into a stream: one write when the rows lie end to end. -/
def streamWrites (base : Nat) (d : Stream) (rows : List (List Nat)) : List (Nat × Nat × Nat) :=
  let w := d.width
  let rb := d.rowBytes w
  let vals := rows.map (packRow w)
  if d.pitchBytes w = rb then
    [(base + d.offset, rb * rows.length, vals.foldr (fun v acc => v + acc * 256 ^ rb) 0)]
  else vals.zipIdx.map (fun p => (base + d.offset + p.2 * d.pitchBytes w, rb, p.1))

/-! ### Checks at start -/

/-- Does the placement put an FP64, FP32 or int32 row start off a multiple of the element size (R143)? -/
def rowStartOk (d : Stream) : Bool :=
  let w := d.width
  if w < 32 then true
  else decide (d.offset % (w / 8) = 0) && (d.rows == 1 || decide (d.pitchBytes w % (w / 8) = 0))

/-- All streams that an instruction names. -/
def VInstr.streams (v : VInstr) : List Stream :=
  match v.op with
  | 0x40 => []
  | 0x52 => v.srcB.toList
  | 0x53 => v.srcB.toList ++ v.srcC.toList ++ v.dst.toList
  | _ => v.srcA.toList ++ v.srcB.toList ++ v.srcC.toList ++ v.dst.toList

/-- The shape of an instruction or chain: the destination's, or, for a reduction and within a chain, the first source's
(R144, R147). -/
def chainShape (ms : List VInstr) : Nat × Nat :=
  match ms.head?, ms.getLast? with
  | some f, some l =>
    let src := if f.tsrc then (64, 64) else match f.srcA with
      | some d => (d.rows, d.cols)
      | none => (1, 1)
    if isReduction l.op ∨ 1 < ms.length then src
    else match l.dst with
      | some d => (d.rows, d.cols)
      | none => src
  | _, _ => (1, 1)

/-- The shape rules of R144 and R154. -/
def shapesOk (ms : List VInstr) : Bool :=
  let (rows, cols) := chainShape ms
  let src := fun (d : Option Stream) => match d with
    | none => true
    | some d => shapeOk d rows cols
  ms.zipIdx.all (fun p =>
    let v := p.1
    (if v.tsrc && p.2 == 0 then rows == 64 && cols == 64 else if p.2 = 0 then src v.srcA else true) &&
      src v.srcB && src v.srcC &&
      (match v.dst with
       | none => !(isReduction v.op && decide (v.regC ≠ codeZero)) || rows == 1
       | some d => if isReduction v.op then d.rows == rows && d.cols == 1 else d.rows == rows && d.cols == cols))

/-- The stage instructions' stream rules (R129, R133, R167). -/
def stageOk (s : State) (base : Nat) (v : VInstr) : Bool :=
  let expVec := fun (d : Option Stream) => match d with
    | none => false
    | some d => d.fmt == 5 && d.rows * d.cols == 64
  match v.op with
  | 0x50 => expVec v.dst && (match v.srcA with
      | some d => decide ((if v.sub % 2 = 0 then d.rows else d.cols) ≤ 64)
      | none => false)
  | 0x51 => expVec v.srcB && (match v.srcA, v.dst with
      | some a, some d =>
        let k := if v.sub % 2 = 0 then a.cols else a.rows
        (if v.sub % 2 = 0 then a.rows else a.cols) == 64 && d.rows == k && d.cols == 64 && d.width == 8
      | _, _ => false)
  | 0x52 => v.tsrc || (match v.srcB with
      | some d => d.fmt == 4 && d.rows == 64 && d.cols == 64
      | none => false)
  | 0x53 => expVec v.srcB && expVec v.srcC && (match v.srcA with
      | none => false
      | some a =>
        let mode := bits (s.readLE (base + a.offset) 8) 5 2
        (match v.dst with
         | none => true
         | some d => d.rows == 64 && d.cols == 64 &&
            (d.fmt == 0 || d.fmt == 1 || (d.fmt == 2 && decide (mode ≠ 1)))))
  | _ => true

/-- A destination may overlap a source only where the two extents are identical (R143). -/
def overlapOk (ms : List VInstr) : Bool :=
  let srcs := ms.flatMap (fun v => v.extents.1)
  let dsts := ms.flatMap (fun v => v.extents.2)
  dsts.all (fun d => srcs.all (fun x => !(overlaps d x) || d == x))

/-- The table slot's part of the checks (R164): the status, 0 when it stands. -/
def tableCheck (c : Core) (context : Nat) (ecc : Ecc) (v : VInstr) : Nat :=
  if v.op ≠ 0x41 ∧ v.op ≠ 0x42 then 0
  else
    let fwd := c.table v.sub
    let der := c.table (v.sub + 4)
    let t := if v.op = 0x42 && (der.valid || der.bad) then der else fwd
    if t.bad ∨ ecc = .uncorrectable then stUncorrectable
    else if t.valid ∧ t.tag = context then 0
    else stVectorOperand

/-- The recombination checks (R134): the status, 0 when they hold. -/
def orderCheck (s : State) (c : Core) (base : Nat) (v : VInstr) : Nat :=
  match v.srcA with
  | none => 0
  | some a =>
    let h := s.readLE (base + a.offset) 8
    let mode := bits h 5 2
    let next := bits h 0 5
    let passes := passCount (sliceCount mode)
    if v.op = 0x52 then
      (if mode = 0 ∨ v.lit ≠ next ∨ passes ≤ v.lit then stSlicingOrder
       else if v.tsrc ∧ (c.entry v.tq).tag ≠ v.lit then stSlicingOrder else 0)
    else if v.op = 0x53 then (if mode = 0 ∨ next ≠ passes then stSlicingOrder else 0)
    else 0

/-- All checks made before a chain or instruction starts: the fault's status, 0 when it may start (R143, R160, R216). -/
def startStatus (s : State) (core : Nat) (h : Sheet) (context : Nat) (e : VEntry) : Nat :=
  let c := s.core core
  let base := h.addr core 0
  let ms := e.members
  let exts := ms.flatMap (fun v => v.extents.1 ++ v.extents.2)
  let lone := ms.any (fun v => isLone v.op)
  if ms.any (fun v => v.streams.any (fun d => decide (13 ≤ d.fmt))) then stVectorOperand
  else if exts.any (fun x => decide (h.size < x.1 + x.2)) then stBound
  else if ms.any (fun v => !(v.streams.all rowStartOk)) then stVectorOperand
  else if !lone && !(shapesOk ms) then stVectorOperand
  else if !(ms.all (fun v => stageOk s base v)) then stVectorOperand
  else if !(overlapOk ms) then stVectorOperand
  else if ms.any (fun v => (v.op == 0x30 || v.op == 0x31) && !v.tsrc && (match v.srcA with
      | some d => d.fmt != 4
      | none => false)) then stVectorOperand
  else if ms.any (fun v => v.op == 0x40 && (match v.srcA with
      | some d => decide (d.offset % 16 ≠ 0)
      | none => false)) then stVectorOperand
  else
    let tbl := (ms.map (tableCheck c context e.tableEcc)).foldl max 0
    if tbl ≠ 0 then tbl
    else
      let ord := (ms.map (orderCheck s c base)).foldl max 0
      if ord ≠ 0 then ord
      else if ms.any (fun v => v.extents.1.any (fun x => s.extentPoisoned (base + x.1) x.2)) then stUncorrectable
      else 0

/-! ### Evaluation -/

/-- What the evaluation of an entry reads: the state, the scratchpad's address, the tables, the tile, the seed. -/
structure VEnv where
  s : State
  base : Nat
  core : Core
  seed : Nat
  stream : Nat

/-- An operand in the compute precision at a position: a stream's element, or the literal's constant. -/
def operandAt (v : VEnv) (prec : Nat) (d : Option Stream) (const : Nat) (r c : Nat) : EvVal :=
  match d with
  | some d => entryConv prec (VFmt.ofStream d) (broadcastField v.s v.base d r c)
  | none => { bits := const }

/-- The constants b and c of the literal (R146). -/
def litB (m : VInstr) : Nat := if m.prec = 1 then m.lit else m.lit % 2 ^ 32
def litC (m : VInstr) : Nat := if m.prec = 1 then m.lit else m.lit / 2 ^ 32

/-- The first source of the first member at a position: a tile's value or a stream's element. -/
def tileOrInt (v : VEnv) (m : VInstr) (r c : Nat) : Int :=
  if m.tsrc then SMap.get (v.core.entry m.tq).vals (64 * r + c) 0
  else match m.srcA with
    | some d => s32 (broadcastField v.s v.base d r c)
    | none => 0

/-- One member at a position; `prev` is the previous member's value (R147). -/
def memberAt (v : VEnv) (m : VInstr) (prev : Option EvVal) (r c : Nat) : EvVal :=
  let a := match prev with
    | some p => p
    | none => operandAt v m.prec m.srcA 0 r c
  match m.op with
  | 0x30 =>
    let f := Machine.fp32
    let x := (f.ofInt (tileOrInt v m r c)).bits
    let x := (f.mul x (m.lit % 2 ^ 32)).after .none
    (f.mul x.bits (m.lit / 2 ^ 32)).after x.ev
  | 0x31 =>
    let x := tileOrInt v m r c
    if m.prec = 2 then { bits := truncTo 32 x } else { bits := (Machine.fp64.ofInt x).bits }
  | 0x41 => tableEval (v.core.table m.sub).words a
  | 0x42 =>
    let der := v.core.table (m.sub + 4)
    let d := if der.valid then tableEval der.words a else crossEval (v.core.table m.sub).words a
    (match m.srcB with
     | none => d
     | some _ =>
       let b := operandAt v m.prec m.srcB 0 r c
       (Machine.fp32.mul d.bits b.bits).after (d.ev.first b.ev))
  | _ =>
    let b := if vArity m.op < 2 then { bits := 0 } else operandAt v m.prec m.srcB (litB m) r c
    let z := if vArity m.op < 3 then { bits := 0 } else operandAt v m.prec m.srcC (litC m) r c
    elementOp m.prec m.op m.sub a b z

/-- The chain's elementwise members at a position. -/
def chainAt (v : VEnv) (ms : List VInstr) (r c : Nat) : EvVal :=
  (ms.foldl (fun (prev : Option EvVal) m => some (memberAt v m prev r c)) none).getD { bits := 0 }

/-- The sink's conversion of a position (R116, R156), with the draw of R118. -/
def sinkAt (v : VEnv) (m : VInstr) (d : Stream) (x : EvVal) (pos : Nat) : Conv :=
  let sr := if m.sr then some (srDraw v.seed v.stream ((m.lit % 2 ^ 40 + pos) % 2 ^ 40)) else none
  if m.prec = 2 then sinkInt (VFmt.ofStream d) (s32 x.bits) sr
  else sinkFloat (precFmt m.prec) (VFmt.ofStream d) x.bits sr

/-- The counts of one position: its first IEEE cause, and the convert step's crumb (R116, R158). -/
def countOf (e : Ev) (k : Crumb) : Crumbs :=
  { inv := if e = .inv then 1 else 0, ovf := if e = .ovf then 1 else 0, unf := if e = .unf then 1 else 0
    clip := if k = .clip then 1 else 0, flush := if k = .flush then 1 else 0 }

def sumCrumbs (l : List Crumbs) : Crumbs := l.foldl Crumbs.plus {}

/-- The scalar that a reduction writes to registers, in every lane (R154). -/
def scalarWrites (prec reg v : Nat) : List LaneWrite :=
  let put := fun (r x : Nat) => ({
    reg := r, lanes := BitVec.allOnes 32, vals := laneNumbers.map (fun _ => BitVec.ofNat 32 x) } : LaneWrite)
  if prec = 0 then [put reg v] else [put reg v, put (reg + 1) (v / 2 ^ 32)]

/-- Cross-mode elements of an entry (R166). -/
def crossCount (c : Core) (ms : List VInstr) (n : Nat) : Nat :=
  (ms.filter (fun m => m.op == 0x42 && !(c.table (m.sub + 4)).valid)).length * n

/-- An elementwise instruction, a chain, or a reduction (R144 to R162). -/
def evalStream (v : VEnv) (ms : List VInstr) : VResult :=
  let (rows, cols) := chainShape ms
  match ms.getLast? with
  | none => {}
  | some m =>
    let count := match ms.head? with
      | some f => if f.tsrc ∧ f.regB ≠ codeZero then scalarWrites 0 f.regB (v.core.entry f.tq).sat else []
      | none => []
    let cross := crossCount v.core ms (rows * cols)
    if isReduction m.op then
      let body := ms.dropLast
      let valAt := fun (r c : Nat) =>
        if body.isEmpty then operandAt v m.prec m.srcA 0 r c else chainAt v body r c
      let reduced := (List.range rows).map (fun r => reduceRow m.prec m.op ((List.range cols).map (valAt r)))
      match m.dst with
      | some d =>
        let conv := reduced.zipIdx.map (fun p => (p.1, sinkAt v m d p.1 p.2))
        { writes := streamWrites v.base d (conv.map (fun p => [p.2.bits])), regs := count
          crumbs := sumCrumbs (conv.map (fun p => countOf (p.1.ev.first p.2.ev) p.2.crumb)), cross := cross }
      | none =>
        let x := reduced.headD { bits := 0 }
        let bitsOut := if m.prec = 2 then truncTo 64 (s32 x.bits) else (precFmt m.prec).plusZero x.bits
        { regs := count ++ scalarWrites m.prec m.regC bitsOut, crumbs := countOf x.ev .none, cross := cross }
    else
      match m.dst with
      | none => {}
      | some d =>
        let conv := (List.range rows).map (fun r => (List.range cols).map (fun c =>
          let x := chainAt v ms r c
          (x, sinkAt v m d x (r * cols + c))))
        { writes := streamWrites v.base d (conv.map (fun row => row.map (fun p => p.2.bits))), regs := count
          crumbs := sumCrumbs (conv.flatMap (fun row => row.map (fun p =>
            countOf (p.1.ev.first p.2.ev) p.2.crumb)))
          cross := cross }

/-- Position i of an exponent vector, in stream-position order (R167). -/
def expAt (s : State) (base : Nat) (d : Stream) (i : Nat) : Int :=
  signedOf 16 (elemField s base d (i / d.cols) (i % d.cols))

/-- A float element's datum. -/
def floatElem (s : State) (base : Nat) (d : Stream) (r c : Nat) : FV :=
  (((VFmt.ofStream d).float).getD Machine.fp32).decode (elemField s base d r c)

/-- EXPMAX (R128): one exponent for each row or column, merged by signed maximum. -/
def evalExpmax (v : VEnv) (m : VInstr) : VResult :=
  match m.srcA, m.dst with
  | some a, some d =>
    let byCol := decide (m.sub % 2 = 1)
    let groups := if byCol then a.cols else a.rows
    let len := if byCol then a.rows else a.cols
    let best := fun (g : Nat) => (List.range len).foldl (fun (acc : Int) k =>
      max acc (elemExp (if byCol then floatElem v.s v.base a k g else floatElem v.s v.base a g k)))
      (expAt v.s v.base d g)
    let out := (List.range 64).map (fun g => truncTo 16 (if g < groups then best g else expAt v.s v.base d g))
    { writes := streamWrites v.base d ((List.range d.rows).map (fun r => (out.drop (r * d.cols)).take d.cols)) }
  | _, _ => {}

/-- The digits of a whole SLICE panel, element (k, group) by rows of k; none when an element faults (R129). -/
def slicePanel (v : VEnv) (m : VInstr) (a b : Stream) (slices : Nat) : Option (List (List (List Int))) :=
  let rowsMode := decide (m.sub % 2 = 0)
  let depth := if rowsMode then a.cols else a.rows
  (List.range depth).mapM (fun k => (List.range 64).mapM (fun g =>
    sliceElem slices (if rowsMode then floatElem v.s v.base a g k else floatElem v.s v.base a k g)
      (expAt v.s v.base b g)))

/-- SLICE (R129): the S planes, or none on a slicing-exponent fault. -/
def evalSlice (v : VEnv) (m : VInstr) : Option VResult :=
  match m.srcA, m.srcB, m.dst with
  | some a, some b, some d =>
    let slices := sliceCount (m.sub / 2)
    (slicePanel v m a b slices).map (fun panel =>
      { writes := (List.range slices).flatMap (fun i =>
          streamWrites v.base { d with offset := d.offset + i * m.lit }
            (panel.map (fun row => row.map (fun ds => truncTo 8 (ds.getD i 0))))) })
  | _, _, _ => some {}

/-- RECOMB (R134): the pass is added into the chunk sum t. -/
def evalRecomb (v : VEnv) (m : VInstr) : VResult :=
  match m.srcA with
  | none => {}
  | some a =>
    let reg := v.base + a.offset
    let h := v.s.readLE reg 8
    let w := passWeight (sliceCount (bits h 5 2)) m.lit
    let src := fun (i : Nat) =>
      if m.tsrc then SMap.get (v.core.entry m.tq).vals i 0
      else match m.srcB with
        | some d => s32 (elemField v.s v.base d (i / 64) (i % 64))
        | none => 0
    let f := Machine.fp64
    let tNew := fun (i : Nat) =>
      let term := (f.ofInt (src i * (2 ^ w : Nat))).bits
      if m.lit = 0 then term else (f.add (v.s.readLE (reg + 64 + 8 * i) 8) term).bits
    let t := (List.range 4096).map tNew
    { writes := [(reg, 8, h - bits h 0 5 + (m.lit + 1)), (reg + 64, 32768, packRow 64 t)]
      regs := if m.tsrc ∧ m.regB ≠ codeZero then scalarWrites 0 m.regB (v.core.entry m.tq).sat else [] }

/-- RCLOSE of one element (R134 to R136): the new running sum and its event. -/
def closeElem (t out : Nat) (hasOut : Bool) (eA eB l2 : Int) : EvVal :=
  let f := Machine.fp64
  let c : EvVal :=
    if eA = eNan ∨ eB = eNan then { bits := f.nanBits, ev := .inv }
    else (f.scaleB t (eA + eB - l2)).after .none
  if hasOut then
    let r := f.add out c.bits
    let bad := r.inv && !(f.decode out).isNaN && !(f.decode c.bits).isNaN
    { bits := r.bits, ev := c.ev.first (if bad then .inv else if r.ovf then .ovf else .none) }
  else c

/-- RCLOSE (R134): the chunk joins the running output; the last one writes the output and closes the region. -/
def evalRclose (v : VEnv) (m : VInstr) : VResult :=
  match m.srcA, m.srcB, m.srcC with
  | some a, some ea, some eb =>
    let reg := v.base + a.offset
    let h := v.s.readLE reg 8
    let l2 := 2 * alignPos (sliceCount (bits h 5 2))
    let hasOut := decide (bits h 7 1 = 1)
    let vals := (List.range 4096).map (fun i =>
      closeElem (v.s.readLE (reg + 64 + 8 * i) 8) (v.s.readLE (reg + 32832 + 8 * i) 8) hasOut
        (expAt v.s v.base ea (i / 64)) (expAt v.s v.base eb (i % 64)) l2)
    let last := decide (m.sub % 2 = 1)
    let chunk := (bits h 8 16 + 1) % 2 ^ 16
    let h' := h - h % 2 ^ 24 + (if last then 0 else bits h 5 2 * 32) + 128 + chunk * 256
    let events := vals.map (fun x => countOf x.ev .none)
    match m.dst with
    | some d =>
      let conv := vals.map (fun x =>
        if d.fmt = 0 then ({ bits := Machine.fp64.plusZero x.bits } : Conv)
        else convNarrowFloat (if d.fmt = 1 then Machine.fp32 else Machine.bf16) (Machine.fp64.decode x.bits) none)
      let rows := (List.range 64).map (fun r => ((conv.drop (64 * r)).take 64).map (fun k => k.bits))
      { writes := [(reg, 8, h'), (reg + 32832, 32768, packRow 64 (vals.map (fun x => x.bits)))] ++
          streamWrites v.base d rows
        crumbs := sumCrumbs (events ++ conv.map (fun k => countOf .none k.crumb)) }
    | none =>
      { writes := [(reg, 8, h'), (reg + 32832, 32768, packRow 64 (vals.map (fun x => x.bits)))]
        crumbs := sumCrumbs events }
  | _, _, _ => {}

/-- VLDT (R164): a table copied from scratchpad, or invalidated. -/
def evalVldt (v : VEnv) (m : VInstr) : VResult :=
  match m.srcA with
  | none => { table := some (m.sub, none) }
  | some a => { table := some (m.sub, some ((List.range 1040).map (fun i => v.s.readLE (v.base + a.offset + 4 * i) 4))) }

/-- The result of an entry; none on a slicing-exponent fault. -/
def evalEntry (v : VEnv) (ms : List VInstr) : Option VResult :=
  match ms with
  | [m] =>
    (match m.op with
     | 0x40 => some (evalVldt v m)
     | 0x50 => some (evalExpmax v m)
     | 0x51 => evalSlice v m
     | 0x52 => some (evalRecomb v m)
     | 0x53 => some (evalRclose v m)
     | _ => some (evalStream v ms))
  | _ => some (evalStream v ms)

/-! ### Start and completion -/

/-- The first entry that has not started. -/
def headEntry (c : Core) : Option VEntry := c.veq.find? (fun e => e.result.isNone)

/-- Take an entry out of the queue, and its registers out of the tray's scoreboard. -/
def dropEntry (s : State) (core : Nat) (e : VEntry) : State :=
  let s := s.mapCore core (fun c => { c with veq := c.veq.filter (fun x => x.serial != e.serial) })
  s.mapTray core e.slot (fun t => { t with pend := t.pend.filter (fun p => p.kind != .external e.serial) })

/-- Does a started entry still have to write what this one reads or writes? -/
def behindWrites (c : Core) (e : VEntry) : Bool :=
  c.veq.any (fun r => r.result.isSome && r.sheet == e.sheet && r.members.any (fun v => v.extents.2.any (fun d =>
    e.members.any (fun m => (m.extents.1 ++ m.extents.2).any (fun x => overlaps d x)))))
    || (e.members.any (fun m => m.op == 0x41 || m.op == 0x42) &&
        c.veq.any (fun r => r.result.isSome && r.members.any (fun v => v.op == 0x40)))

/-- Release the tile-queue entries that an entry releases (R161). -/
def releaseTiles (c : Core) (e : VEntry) : Core :=
  e.members.foldl (fun (c : Core) m => if m.tsrc ∧ m.rel then { c with tq := SMap.store c.tq m.tq {} {} } else c) c

/-- The table codes of an entry: corrected words are counted; an uncorrectable word invalidates the table (R164). -/
def tableEccCount (s : State) (core : Nat) (e : VEntry) : State :=
  match e.tableEcc with
  | .clean => s
  | .corrected => s.rbump Fld.CO_VE_ERRORS_CORRECTED 1 core
  | .uncorrectable =>
    let s := s.rbump Fld.CO_VE_ERRORS_UNCORRECTABLE 1 core
    s.mapCore core (fun c => e.members.foldl (fun (c : Core) m =>
      if m.op = 0x41 ∨ m.op = 0x42 then
        let i := if m.op = 0x42 && (c.table (m.sub + 4)).valid then m.sub + 4 else m.sub
        { c with tables := SMap.put c.tables i { c.table i with valid := false, bad := true } }
      else c) c)

/-- The instruction at the head starts (R149): its chain is whole, its tile is READY, nothing it reads is still to be
written. A check that fails faults its launch, and it writes nothing. -/
def doVeStart (core : Nat) (s : State) : State :=
  let c := s.core core
  match headEntry c with
  | none => s
  | some e =>
    match c.sheet? e.sheet, s.launch e.launch with
    | some h, some L =>
      let tiles := e.members.filter (fun m => m.tsrc)
      if !e.closed || !(coresRun s) then s
      else if tiles.any (fun m => !(tileOwned c e.sheet m.tq)) then
        (dropEntry s core e).trayFault core e.slot stVectorOperand
      else if tiles.any (fun m => (c.entry m.tq).state != TqState.ready) || behindWrites c e then s
      else
        let st := startStatus s core h L.context e
        let s := tableEccCount s core e
        if st ≠ 0 then (dropEntry s core e).trayFault core e.slot st
        else
          match evalEntry { s := s, base := h.addr core 0, core := c, seed := L.seed, stream := L.stream } e.members with
          | none => (dropEntry s core e).trayFault core e.slot stSlicingExponent
          | some r =>
            s.mapCore core (fun c =>
              let c := releaseTiles c e
              { c with veq := c.veq.map (fun x => if x.serial = e.serial then { x with result := some r } else x) })
    | _, _ => dropEntry s core e

/-- The oldest started instruction completes: its writes, counts and registers (R151, R159, R161, R166). -/
def doVeComplete (core : Nat) (s : State) : State :=
  let c := s.core core
  match c.veq.head? with
  | none => s
  | some e =>
    match e.result with
    | none => s
    | some r =>
      let s := r.writes.foldl (fun (s : State) w => s.write w.1 w.2.1 w.2.2) s
      let s := s.addCrumbs core e.launch r.crumbs
      let s := s.rbump Fld.CO_VE_ACTIVITY_CROSS r.cross core
      let s := match r.table, s.launch e.launch with
        | some (i, some words), some L =>
          s.mapCore core (fun c => { c with tables := SMap.put c.tables i { valid := true, tag := L.context, words := words } })
        | some (i, none), _ => s.mapCore core (fun c => { c with tables := SMap.del c.tables i })
        | _, _ => s
      let s := s.mapTray core e.slot (fun t => r.regs.foldl (fun t w => t.applyWrite w) t)
      dropEntry s core e

def execVeInstructionStart (core : Fin 192) (s : State) : Out State := .next (s.onClock (doVeStart core s))
def execVeInstructionComplete (core : Fin 192) (s : State) : Out State := .next (s.onClock (doVeComplete core s))

end Sys2Proof.Machine
end

