-- ==== Sys2Proof/Machine/Dispatch.lean ====
section
/-!
DEFINITION. Machine/Dispatch.lean: the meaning of each command.
-/
namespace Sys2Proof.Machine

def exec (i : Instr) (s : State) : Host.Outcome State Fault Refusal :=
  match i with
  | .add o => Sys2Proof.Machine.execAdd o s
  | .sub o => Sys2Proof.Machine.execSub o s
  | .mul o => Sys2Proof.Machine.execMul o s
  | .mulhi o => Sys2Proof.Machine.execMulhi o s
  | .mulwide o => Sys2Proof.Machine.execMulwide o s
  | .and o => Sys2Proof.Machine.execAnd o s
  | .or o => Sys2Proof.Machine.execOr o s
  | .xor o => Sys2Proof.Machine.execXor o s
  | .not o => Sys2Proof.Machine.execNot o s
  | .shl o => Sys2Proof.Machine.execShl o s
  | .shra o => Sys2Proof.Machine.execShra o s
  | .shrl o => Sys2Proof.Machine.execShrl o s
  | .min o => Sys2Proof.Machine.execMin o s
  | .max o => Sys2Proof.Machine.execMax o s
  | .setp o => Sys2Proof.Machine.execSetp o s
  | .sel o => Sys2Proof.Machine.execSel o s
  | .mov o => Sys2Proof.Machine.execMov o s
  | .ext8 o => Sys2Proof.Machine.execExt8 o s
  | .ext16 o => Sys2Proof.Machine.execExt16 o s
  | .ext64 o => Sys2Proof.Machine.execExt64 o s
  | .popc o => Sys2Proof.Machine.execPopc o s
  | .clz o => Sys2Proof.Machine.execClz o s
  | .fadd o => Sys2Proof.Machine.execFadd o s
  | .fsub o => Sys2Proof.Machine.execFsub o s
  | .fmul o => Sys2Proof.Machine.execFmul o s
  | .ffma o => Sys2Proof.Machine.execFfma o s
  | .fmin o => Sys2Proof.Machine.execFmin o s
  | .fmax o => Sys2Proof.Machine.execFmax o s
  | .fabs o => Sys2Proof.Machine.execFabs o s
  | .fneg o => Sys2Proof.Machine.execFneg o s
  | .fsetp o => Sys2Proof.Machine.execFsetp o s
  | .cvt o => Sys2Proof.Machine.execCvt o s
  | .rcp o => Sys2Proof.Machine.execRcp o s
  | .rsq o => Sys2Proof.Machine.execRsq o s
  | .ex2 o => Sys2Proof.Machine.execEx2 o s
  | .lg2 o => Sys2Proof.Machine.execLg2 o s
  | .br o => Sys2Proof.Machine.execBr o s
  | .brd o => Sys2Proof.Machine.execBrd o s
  | .yield o => Sys2Proof.Machine.execYield o s
  | .exit o => Sys2Proof.Machine.execExit o s
  | .plop o => Sys2Proof.Machine.execPlop o s
  | .vote o => Sys2Proof.Machine.execVote o s
  | .ld o => Sys2Proof.Machine.execLd o s
  | .lds o => Sys2Proof.Machine.execLds o s
  | .st o => Sys2Proof.Machine.execSt o s
  | .sld o => Sys2Proof.Machine.execSld o s
  | .slds o => Sys2Proof.Machine.execSlds o s
  | .sst o => Sys2Proof.Machine.execSst o s
  | .ldres o => Sys2Proof.Machine.execLdres o s
  | .stc o => Sys2Proof.Machine.execStc o s
  | .dmapost o => Sys2Proof.Machine.execDmapost o s
  | .rpost o => Sys2Proof.Machine.execRpost o s
  | .atomAdd o => Sys2Proof.Machine.execAtomAdd o s
  | .atomFetchadd o => Sys2Proof.Machine.execAtomFetchadd o s
  | .atomSmin o => Sys2Proof.Machine.execAtomSmin o s
  | .atomSminFetch o => Sys2Proof.Machine.execAtomSminFetch o s
  | .atomSmax o => Sys2Proof.Machine.execAtomSmax o s
  | .atomSmaxFetch o => Sys2Proof.Machine.execAtomSmaxFetch o s
  | .atomUmin o => Sys2Proof.Machine.execAtomUmin o s
  | .atomUminFetch o => Sys2Proof.Machine.execAtomUminFetch o s
  | .atomUmax o => Sys2Proof.Machine.execAtomUmax o s
  | .atomUmaxFetch o => Sys2Proof.Machine.execAtomUmaxFetch o s
  | .atomAnd o => Sys2Proof.Machine.execAtomAnd o s
  | .atomAndFetch o => Sys2Proof.Machine.execAtomAndFetch o s
  | .atomOr o => Sys2Proof.Machine.execAtomOr o s
  | .atomOrFetch o => Sys2Proof.Machine.execAtomOrFetch o s
  | .atomXor o => Sys2Proof.Machine.execAtomXor o s
  | .atomXorFetch o => Sys2Proof.Machine.execAtomXorFetch o s
  | .atomFadd o => Sys2Proof.Machine.execAtomFadd o s
  | .fetchfadd o => Sys2Proof.Machine.execFetchfadd o s
  | .atomSwap o => Sys2Proof.Machine.execAtomSwap o s
  | .atomCas o => Sys2Proof.Machine.execAtomCas o s
  | .locktry o => Sys2Proof.Machine.execLocktry o s
  | .loadDataReturn core k ecc => Sys2Proof.Machine.execLoadDataReturn core k ecc s
  | .storeAccepted core k => Sys2Proof.Machine.execStoreAccepted core k s
  | .trayDemoteTimeout core slot => Sys2Proof.Machine.execTrayDemoteTimeout core slot s
  | .yieldHoldEnd core slot => Sys2Proof.Machine.execYieldHoldEnd core slot s
  | .trayPromote core slot => Sys2Proof.Machine.execTrayPromote core slot s
  | .trayRetire core slot => Sys2Proof.Machine.execTrayRetire core slot s
  | .sheetPlace launch spots => Sys2Proof.Machine.execSheetPlace launch spots s
  | .trayHalt core slot => Sys2Proof.Machine.execTrayHalt core slot s
  | .trayStep core slot => Sys2Proof.Machine.execTrayStep core slot s
  | .trayResume core slot => Sys2Proof.Machine.execTrayResume core slot s
  | .stepComplete core slot => Sys2Proof.Machine.execStepComplete core slot s
  | .mma o => Sys2Proof.Machine.execMma o s
  | .smma o => Sys2Proof.Machine.execSmma o s
  | .fld o => Sys2Proof.Machine.execFld o s
  | .rhld o => Sys2Proof.Machine.execRhld o s
  | .rhclr o => Sys2Proof.Machine.execRhclr o s
  | .trd o => Sys2Proof.Machine.execTrd o s
  | .tqdrop o => Sys2Proof.Machine.execTqdrop o s
  | .aclr o => Sys2Proof.Machine.execAclr o s
  | .accumulatorDrainEnd core set => Sys2Proof.Machine.execAccumulatorDrainEnd core set s
  | .sugarCycle core => Sys2Proof.Machine.execSugarCycle core s
  | .vcvt o => Sys2Proof.Machine.execVcvt o s
  | .vadd o => Sys2Proof.Machine.execVadd o s
  | .vsub o => Sys2Proof.Machine.execVsub o s
  | .vmul o => Sys2Proof.Machine.execVmul o s
  | .vfma o => Sys2Proof.Machine.execVfma o s
  | .vmin o => Sys2Proof.Machine.execVmin o s
  | .vmax o => Sys2Proof.Machine.execVmax o s
  | .vabs o => Sys2Proof.Machine.execVabs o s
  | .vneg o => Sys2Proof.Machine.execVneg o s
  | .vdiv o => Sys2Proof.Machine.execVdiv o s
  | .vsqrt o => Sys2Proof.Machine.execVsqrt o s
  | .vcmp o => Sys2Proof.Machine.execVcmp o s
  | .vsel o => Sys2Proof.Machine.execVsel o s
  | .vand o => Sys2Proof.Machine.execVand o s
  | .vor o => Sys2Proof.Machine.execVor o s
  | .vxor o => Sys2Proof.Machine.execVxor o s
  | .vshl o => Sys2Proof.Machine.execVshl o s
  | .vshra o => Sys2Proof.Machine.execVshra o s
  | .vshrl o => Sys2Proof.Machine.execVshrl o s
  | .vrsum o => Sys2Proof.Machine.execVrsum o s
  | .vrmin o => Sys2Proof.Machine.execVrmin o s
  | .vrmax o => Sys2Proof.Machine.execVrmax o s
  | .tscale o => Sys2Proof.Machine.execTscale o s
  | .tcopy o => Sys2Proof.Machine.execTcopy o s
  | .vldt o => Sys2Proof.Machine.execVldt o s
  | .vfun o => Sys2Proof.Machine.execVfun o s
  | .vder o => Sys2Proof.Machine.execVder o s
  | .expmax o => Sys2Proof.Machine.execExpmax o s
  | .slice o => Sys2Proof.Machine.execSlice o s
  | .recomb o => Sys2Proof.Machine.execRecomb o s
  | .rclose o => Sys2Proof.Machine.execRclose o s
  | .veInstructionStart core => Sys2Proof.Machine.execVeInstructionStart core s
  | .veInstructionComplete core => Sys2Proof.Machine.execVeInstructionComplete core s
  | .moverDescriptorStart block => Sys2Proof.Machine.execMoverDescriptorStart block s
  | .moverDescriptorComplete block => Sys2Proof.Machine.execMoverDescriptorComplete block s
  | .moverPoisonedLine block tile => Sys2Proof.Machine.execMoverPoisonedLine block tile s
  | .victimOffer core line => Sys2Proof.Machine.execVictimOffer core line s
  | .victimBudgetInterval slice => Sys2Proof.Machine.execVictimBudgetInterval slice s
  | .l2Fill line context lru ecc recalled => Sys2Proof.Machine.execL2Fill line context lru ecc recalled s
  | .reloadDataArrive line ok data => Sys2Proof.Machine.execReloadDataArrive line ok data s
  | .reloadTimeout line => Sys2Proof.Machine.execReloadTimeout line s
  | .channelOffline ch => Sys2Proof.Machine.execChannelOffline ch s
  | .channelOnline ch => Sys2Proof.Machine.execChannelOnline ch s
  | .channelTest ch => Sys2Proof.Machine.execChannelTest ch s
  | .channelRetrain ch => Sys2Proof.Machine.execChannelRetrain ch s
  | .channelDrainEnd ch => Sys2Proof.Machine.execChannelDrainEnd ch s
  | .channelScrubDone ch pass => Sys2Proof.Machine.execChannelScrubDone ch pass s
  | .retrainDue ch => Sys2Proof.Machine.execRetrainDue ch s
  | .earlyRetrainTrigger ch => Sys2Proof.Machine.execEarlyRetrainTrigger ch s
  | .retrainDone ch pass => Sys2Proof.Machine.execRetrainDone ch pass s
  | .tgStart ch pattern order lines => Sys2Proof.Machine.execTgStart ch pattern order lines s
  | .tgRunEnd mismatches first => Sys2Proof.Machine.execTgRunEnd mismatches first s
  | .hmPartCtrlWrite kernel n v => Sys2Proof.Machine.execHmPartCtrlWrite kernel n v s
  | .rdShared core line => Sys2Proof.Machine.execRdShared core line s
  | .rdOwn core line => Sys2Proof.Machine.execRdOwn core line s
  | .rdOnce core line => Sys2Proof.Machine.execRdOnce core line s
  | .upgrade core line => Sys2Proof.Machine.execUpgrade core line s
  | .claim core line => Sys2Proof.Machine.execClaim core line s
  | .wrThru core line => Sys2Proof.Machine.execWrThru core line s
  | .wrInv addr bytes data policy => Sys2Proof.Machine.execWrInv addr bytes data policy s
  | .atomic core k => Sys2Proof.Machine.execAtomic core k s
  | .snpFwdS core line => Sys2Proof.Machine.execSnpFwdS core line s
  | .snpFwdO core line => Sys2Proof.Machine.execSnpFwdO core line s
  | .snpFwdOnce core line => Sys2Proof.Machine.execSnpFwdOnce core line s
  | .snpInv core line => Sys2Proof.Machine.execSnpInv core line s
  | .coherenceResponse core line => Sys2Proof.Machine.execCoherenceResponse core line s
  | .snoopTimeout core line => Sys2Proof.Machine.execSnoopTimeout core line s
  | .reservationHoldExpire core slot => Sys2Proof.Machine.execReservationHoldExpire core slot s
  | .fence o => Sys2Proof.Machine.execFence o s
  | .cinc o => Sys2Proof.Machine.execCinc o s
  | .cwait o => Sys2Proof.Machine.execCwait o s
  | .cread o => Sys2Proof.Machine.execCread o s
  | .cset o => Sys2Proof.Machine.execCset o s
  | .bar o => Sys2Proof.Machine.execBar o s
  | .ewait o => Sys2Proof.Machine.execEwait o s
  | .esig o => Sys2Proof.Machine.execEsig o s
  | .ralign o => Sys2Proof.Machine.execRalign o s
  | .rftest o => Sys2Proof.Machine.execRftest o s
  | .waitTimeoutExpire core slot path => Sys2Proof.Machine.execWaitTimeoutExpire core slot path s
  | .realignDue pair => Sys2Proof.Machine.execRealignDue pair s
  | .lendThreshold core slot path => Sys2Proof.Machine.execLendThreshold core slot path s
  | .submit p => Sys2Proof.Machine.execSubmit p s
  | .queueCreate p => Sys2Proof.Machine.execQueueCreate p s
  | .queueDestroy p => Sys2Proof.Machine.execQueueDestroy p s
  | .queueDisable p => Sys2Proof.Machine.execQueueDisable p s
  | .queueEnable p => Sys2Proof.Machine.execQueueEnable p s
  | .queueReset p => Sys2Proof.Machine.execQueueReset p s
  | .contextCreate p => Sys2Proof.Machine.execContextCreate p s
  | .contextDestroy p => Sys2Proof.Machine.execContextDestroy p s
  | .regReadPacket p => Sys2Proof.Machine.execRegReadPacket p s
  | .regWritePacket p => Sys2Proof.Machine.execRegWritePacket p s
  | .queueQuery p => Sys2Proof.Machine.execQueueQuery p s
  | .fallbackRead p => Sys2Proof.Machine.execFallbackRead p s
  | .echo p => Sys2Proof.Machine.execEcho p s
  | .launch r => Sys2Proof.Machine.execLaunch r s
  | .copy r => Sys2Proof.Machine.execCopy r s
  | .fill r => Sys2Proof.Machine.execFill r s
  | .eventSignal r => Sys2Proof.Machine.execEventSignal r s
  | .eventWait r => Sys2Proof.Machine.execEventWait r s
  | .preload r => Sys2Proof.Machine.execPreload r s
  | .unlock r => Sys2Proof.Machine.execUnlock r s
  | .unlockReleaseDone group => Sys2Proof.Machine.execUnlockReleaseDone group s
  | .realignSet r => Sys2Proof.Machine.execRealignSet r s
  | .timestamp r => Sys2Proof.Machine.execTimestamp r s
  | .regReadNode r => Sys2Proof.Machine.execRegReadNode r s
  | .regWriteNode r => Sys2Proof.Machine.execRegWriteNode r s
  | .setSeed r => Sys2Proof.Machine.execSetSeed r s
  | .ckptCopy r => Sys2Proof.Machine.execCkptCopy r s
  | .rangeCreate r => Sys2Proof.Machine.execRangeCreate r s
  | .rangeDestroy r => Sys2Proof.Machine.execRangeDestroy r s
  | .setReload r => Sys2Proof.Machine.execSetReload r s
  | .heap r => Sys2Proof.Machine.execHeap r s
  | .rangeEvent r => Sys2Proof.Machine.execRangeEvent r s
  | .partitionAssign r => Sys2Proof.Machine.execPartitionAssign r s
  | .powerPolicy r => Sys2Proof.Machine.execPowerPolicy r s
  | .regionShutdown r => Sys2Proof.Machine.execRegionShutdown r s
  | .regionEnable r => Sys2Proof.Machine.execRegionEnable r s
  | .regionShutdownDone region => Sys2Proof.Machine.execRegionShutdownDone region s
  | .regionEnableDone region => Sys2Proof.Machine.execRegionEnableDone region s
  | .nodeStart r => Sys2Proof.Machine.execNodeStart r s
  | .nodeComplete r => Sys2Proof.Machine.execNodeComplete r s
  | .queueAbortDone queue => Sys2Proof.Machine.execQueueAbortDone queue s
  | .engineAbortReport r => Sys2Proof.Machine.execEngineAbortReport r s
  | .abortReportTimeout r => Sys2Proof.Machine.execAbortReportTimeout r s
  | .contextDestroyDone context => Sys2Proof.Machine.execContextDestroyDone context s
  | .nodeWatchdogExpire r => Sys2Proof.Machine.execNodeWatchdogExpire r s
  | .timedLaunchDue r => Sys2Proof.Machine.execTimedLaunchDue r s
  | .preemptTimeout r victims => Sys2Proof.Machine.execPreemptTimeout r victims s
  | .sliceTimeout r victims => Sys2Proof.Machine.execSliceTimeout r victims s
  | .contextSwitchForced r spots => Sys2Proof.Machine.execContextSwitchForced r spots s
  | .objectTeardown object => Sys2Proof.Machine.execObjectTeardown object s
  | .mailboxAlloc launch slot => Sys2Proof.Machine.execMailboxAlloc launch slot s
  | .mailboxFree launch slot => Sys2Proof.Machine.execMailboxFree launch slot s
  | .linkDisable r => Sys2Proof.Machine.execLinkDisable r s
  | .linkEnable r => Sys2Proof.Machine.execLinkEnable r s
  | .linkRetrain r => Sys2Proof.Machine.execLinkRetrain r s
  | .ackPeer r => Sys2Proof.Machine.execAckPeer r s
  | .setId r => Sys2Proof.Machine.execSetId r s
  | .routeLoad r => Sys2Proof.Machine.execRouteLoad r s
  | .frameReceive link seq corrected lane0 lane1 bad ack nak => Sys2Proof.Machine.execFrameReceive link seq corrected lane0 lane1 bad ack nak s
  | .linkAckTimeout link => Sys2Proof.Machine.execLinkAckTimeout link s
  | .laneRetrainTrigger link lane lock => Sys2Proof.Machine.execLaneRetrainTrigger link lane lock s
  | .laneRetrainDone link pass => Sys2Proof.Machine.execLaneRetrainDone link pass s
  | .laneRetryTimer link => Sys2Proof.Machine.execLaneRetryTimer link s
  | .linkTrainingDone link lanes d => Sys2Proof.Machine.execLinkTrainingDone link lanes d s
  | .linkRetryTimer link => Sys2Proof.Machine.execLinkRetryTimer link s
  | .linkDrainEnd link => Sys2Proof.Machine.execLinkDrainEnd link s
  | .discoverTimer link => Sys2Proof.Machine.execDiscoverTimer link s
  | .discover link d => Sys2Proof.Machine.execDiscover link d s
  | .packetAgeTimeout link k => Sys2Proof.Machine.execPacketAgeTimeout link k s
  | .put link p => Sys2Proof.Machine.execPut link p s
  | .get link p => Sys2Proof.Machine.execGet link p s
  | .signal link p => Sys2Proof.Machine.execSignal link p s
  | .bsignal link p => Sys2Proof.Machine.execBsignal link p s
  | .abort link p => Sys2Proof.Machine.execAbort link p s
  | .esrelAdd link p => Sys2Proof.Machine.execEsrelAdd link p s
  | .esrelSmin link p => Sys2Proof.Machine.execEsrelSmin link p s
  | .esrelSmax link p => Sys2Proof.Machine.execEsrelSmax link p s
  | .esrelUmin link p => Sys2Proof.Machine.execEsrelUmin link p s
  | .esrelUmax link p => Sys2Proof.Machine.execEsrelUmax link p s
  | .esrelAnd link p => Sys2Proof.Machine.execEsrelAnd link p s
  | .esrelOr link p => Sys2Proof.Machine.execEsrelOr link p s
  | .esrelXor link p => Sys2Proof.Machine.execEsrelXor link p s
  | .swap link p => Sys2Proof.Machine.execSwap link p s
  | .cas link p => Sys2Proof.Machine.execCas link p s
  | .fetchadd link p => Sys2Proof.Machine.execFetchadd link p s
  | .rsp link p => Sys2Proof.Machine.execRsp link p s
  | .resendTimer k => Sys2Proof.Machine.execResendTimer k s
  | .giveupTimer k => Sys2Proof.Machine.execGiveupTimer k s
  | .tsyncPeriod => Sys2Proof.Machine.execTsyncPeriod s
  | .tsyncReq link t1 => Sys2Proof.Machine.execTsyncReq link t1 s
  | .tsyncRsp link t2 t3 dist locked => Sys2Proof.Machine.execTsyncRsp link t2 t3 dist locked s
  | .join r => Sys2Proof.Machine.execJoin r s
  | .leave r => Sys2Proof.Machine.execLeave r s
  | .jsExport r => Sys2Proof.Machine.execExport r s
  | .unexport r => Sys2Proof.Machine.execUnexport r s
  | .jobSetAbort r => Sys2Proof.Machine.execJobSetAbort r s
  | .clear r => Sys2Proof.Machine.execClear r s
  | .hread q => Sys2Proof.Machine.execHread q s
  | .hwrite q => Sys2Proof.Machine.execHwrite q s
  | .hatomicFetchadd q => Sys2Proof.Machine.execHatomicFetchadd q s
  | .hatomicSwap q => Sys2Proof.Machine.execHatomicSwap q s
  | .hatomicCas q => Sys2Proof.Machine.execHatomicCas q s
  | .hatomicSignal q => Sys2Proof.Machine.execHatomicSignal q s
  | .dcpl rtag status slots rsv data => Sys2Proof.Machine.execDcpl rtag status slots rsv data s
  | .credit zpkt dreq slots rsv => Sys2Proof.Machine.execCredit zpkt dreq slots rsv s
  | .ucCplTimeoutExpire rtag => Sys2Proof.Machine.execUcCplTimeoutExpire rtag s
  | .flitReceive ok => Sys2Proof.Machine.execFlitReceive ok s
  | .sidebandRetrainRequest => Sys2Proof.Machine.execSidebandRetrainRequest s
  | .ucTrainingDone pass streaming qualified half partner => Sys2Proof.Machine.execUcTrainingDone pass streaming qualified half partner s
  | .ucDisablingEnd => Sys2Proof.Machine.execUcDisablingEnd s
  | .ucRetryTimer => Sys2Proof.Machine.execUcRetryTimer s
  | .ucDisable => Sys2Proof.Machine.execUcDisable s
  | .ucEnable => Sys2Proof.Machine.execUcEnable s
  | .ucRetrain => Sys2Proof.Machine.execUcRetrain s
  | .powerEpochBoundary => Sys2Proof.Machine.execPowerEpochBoundary s
  | .powerSample total r0 r1 r2 r3 => Sys2Proof.Machine.execPowerSample total r0 r1 r2 r3 s
  | .droopDetect detector => Sys2Proof.Machine.execDroopDetect detector s
  | .sensorRead sensor reading => Sys2Proof.Machine.execSensorRead sensor reading s
  | .hotHoldExpire => Sys2Proof.Machine.execHotHoldExpire s
  | .thermAlertAssert ns => Sys2Proof.Machine.execThermAlertAssert ns s
  | .thermAlertDeassert ns => Sys2Proof.Machine.execThermAlertDeassert ns s
  | .avsCommandFail region requested sensed fault covers => Sys2Proof.Machine.execAvsCommandFail region requested sensed fault covers s
  | .railOutOfRange ns => Sys2Proof.Machine.execRailOutOfRange ns s
  | .samplingWindowBoundary measured v0 v1 v2 v3 acts => Sys2Proof.Machine.execSamplingWindowBoundary measured v0 v1 v2 v3 acts s
  | .coreSilent core => Sys2Proof.Machine.execCoreSilent core s
  | .feMismatch held => Sys2Proof.Machine.execFeMismatch held s
  | .feRestartDone fail0 fail1 => Sys2Proof.Machine.execFeRestartDone fail0 fail1 s
  | .recoveryOverrun => Sys2Proof.Machine.execRecoveryOverrun s
  | .overrunClear => Sys2Proof.Machine.execOverrunClear s
  | .powerOnReset inp => Sys2Proof.Machine.execPowerOnReset inp s
  | .resetN ns => Sys2Proof.Machine.execResetN ns s
  | .stage r => Sys2Proof.Machine.execStage r s
  | .switch r => Sys2Proof.Machine.execSwitch r s
  | .imageReadyTimeout => Sys2Proof.Machine.execImageReadyTimeout s
  | .commitSvn r => Sys2Proof.Machine.execCommitSvn r s
  | .revoke r => Sys2Proof.Machine.execRevoke r s
  | .attest r => Sys2Proof.Machine.execAttest r s
  | .storeSettings r => Sys2Proof.Machine.execStoreSettings r s
  | .revert r => Sys2Proof.Machine.execRevert r s
  | .settingsCommitDone => Sys2Proof.Machine.execSettingsCommitDone s
  | .calibrationDue region => Sys2Proof.Machine.execCalibrationDue region s
  | .calibrationStart kernel regions => Sys2Proof.Machine.execCalibrationStart kernel regions s
  | .nop f => Sys2Proof.Machine.execNop f s
  | .enumerate f => Sys2Proof.Machine.execEnumerate f s
  | .chainRead ecc f => Sys2Proof.Machine.execChainRead ecc f s
  | .chainWrite recent f => Sys2Proof.Machine.execChainWrite recent f s
  | .chainStatus f => Sys2Proof.Machine.execChainStatus f s
  | .chainFreeze f => Sys2Proof.Machine.execChainFreeze f s
  | .chainReset inp f => Sys2Proof.Machine.execChainReset inp f s
  | .park f => Sys2Proof.Machine.execPark f s
  | .image f => Sys2Proof.Machine.execImage f s
  | .imageDone f => Sys2Proof.Machine.execImageDone f s
  | .freezeN ns => Sys2Proof.Machine.execFreezeN ns s
  | .extest => Sys2Proof.Machine.execExtest s
  | .idcode => Sys2Proof.Machine.execIdcode s
  | .samplePreload => Sys2Proof.Machine.execSamplePreload s
  | .tapFreeze => Sys2Proof.Machine.execTapFreeze s
  | .scanSel v recent => Sys2Proof.Machine.execScanSel v recent s
  | .scanData ecc => Sys2Proof.Machine.execScanData ecc s
  | .bypass => Sys2Proof.Machine.execBypass s
  | .timePpsEdge low high => Sys2Proof.Machine.execTimePpsEdge low high s
  | .mtSampleMissed => Sys2Proof.Machine.execMtSampleMissed s
  | .mtHoldoverExpire => Sys2Proof.Machine.execMtHoldoverExpire s
  | .mtSet kernel v => Sys2Proof.Machine.execMtSet kernel v s
  | .mtStep kernel v => Sys2Proof.Machine.execMtStep kernel v s
  | .mtCtrlWrite kernel v => Sys2Proof.Machine.execMtCtrlWrite kernel v s
  | .mtUpstreamWrite kernel v => Sys2Proof.Machine.execMtUpstreamWrite kernel v s
  | .mtFreqTrimWrite kernel v => Sys2Proof.Machine.execMtFreqTrimWrite kernel v s
  | .pmCapWrite kernel v => Sys2Proof.Machine.execPmCapWrite kernel v s
  | .pmClkModeWrite kernel v => Sys2Proof.Machine.execPmClkModeWrite kernel v s
  | .rcFieldRead off => Sys2Proof.Machine.execRcFieldRead off s
  | .registerWrite kernel off v => Sys2Proof.Machine.execRegisterWrite kernel off v s
  | .instructionCompletion core slot k => Sys2Proof.Machine.execInstructionCompletion core slot k s
  | .hostEventPoll r => Sys2Proof.Machine.execHostEventPoll r s
  | .laneRepair lanes => Sys2Proof.Machine.execLaneRepair lanes s
  | .vddIoLoss => Sys2Proof.Machine.execVddIoLoss s
  | .resetNRelease inp => Sys2Proof.Machine.execResetNRelease inp s
  | .calibrationDone region monitors sensors detectors => Sys2Proof.Machine.execCalibrationDone region monitors sensors detectors s
  | .domainResetDone => Sys2Proof.Machine.execDomainResetDone s

end Sys2Proof.Machine
end

