-- ==== Sys2Proof/Safety.lean ====
section
/-!
DEFINITION. Safety.lean: the canonical form of the memory, and what counts as a safe run.
-/
namespace Sys2Proof.Machine

/-- Keys strictly rise along a list. -/
def risingKeys {α : Type} : List (Nat × α) → Bool
  | [] => true
  | [_] => true
  | a :: b :: rest => decide (a.1 < b.1) && risingKeys (b :: rest)

/-- The form of the memory: addresses strictly rise, and no listed byte holds what its address reads as unlisted. -/
def Memory.wf (u : List (Nat × Nat × Option Nat)) (m : List Host.Cell) : Bool :=
  risingKeys m && m.all (fun c => decide (c.2 ≠ unlisted u c.1))

/-- The form of the poison map: word numbers strictly rise. -/
def State.memWf (s : State) : Bool := Memory.wf s.undef s.mem && risingKeys s.poison

/-- A run of so many steps stays out of faults and refusals. -/
def safeRun (s : State) : Nat → Prop
  | 0 => True
  | n + 1 => ∃ t, step s = .next t ∧ safeRun t n

end Sys2Proof.Machine
end

