-- ==== Sys2Proof/WellFormed.lean ====
section
/-!
DEFINITION. WellFormed.lean: which commands are well formed: what the types of their operands do not say. A meaning takes any
command; one that is not well formed names nothing that the device has, and has no effect.
-/
namespace Sys2Proof

/-- A node's name: a queue of R268 and an index of R274. -/
def NodeRef.wf (r : NodeRef) : Bool := decide (r.queue < 1024) && decide (r.node < 4096) && decide (r.seq ≠ 0)

/-- A line of the HBM window (R20). -/
def lineWf (l : Nat) : Bool := decide (l < 2 ^ 32)

/-- A launch serial (R279). -/
def serialWf (n : Nat) : Bool := decide (n ≠ 0) && decide (n < 2 ^ 32)

/-- Places for sheets: a core and a multiple of 4 KiB inside its scratchpad (R38, R39). -/
def spotsWf (ps : List (Nat × Nat)) : Bool :=
  ps.all (fun p => decide (p.1 < 192) && decide (p.2 % 4096 = 0) && decide (p.2 < 0x100000))

/-- Sheets to force off: each named once, on a core of the device. -/
def victimsWf (vs : List (Nat × Nat)) : Bool := vs.all (fun v => decide (v.1 < 192)) && decide (vs.eraseDups = vs)

/-- A packet has all its words (R264). -/
def Pkt.wf (p : Pkt) : Bool := decide (p.params.length = 4 * (p.len.toNat + 1) - 1)

/-- Each queue's activity is reported once (R291). -/
def actsWf (as : List QueueAct) : Bool := decide ((as.map (fun a => a.queue)).eraseDups = as.map (fun a => a.queue))

/-- Sensors and detectors found outside their limits are named once (R418). -/
def onceWf {n : Nat} (xs : List (Fin n)) : Bool := decide (xs.eraseDups = xs)

def Instr.wf (i : Instr) : Bool :=
  match i with
  | .add _ => true
  | .sub _ => true
  | .mul _ => true
  | .mulhi _ => true
  | .mulwide _ => true
  | .and _ => true
  | .or _ => true
  | .xor _ => true
  | .not _ => true
  | .shl _ => true
  | .shra _ => true
  | .shrl _ => true
  | .min _ => true
  | .max _ => true
  | .setp _ => true
  | .sel _ => true
  | .mov _ => true
  | .ext8 _ => true
  | .ext16 _ => true
  | .ext64 _ => true
  | .popc _ => true
  | .clz _ => true
  | .fadd _ => true
  | .fsub _ => true
  | .fmul _ => true
  | .ffma _ => true
  | .fmin _ => true
  | .fmax _ => true
  | .fabs _ => true
  | .fneg _ => true
  | .fsetp _ => true
  | .cvt _ => true
  | .rcp _ => true
  | .rsq _ => true
  | .ex2 _ => true
  | .lg2 _ => true
  | .br _ => true
  | .brd _ => true
  | .yield _ => true
  | .exit _ => true
  | .plop _ => true
  | .vote _ => true
  | .ld _ => true
  | .lds _ => true
  | .st _ => true
  | .sld _ => true
  | .slds _ => true
  | .sst _ => true
  | .ldres _ => true
  | .stc _ => true
  | .dmapost _ => true
  | .rpost _ => true
  | .atomAdd _ => true
  | .atomFetchadd _ => true
  | .atomSmin _ => true
  | .atomSminFetch _ => true
  | .atomSmax _ => true
  | .atomSmaxFetch _ => true
  | .atomUmin _ => true
  | .atomUminFetch _ => true
  | .atomUmax _ => true
  | .atomUmaxFetch _ => true
  | .atomAnd _ => true
  | .atomAndFetch _ => true
  | .atomOr _ => true
  | .atomOrFetch _ => true
  | .atomXor _ => true
  | .atomXorFetch _ => true
  | .atomFadd _ => true
  | .fetchfadd _ => true
  | .atomSwap _ => true
  | .atomCas _ => true
  | .locktry _ => true
  | .loadDataReturn _ _ _ => true
  | .storeAccepted _ _ => true
  | .trayDemoteTimeout _ _ => true
  | .yieldHoldEnd _ _ => true
  | .trayPromote _ _ => true
  | .trayRetire _ _ => true
  | .sheetPlace x0 x1 => serialWf x0 && spotsWf x1
  | .trayHalt _ _ => true
  | .trayStep _ _ => true
  | .trayResume _ _ => true
  | .stepComplete _ _ => true
  | .mma _ => true
  | .smma _ => true
  | .fld _ => true
  | .rhld _ => true
  | .rhclr _ => true
  | .trd _ => true
  | .tqdrop _ => true
  | .aclr _ => true
  | .accumulatorDrainEnd _ _ => true
  | .sugarCycle _ => true
  | .vcvt _ => true
  | .vadd _ => true
  | .vsub _ => true
  | .vmul _ => true
  | .vfma _ => true
  | .vmin _ => true
  | .vmax _ => true
  | .vabs _ => true
  | .vneg _ => true
  | .vdiv _ => true
  | .vsqrt _ => true
  | .vcmp _ => true
  | .vsel _ => true
  | .vand _ => true
  | .vor _ => true
  | .vxor _ => true
  | .vshl _ => true
  | .vshra _ => true
  | .vshrl _ => true
  | .vrsum _ => true
  | .vrmin _ => true
  | .vrmax _ => true
  | .tscale _ => true
  | .tcopy _ => true
  | .vldt _ => true
  | .vfun _ => true
  | .vder _ => true
  | .expmax _ => true
  | .slice _ => true
  | .recomb _ => true
  | .rclose _ => true
  | .veInstructionStart _ => true
  | .veInstructionComplete _ => true
  | .moverDescriptorStart _ => true
  | .moverDescriptorComplete _ => true
  | .moverPoisonedLine _ _ => true
  | .victimOffer _ x1 => lineWf x1
  | .victimBudgetInterval _ => true
  | .l2Fill x0 _ _ _ _ => lineWf x0
  | .reloadDataArrive x0 _ _ => lineWf x0
  | .reloadTimeout x0 => lineWf x0
  | .channelOffline _ => true
  | .channelOnline _ => true
  | .channelTest _ => true
  | .channelRetrain _ => true
  | .channelDrainEnd _ => true
  | .channelScrubDone _ _ => true
  | .retrainDue _ => true
  | .earlyRetrainTrigger _ => true
  | .retrainDone _ _ => true
  | .tgStart _ _ _ _ => true
  | .tgRunEnd _ _ => true
  | .hmPartCtrlWrite _ _ _ => true
  | .rdShared _ x1 => lineWf x1
  | .rdOwn _ x1 => lineWf x1
  | .rdOnce _ x1 => lineWf x1
  | .upgrade _ x1 => lineWf x1
  | .claim _ x1 => lineWf x1
  | .wrThru _ x1 => lineWf x1
  | .wrInv _ _ _ _ => true
  | .atomic _ _ => true
  | .snpFwdS _ x1 => lineWf x1
  | .snpFwdO _ x1 => lineWf x1
  | .snpFwdOnce _ x1 => lineWf x1
  | .snpInv _ x1 => lineWf x1
  | .coherenceResponse _ x1 => lineWf x1
  | .snoopTimeout _ x1 => lineWf x1
  | .reservationHoldExpire _ _ => true
  | .fence _ => true
  | .cinc _ => true
  | .cwait _ => true
  | .cread _ => true
  | .cset _ => true
  | .bar _ => true
  | .ewait _ => true
  | .esig _ => true
  | .ralign _ => true
  | .rftest _ => true
  | .waitTimeoutExpire _ _ _ => true
  | .realignDue _ => true
  | .lendThreshold _ _ _ => true
  | .submit x0 => x0.wf
  | .queueCreate x0 => x0.wf
  | .queueDestroy x0 => x0.wf
  | .queueDisable x0 => x0.wf
  | .queueEnable x0 => x0.wf
  | .queueReset x0 => x0.wf
  | .contextCreate x0 => x0.wf
  | .contextDestroy x0 => x0.wf
  | .regReadPacket x0 => x0.wf
  | .regWritePacket x0 => x0.wf
  | .queueQuery x0 => x0.wf
  | .fallbackRead x0 => x0.wf
  | .echo x0 => x0.wf
  | .launch x0 => x0.wf
  | .copy x0 => x0.wf
  | .fill x0 => x0.wf
  | .eventSignal x0 => x0.wf
  | .eventWait x0 => x0.wf
  | .preload x0 => x0.wf
  | .unlock x0 => x0.wf
  | .unlockReleaseDone _ => true
  | .realignSet x0 => x0.wf
  | .timestamp x0 => x0.wf
  | .regReadNode x0 => x0.wf
  | .regWriteNode x0 => x0.wf
  | .setSeed x0 => x0.wf
  | .ckptCopy x0 => x0.wf
  | .rangeCreate x0 => x0.wf
  | .rangeDestroy x0 => x0.wf
  | .setReload x0 => x0.wf
  | .heap x0 => x0.wf
  | .rangeEvent x0 => x0.wf
  | .partitionAssign x0 => x0.wf
  | .powerPolicy x0 => x0.wf
  | .regionShutdown x0 => x0.wf
  | .regionEnable x0 => x0.wf
  | .regionShutdownDone _ => true
  | .regionEnableDone _ => true
  | .nodeStart x0 => x0.wf
  | .nodeComplete x0 => x0.wf
  | .queueAbortDone _ => true
  | .engineAbortReport x0 => x0.wf
  | .abortReportTimeout x0 => x0.wf
  | .contextDestroyDone _ => true
  | .nodeWatchdogExpire x0 => x0.wf
  | .timedLaunchDue x0 => x0.wf
  | .preemptTimeout x0 x1 => x0.wf && victimsWf x1
  | .sliceTimeout x0 x1 => x0.wf && victimsWf x1
  | .contextSwitchForced x0 x1 => x0.wf && spotsWf x1
  | .objectTeardown _ => true
  | .mailboxAlloc x0 _ => serialWf x0
  | .mailboxFree x0 _ => serialWf x0
  | .linkDisable x0 => x0.wf
  | .linkEnable x0 => x0.wf
  | .linkRetrain x0 => x0.wf
  | .ackPeer x0 => x0.wf
  | .setId x0 => x0.wf
  | .routeLoad x0 => x0.wf
  | .frameReceive _ _ _ _ _ _ _ _ => true
  | .linkAckTimeout _ => true
  | .laneRetrainTrigger _ _ _ => true
  | .laneRetrainDone _ _ => true
  | .laneRetryTimer _ => true
  | .linkTrainingDone _ _ _ => true
  | .linkRetryTimer _ => true
  | .linkDrainEnd _ => true
  | .discoverTimer _ => true
  | .discover _ _ => true
  | .packetAgeTimeout _ _ => true
  | .put _ _ => true
  | .get _ _ => true
  | .signal _ _ => true
  | .bsignal _ _ => true
  | .abort _ _ => true
  | .esrelAdd _ _ => true
  | .esrelSmin _ _ => true
  | .esrelSmax _ _ => true
  | .esrelUmin _ _ => true
  | .esrelUmax _ _ => true
  | .esrelAnd _ _ => true
  | .esrelOr _ _ => true
  | .esrelXor _ _ => true
  | .swap _ _ => true
  | .cas _ _ => true
  | .fetchadd _ _ => true
  | .rsp _ _ => true
  | .resendTimer _ => true
  | .giveupTimer _ => true
  | .tsyncPeriod => true
  | .tsyncReq _ _ => true
  | .tsyncRsp _ _ _ _ _ => true
  | .join x0 => x0.wf
  | .leave x0 => x0.wf
  | .jsExport x0 => x0.wf
  | .unexport x0 => x0.wf
  | .jobSetAbort x0 => x0.wf
  | .clear x0 => x0.wf
  | .hread _ => true
  | .hwrite _ => true
  | .hatomicFetchadd _ => true
  | .hatomicSwap _ => true
  | .hatomicCas _ => true
  | .hatomicSignal _ => true
  | .dcpl _ _ _ _ _ => true
  | .credit _ _ _ _ => true
  | .ucCplTimeoutExpire _ => true
  | .flitReceive _ => true
  | .sidebandRetrainRequest => true
  | .ucTrainingDone _ _ _ _ _ => true
  | .ucDisablingEnd => true
  | .ucRetryTimer => true
  | .ucDisable => true
  | .ucEnable => true
  | .ucRetrain => true
  | .powerEpochBoundary => true
  | .powerSample _ _ _ _ _ => true
  | .droopDetect _ => true
  | .sensorRead _ _ => true
  | .hotHoldExpire => true
  | .thermAlertAssert _ => true
  | .thermAlertDeassert _ => true
  | .avsCommandFail _ _ _ _ _ => true
  | .railOutOfRange _ => true
  | .samplingWindowBoundary _ _ _ _ _ x5 => actsWf x5
  | .coreSilent _ => true
  | .feMismatch x0 => x0.all NodeRef.wf
  | .feRestartDone _ _ => true
  | .recoveryOverrun => true
  | .overrunClear => true
  | .powerOnReset _ => true
  | .resetN _ => true
  | .stage x0 => x0.wf
  | .switch x0 => x0.wf
  | .imageReadyTimeout => true
  | .commitSvn x0 => x0.wf
  | .revoke x0 => x0.wf
  | .attest x0 => x0.wf
  | .storeSettings x0 => x0.wf
  | .revert x0 => x0.wf
  | .settingsCommitDone => true
  | .calibrationDue _ => true
  | .calibrationStart _ _ => true
  | .nop _ => true
  | .enumerate _ => true
  | .chainRead _ _ => true
  | .chainWrite _ _ => true
  | .chainStatus _ => true
  | .chainFreeze _ => true
  | .chainReset _ _ => true
  | .park _ => true
  | .image _ => true
  | .imageDone _ => true
  | .freezeN _ => true
  | .extest => true
  | .idcode => true
  | .samplePreload => true
  | .tapFreeze => true
  | .scanSel _ _ => true
  | .scanData _ => true
  | .bypass => true
  | .timePpsEdge _ _ => true
  | .mtSampleMissed => true
  | .mtHoldoverExpire => true
  | .mtSet _ _ => true
  | .mtStep _ _ => true
  | .mtCtrlWrite _ _ => true
  | .mtUpstreamWrite _ _ => true
  | .mtFreqTrimWrite _ _ => true
  | .pmCapWrite _ _ => true
  | .pmClkModeWrite _ _ => true
  | .rcFieldRead _ => true
  | .registerWrite _ _ _ => true
  | .instructionCompletion _ _ _ => true
  | .hostEventPoll x0 => x0.wf
  | .laneRepair _ => true
  | .vddIoLoss => true
  | .resetNRelease _ => true
  | .calibrationDone _ _ x2 x3 => onceWf x2 && onceWf x3
  | .domainResetDone => true

end Sys2Proof
end

