-- ==== Sys2Proof/Certificates/Slice0/Obligations.lean ====
section
/-!
DEFINITION. Certificates/Slice0/Obligations.lean: the statements about the U6400, with the vocabulary they share.
-/
open Sys2Proof Sys2Proof.Machine

namespace Sys2Proof.Claims

/-! ### Issue of a tray instruction -/

/-- The tray of `o` may issue this instruction: it is active and runs (R51, R76), its code word is not poisoned (R216), the
register file reads clean (R59), no breakpoint stands before it (R434) and no vector chain is open (R148). -/
def CanIssue (o : TrayOp) (s : State) (x : Ctx) : Prop :=
  issueCtx o s = some x ∧ x.atBreak = false ∧ s.extentPoisoned (x.L.codeBase + 8 * x.p.pc) 8 = false ∧
    o.rfEcc = .clean ∧ chainOpen s o.core o.slot = false

/-- Outside the tray of `o` an instruction has left every tray, memory, lines, queues, time and messages as they were. -/
def TrayOnly (o : TrayOp) (s t : State) : Prop :=
  t.mem = s.mem ∧ t.undef = s.undef ∧ t.poison = s.poison ∧ t.lines = s.lines ∧ t.queues = s.queues ∧ t.ranges = s.ranges ∧
    t.movers = s.movers ∧ t.now = s.now ∧ t.sent = s.sent ∧ t.pending = s.pending ∧
    ∀ c k, (c ≠ o.core.val ∨ k ≠ o.slot.val) → t.tray c k = s.tray c k

/-- The instruction has issued with one result in flight and its lane registers and predicates as they were (R45, R51). -/
def InFlight (i : Instr) (o : TrayOp) (s : State) (x : Ctx) (P : Tray → Pend → Prop) : Prop :=
  ∃ t y pd, exec i s = .next t ∧ TrayOnly o s t ∧ t.tray o.core o.slot = some y ∧ y.pend = x.t.pend ++ [pd] ∧
    y.regs = x.t.regs ∧ y.preds = x.t.preds ∧ y.live = x.t.live ∧ P y pd

/-- The result in flight writes `v`, one or two registers wide, to register `d` in the lanes of `lanes`, and nothing else. -/
def WritesReg (x : Ctx) (lanes : Mask) (d : Nat) (wide : Bool) (v : Nat → BitVec 64) (y : Tray) (pd : Pend) : Prop :=
  (∀ r l, l < 32 → (y.finish pd false).reg r l =
    if Mask.has lanes l ∧ r = d then (v l).setWidth 32
    else if Mask.has lanes l ∧ wide = true ∧ r = d + 1 then (v l).extractLsb' 32 32
    else x.t.reg r l) ∧
  (y.finish pd false).preds = x.t.preds

/-- The result in flight writes `v` to DST in the lanes whose predicate is true. -/
def WritesDst (o : TrayOp) (x : Ctx) (wide : Bool) (v : Nat → BitVec 64) (y : Tray) (pd : Pend) : Prop :=
  WritesReg x x.on o.dst.toNat wide v y pd

/-- The result in flight writes `v` to predicate `p` in the lanes of `lanes`, and nothing else. -/
def WritesPred (x : Ctx) (p : Nat) (lanes : Mask) (v : Nat → Bool) (y : Tray) (pd : Pend) : Prop :=
  (∀ q l, l < 32 → Mask.has ((y.finish pd false).pred q) l =
    if q = p ∧ Mask.has lanes l then v l else Mask.has (x.t.pred q) l) ∧
  (y.finish pd false).regs = x.t.regs

/-- Operands A, B and C in a lane, of 32 bits and of 64. -/
def a32 (o : TrayOp) (x : Ctx) (l : Nat) : BitVec 32 := BitVec.ofNat 32 (x.src o.srcA.toNat l)
def b32 (o : TrayOp) (x : Ctx) (l : Nat) : BitVec 32 := BitVec.ofNat 32 (x.valB o .w32 l)
def a64 (o : TrayOp) (x : Ctx) (l : Nat) : BitVec 64 := BitVec.ofNat 64 (x.src64 o.srcA.toNat l)
def b64 (o : TrayOp) (x : Ctx) (l : Nat) : BitVec 64 := BitVec.ofNat 64 (x.valB o .w64 l)

/-- A row of the SIMT tables: its command, its shape, what else it reads, and its result in a lane. -/
structure SimtRow where
  instr : Instr
  shape : Shape
  extra : List Nat := []
  val : Ctx → Nat → BitVec 64

/-- A legal instruction of the row with no operand pending issues with its result in flight. -/
def SimtRow.Holds (r : SimtRow) (o : TrayOp) : Prop :=
  ∀ s x, CanIssue o s x → simtLegal o x.L r.shape = true → x.clear (x.guards ++ (simtRegs o r.shape ++ r.extra)) = true →
    InFlight r.instr o s x (WritesDst o x (decide (r.shape.d = .w64)) (r.val x))

/-- A function of two operands in its 32-bit and 64-bit forms, by W64. -/
def twoForms (o : TrayOp) (f : BitVec 32 → BitVec 32 → BitVec 32) (g : BitVec 64 → BitVec 64 → BitVec 64) (x : Ctx) (l : Nat) :
    BitVec 64 :=
  if o.w64 then g (a64 o x l) (b64 o x l) else (f (a32 o x l) (b32 o x l)).setWidth 64

/-- Is a below b: unsigned with UNS, signed without? -/
def below {n : Nat} (o : TrayOp) (a b : BitVec n) : Bool := if o.uns then a.ult b else a.slt b

/-- The product of two 32-bit operands in 64 bits: unsigned with UNS, signed without. -/
def product (o : TrayOp) (a b : BitVec 32) : BitVec 64 :=
  if o.uns then a.setWidth 64 * b.setWidth 64 else a.signExtend 64 * b.signExtend 64

def narrow2 : Shape := { a := .w32, b := .w32, d := .w32 }

def arithmeticRows (o : TrayOp) : List SimtRow :=
  [{ instr := .add o, shape := shape2 o, val := twoForms o (fun a b => a + b) (fun a b => a + b) },
   { instr := .sub o, shape := shape2 o, val := twoForms o (fun a b => a - b) (fun a b => a - b) },
   { instr := .min o, shape := shape2 o,
     val := twoForms o (fun a b => if below o b a then b else a) (fun a b => if below o b a then b else a) },
   { instr := .max o, shape := shape2 o,
     val := twoForms o (fun a b => if below o a b then b else a) (fun a b => if below o a b then b else a) },
   { instr := .mul o, shape := shape2n o, val := fun x l => (a32 o x l * b32 o x l).setWidth 64 },
   { instr := .mulhi o, shape := shape2n o,
     val := fun x l => ((product o (a32 o x l) (b32 o x l)).extractLsb' 32 32).setWidth 64 },
   { instr := .mulwide o, shape := { shape2n o with d := .w64 }, val := fun x l => product o (a32 o x l) (b32 o x l) }]

def logicRows (o : TrayOp) : List SimtRow :=
  [{ instr := .and o, shape := shape2 o, val := twoForms o (fun a b => a &&& b) (fun a b => a &&& b) },
   { instr := .or o, shape := shape2 o, val := twoForms o (fun a b => a ||| b) (fun a b => a ||| b) },
   { instr := .xor o, shape := shape2 o, val := twoForms o (fun a b => a ^^^ b) (fun a b => a ^^^ b) },
   { instr := .not o, shape := { a := srcWide o.w64, d := dstWide o.w64 },
     val := twoForms o (fun a _ => ~~~a) (fun a _ => ~~~a) },
   { instr := .shl o, shape := shape2 o,
     val := twoForms o (fun a b => a <<< (b.toNat % 32)) (fun a b => a <<< (b.toNat % 64)) },
   { instr := .shra o, shape := shape2 o,
     val := twoForms o (fun a b => a.sshiftRight (b.toNat % 32)) (fun a b => a.sshiftRight (b.toNat % 64)) },
   { instr := .shrl o, shape := shape2 o,
     val := twoForms o (fun a b => a >>> (b.toNat % 32)) (fun a b => a >>> (b.toNat % 64)) }]

/-- The low `k` bits of A extended to 64 bits: by zeros with UNS, by the sign without. -/
def extended (o : TrayOp) (k : Nat) (a : BitVec 32) : BitVec 64 :=
  if o.uns then (a.setWidth k).setWidth 64 else (a.setWidth k).signExtend 64

def moveRows (o : TrayOp) : List SimtRow :=
  [{ instr := .mov o, shape := { b := srcWide o.w64, d := dstWide o.w64 }, val := twoForms o (fun _ b => b) (fun _ b => b) },
   { instr := .sel o, shape := shape2 o, extra := [predReg o.pdst],
     val := fun x l => if Mask.has (x.t.pred o.pdst) l then twoForms o (fun a _ => a) (fun a _ => a) x l
       else twoForms o (fun _ b => b) (fun _ b => b) x l },
   { instr := .ext8 o, shape := { a := .w32, ok := !o.w64 }, val := fun x l => extended o 8 (a32 o x l) },
   { instr := .ext16 o, shape := { a := .w32, ok := !o.w64 }, val := fun x l => extended o 16 (a32 o x l) },
   { instr := .ext64 o, shape := { a := .w32, d := .w64, ok := !o.w64 }, val := fun x l => extended o 32 (a32 o x l) },
   { instr := .popc o, shape := { a := .w32, ok := !o.w64 },
     val := fun x l => BitVec.ofNat 64 ((List.range 32).filter (fun i => (a32 o x l).getLsbD i)).length },
   { instr := .clz o, shape := { a := .w32, ok := !o.w64 },
     val := fun x l => if a32 o x l = 0 then 32 else BitVec.ofNat 64 (31 - Nat.log2 (a32 o x l).toNat) }]

/-- The comparison of code 0 EQ, 1 NE, 2 LT, 3 LE, 4 GT, 5 GE by an order (R46). -/
def compares {n : Nat} (o : TrayOp) (a b : BitVec n) : Bool :=
  match o.cmp with
  | 0 => a == b
  | 1 => a != b
  | 2 => below o a b
  | 3 => !(below o b a)
  | 4 => below o b a
  | _ => !(below o a b)

def floatRows (o : TrayOp) : List SimtRow :=
  let v := fun (w : SrcW) (code : BitVec 8) (x : Ctx) (l : Nat) => x.val w code.toNat l
  let w := srcWide o.dbl
  [{ instr := .fadd o, shape := shapeF2 o, val := fun x l => BitVec.ofNat 64 (o.fmt.add (v w o.srcA x l) (x.valB o w l)).bits },
   { instr := .fsub o, shape := shapeF2 o, val := fun x l => BitVec.ofNat 64 (o.fmt.sub (v w o.srcA x l) (x.valB o w l)).bits },
   { instr := .fmul o, shape := shapeF2 o, val := fun x l => BitVec.ofNat 64 (o.fmt.mul (v w o.srcA x l) (x.valB o w l)).bits },
   { instr := .ffma o, shape := shapeF3 o,
     val := fun x l => BitVec.ofNat 64 (o.fmt.fma (v w o.srcA x l) (x.valB o w l) (v w o.srcC x l)).bits },
   { instr := .fmin o, shape := shapeF2 o, val := fun x l => BitVec.ofNat 64 (o.fmt.min (v w o.srcA x l) (x.valB o w l)).bits },
   { instr := .fmax o, shape := shapeF2 o, val := fun x l => BitVec.ofNat 64 (o.fmt.max (v w o.srcA x l) (x.valB o w l)).bits },
   { instr := .fabs o, shape := shapeF1 o, val := fun x l => BitVec.ofNat 64 (o.fmt.abs (v w o.srcA x l)).bits },
   { instr := .fneg o, shape := shapeF1 o, val := fun x l => BitVec.ofNat 64 (o.fmt.negate (v w o.srcA x l)).bits }]

def convertRows (o : TrayOp) : List SimtRow :=
  [{ instr := .cvt o, shape := shapeCvt o,
     val := fun x l => BitVec.ofNat 64 (cvtLane o.pdst o.cmp o.uns (x.val (shapeCvt o).a o.srcA.toNat l)) },
   { instr := .rcp o, shape := shapeSpecial o, val := fun x l => BitVec.ofNat 64 (rcpFn (a32 o x l)) },
   { instr := .rsq o, shape := shapeSpecial o, val := fun x l => BitVec.ofNat 64 (rsqFn (a32 o x l)) },
   { instr := .ex2 o, shape := shapeSpecial o, val := fun x l => BitVec.ofNat 64 (ex2Fn (a32 o x l)) },
   { instr := .lg2 o, shape := shapeSpecial o, val := fun x l => BitVec.ofNat 64 (lg2Fn (a32 o x l)) }]

/-! ### Paths -/

/-- The tray has one path, inside no split. -/
def OnePath (x : Ctx) : Prop := x.t.paths = [x.p] ∧ x.p.splits = []

/-- The instruction has issued; what it leaves in its tray satisfies `P`, its registers and predicates are as they were. -/
def Leaves (i : Instr) (o : TrayOp) (s : State) (x : Ctx) (P : State → Tray → Prop) : Prop :=
  ∃ t y, exec i s = .next t ∧ TrayOnly o s t ∧ t.tray o.core o.slot = some y ∧ y.regs = x.t.regs ∧ y.preds = x.t.preds ∧ P t y

/-- The tray's one path goes on at `pc`. -/
def GoesTo (x : Ctx) (pc : Nat) (_ : State) (y : Tray) : Prop :=
  ∃ p, y.paths = [p] ∧ y.path = some p ∧ p.pc = pc ∧ p.lanes = x.p.lanes ∧ p.wait = none

/-- The launch of the tray has failed with a status, and its trays on the core have stopped (R17). -/
def Stops (i : Instr) (o : TrayOp) (s : State) (x : Ctx) (status : Nat) : Prop :=
  ∃ t L, exec i s = .next t ∧ t.launch x.t.launch = some L ∧ L.aborting = true ∧ o.core.val ∈ L.stopped ∧
    (x.L.status = 0 → L.status = status) ∧ ∃ y, t.tray o.core o.slot = some y ∧ y.regs = x.t.regs ∧ y.preds = x.t.preds

/-! ### Memory -/

/-- The window instruction's lanes pass the check of R73: its window `w` exists, permits the access, and holds every lane's
offset and size. -/
def PassesWindow (o : TrayOp) (x : Ctx) (perm : Window → Bool) (w : Window) : Prop :=
  x.on ≠ 0 ∧ o.sizeCode < 5 ∧ legalRegs x.L o.srcA.toNat 2 = true ∧ x.L.windows[o.win]? = some w ∧
    windowFails (some w) perm o.bytes (x.offsets o.srcA.toNat) = none

/-- The address that a lane's access goes to: the window's base and the lane's 64-bit offset. -/
def laneAddress (o : TrayOp) (x : Ctx) (w : Window) (l : Nat) : Nat := w.base + x.regsVal o.srcA.toNat 2 l

/-- The access has gone to the load/store unit behind the core's others, one part for each lane whose predicate is true, in
ascending lane order; the registers `regs` wait for it. -/
def Queued (i : Instr) (o : TrayOp) (s : State) (x : Ctx) (w : Window) (kind : MemKind) (regs : List Nat) (data : Nat → Nat) : Prop :=
  ∃ t y op, exec i s = .next t ∧ TrayOnly o s t ∧ t.tray o.core o.slot = some y ∧ y.regs = x.t.regs ∧ y.preds = x.t.preds ∧
    (t.core o.core).ops = (s.core o.core).ops ++ [op] ∧ op.slot = o.slot.val ∧ op.kind = kind ∧ op.size = o.bytes ∧
    op.acquire = o.acq ∧ op.release = o.rel ∧ op.scope = o.scope ∧ op.policy = w.policy ∧ op.near = w.near ∧
    op.lanes.map (fun a => (a.lane, a.addr, a.data)) = (Mask.lanes x.on).map (fun l => (l, laneAddress o x w l, data l)) ∧
    y.pend = x.t.pend ++ (if regs = [] then [] else
      [{ serial := op.serial, kind := .external op.serial, longLatency := true, regs := regs }])

/-- None of the lanes reaches the host window or a core's local SRAM. -/
def OnDevice (o : TrayOp) (x : Ctx) (w : Window) : Prop :=
  ∀ l ∈ Mask.lanes x.on, isHost (laneAddress o x w l) = false ∧ isSram (laneAddress o x w l) = false

/-- Every access of the device to the host window has been sent (R354). -/
def AllSent (s : State) : Prop := ∀ c, ∀ p ∈ (s.core c).ops, p.host = true → p.sent = true

/-- The atomics of R69 and R70 that do not hold their path, with the operation each performs and whether it fetches. -/
def atomicRows (o : TrayOp) : List (Instr × AtomOp × Bool) :=
  [(.atomAdd o, .add, false), (.atomFetchadd o, .add, true), (.atomSmin o, .smin, false), (.atomSminFetch o, .smin, true),
   (.atomSmax o, .smax, false), (.atomSmaxFetch o, .smax, true), (.atomUmin o, .umin, false), (.atomUminFetch o, .umin, true),
   (.atomUmax o, .umax, false), (.atomUmaxFetch o, .umax, true), (.atomAnd o, .and, false), (.atomAndFetch o, .and, true),
   (.atomOr o, .or, false), (.atomOrFetch o, .or, true), (.atomXor o, .xor, false), (.atomXorFetch o, .xor, true),
   (.atomFadd o, .fadd, false), (.fetchfadd o, .fadd, true), (.atomSwap o, .swap, true), (.atomCas o, .cas, true)]

/-- The k-th access of a core, at its turn: it is no host access, what orders it is done (R235, R236), and the domain is not
stopped (R234). -/
def AtItsTurn (s : State) (core k : Nat) (op : MemOp) : Prop :=
  s.clocked = true ∧ (s.core core).ops[k]? = some op ∧ op.host = false ∧ mayPerform (s.core core) op = true ∧
    s.domainStopped = false

/-- A scratchpad instruction of a tray of sheet `h` at its turn: every lane's offset and size lie in the sheet's allocation
(R74), no vector instruction holds the extent (R150), earlier acquires are done and so is what its own release orders (R236), and
the code finds the words clean (R185). -/
def InScratch (o : TrayOp) (s : State) (x : Ctx) (h : Sheet) : Prop :=
  x.on ≠ 0 ∧ o.sizeCode < 5 ∧ legalRegs x.L o.srcA.toNat 2 = true ∧ x.sheet = some h ∧ o.unitEcc = .clean ∧
    (∀ l ∈ Mask.lanes x.on, x.regsVal o.srcA.toNat 2 l + o.bytes ≤ h.size ∧
      veHolds (s.core o.core) x.t.sheet (x.regsVal o.srcA.toNat 2 l, o.bytes) = false) ∧
    acquiresDone (trayOps (s.core o.core) o.slot) x.on = true ∧
    (o.rel = true → releaseDone (trayOps (s.core o.core) o.slot) (some x.t) x.on o.scope = true)

/-- The physical address of a lane's scratchpad access. -/
def scratchAddress (o : TrayOp) (x : Ctx) (h : Sheet) (l : Nat) : Nat := h.addr o.core (x.regsVal o.srcA.toNat 2 l)

/-! ### Waits -/

/-- The tray's one path waits behind the instruction, for what `kind` says. -/
def Waits (x : Ctx) (kind : WaitKind) (_ : State) (y : Tray) : Prop :=
  ∃ p w, y.paths = [p] ∧ p.pc = x.p.pc + 1 ∧ p.lanes = x.p.lanes ∧ p.wait = some w ∧ w.kind = kind

/-- No path of the device waits on an event word. -/
def NoEventWaits (s : State) : Prop := ∀ e ∈ waiters s, ∀ a v, e.2.2.2.kind ≠ .event a v

/-- A SYNC instruction on sync counter `o.index`, which its launch may use (R249). -/
def OnCounter (o : TrayOp) (x : Ctx) : Prop :=
  x.on ≠ 0 ∧ o.fld 0 3 = 0 ∧ o.dst = 0 ∧ o.index < 48 ∧ Nat.testBit x.L.counterMask o.index = true ∧ legalRegs x.L o.srcB.toNat 1 = true

/-- A SYNC instruction on the event word at `a` in device memory, in a window that permits it (R73, R255, R305). -/
def OnEventWord (o : TrayOp) (s : State) (x : Ctx) (perm : Window → Bool) (w : Window) (a : Nat) : Prop :=
  x.on ≠ 0 ∧ o.fld 0 3 = 0 ∧ o.dst = 0 ∧ legalRegs x.L o.srcA.toNat 2 = true ∧ legalRegs x.L o.srcB.toNat 2 = true ∧
    x.L.windows[o.index]? = some w ∧ perm w = true ∧ a = w.base + x.one o.srcA.toNat 2 ∧ x.one o.srcA.toNat 2 + 8 ≤ w.bound ∧
    isHost a = false ∧ a % 8 = 0 ∧ s.extentPoisoned a 8 = false

end Sys2Proof.Claims

open Sys2Proof.Claims

/-- R47: ADD, SUB, MIN, MAX, MUL, MULHI and MULWIDE, in both widths. -/
def Sys2Proof.Claims.IntegerArithmetic : Prop := ∀ o, ∀ r ∈ arithmeticRows o, r.Holds o

/-- R47: AND, OR, XOR, NOT and the shifts, in both widths; a count is taken modulo the width. -/
def Sys2Proof.Claims.IntegerLogic : Prop := ∀ o, ∀ r ∈ logicRows o, r.Holds o

/-- R47: MOV, SEL, EXT8, EXT16, EXT64, POPC and CLZ. -/
def Sys2Proof.Claims.IntegerMoves : Prop := ∀ o, ∀ r ∈ moveRows o, r.Holds o

/-- R48: FADD, FSUB, FMUL, FFMA, FMIN, FMAX, FABS and FNEG, in both precisions. -/
def Sys2Proof.Claims.FloatArithmetic : Prop := ∀ o, ∀ r ∈ floatRows o, r.Holds o

/-- R48: CVT and the special functions. -/
def Sys2Proof.Claims.FloatConvert : Prop := ∀ o, ∀ r ∈ convertRows o, r.Holds o

/-- R47, R48: SETP and FSETP write PDST in the lanes whose predicate is true. -/
def Sys2Proof.Claims.Compares : Prop :=
  ∀ o s x, CanIssue o s x →
    (simtLegal o x.L { shape2 o with d := .pred } = true →
      x.clear (x.guards ++ (simtRegs o { shape2 o with d := .pred } ++ [])) = true →
      InFlight (.setp o) o s x (WritesPred x o.pdst x.on (fun l =>
        if o.w64 then compares o (a64 o x l) (b64 o x l) else compares o (a32 o x l) (b32 o x l)))) ∧
    (simtLegal o x.L { shapeF2 o with d := .pred } = true →
      x.clear (x.guards ++ (simtRegs o { shapeF2 o with d := .pred } ++ [])) = true →
      InFlight (.fsetp o) o s x (WritesPred x o.pdst x.on (fun l =>
        FV.cmp o.cmp (o.fmt.decode (x.val (srcWide o.dbl) o.srcA.toNat l)) (o.fmt.decode (x.valB o (srcWide o.dbl) l)))))

/-- R49, R60: BR and BRD of a tray with one path. Where no lane takes the branch it goes on behind it, where all do it goes to
TARGET; where they differ BR is an illegal instruction, and BRD splits the path: the fall-through lanes keep it, the taken lanes
form a new path at the end of the path order. -/
def Sys2Proof.Claims.Branches : Prop :=
  ∀ o s x target, CanIssue o s x → OnePath x → x.clear x.guards = true → branchTarget x (o.fld 24 24) = some target →
    (o.fld 0 24 = 0 →
      (x.on = 0 → Leaves (.br o) o s x (GoesTo x (x.p.pc + 1))) ∧
      (x.on ≠ 0 → x.on = x.act → Leaves (.br o) o s x (GoesTo x target)) ∧
      (x.on ≠ 0 → x.on ≠ x.act → Stops (.br o) o s x stIllegal)) ∧
    (∀ reconv, branchTarget x (o.fld 0 24) = some reconv →
      (x.on = 0 → Leaves (.brd o) o s x (GoesTo x (x.p.pc + 1))) ∧
      (x.on ≠ 0 → x.on = x.act → Leaves (.brd o) o s x (GoesTo x target)) ∧
      (x.on ≠ 0 → x.on ≠ x.act → x.p.id ≠ x.t.nextPath → reconv ≠ target → reconv ≠ x.p.pc + 1 →
        Leaves (.brd o) o s x (fun _ y =>
          y.paths.map (fun p => (p.id, p.pc, p.lanes)) =
            [(x.p.id, x.p.pc + 1, x.p.lanes &&& ~~~x.on), (x.t.nextPath, target, x.on)])))

/-- R61: when the last path of a split reaches the reconvergence address, the waiting paths merge into one with the union of
their masks. -/
def Sys2Proof.Claims.Reconverges : Prop :=
  ∀ o s x q k, CanIssue o s x → x.t.paths = [x.p, q] → x.p.id ≠ q.id →
    x.t.splits = [k] → x.p.splits = [k.id] → q.splits = [k.id] → q.wait = some { kind := .reconv } →
    x.clear x.guards = true → o.fld 0 24 = 0 → x.on ≠ 0 → x.on = x.act → branchTarget x (o.fld 24 24) = k.reconv →
    k.reconv.isSome = true →
    Leaves (.br o) o s x (fun _ y =>
      ∃ p, y.paths = [p] ∧ some p.pc = k.reconv ∧ p.lanes = x.p.lanes ||| q.lanes ∧ p.wait = none ∧ p.splits = [] ∧ y.splits = [])

/-- R49, R56, R62: YIELD of a tray with one path puts it into yield hold and is counted; with no lane it only advances. EXIT ends
the lanes whose predicate is true, and the others go on. -/
def Sys2Proof.Claims.YieldAndExit : Prop :=
  ∀ o s x, CanIssue o s x → OnePath x → x.clear x.guards = true → o.fld 0 48 = 0 →
    (x.on ≠ 0 → Leaves (.yield o) o s x (fun t y => GoesTo x (x.p.pc + 1) t y ∧ y.yieldHold = true ∧
      t.rget Fld.CO_PATH_SWITCH_YIELD o.core = min (s.rget Fld.CO_PATH_SWITCH_YIELD o.core + 1) (2 ^ 16 - 1))) ∧
    (x.on = 0 → Leaves (.yield o) o s x (GoesTo x (x.p.pc + 1))) ∧
    Leaves (.exit o) o s x (fun _ y => y.live = x.t.live &&& ~~~x.on ∧
      y.paths.map (fun p => (p.pc, p.lanes)) =
        if x.p.lanes &&& ~~~x.on = 0 then [] else [(x.p.pc + 1, x.p.lanes &&& ~~~x.on)])

/-- R49: PLOP writes PD in each lane whose predicate is true; VOTE counts those lanes and writes PD, or the ballot to DST, in every
active lane. -/
def Sys2Proof.Claims.PredicateLogic : Prop :=
  ∀ o s x, CanIssue o s x →
    (o.fld 43 5 = 0 → o.fld 35 5 = 0 → o.fld 27 5 = 0 → o.fld 13 11 = 0 → o.fld 0 9 = 0 → o.fld 40 3 ≠ 7 → o.fld 10 3 < 6 →
      x.clear (x.guards ++ [predReg (o.fld 40 3), predReg (o.fld 32 3), predReg (o.fld 24 3)]) = true →
      InFlight (.plop o) o s x (WritesPred x (o.fld 40 3) x.on (fun l =>
        let a := xor (Mask.has (x.t.pred (o.fld 32 3)) l) (decide (o.fld 9 1 = 1))
        let b := Mask.has (x.t.pred (o.fld 24 3)) l
        match o.fld 10 3 with
        | 0 => a && b
        | 1 => a || b
        | 2 => xor a b
        | 3 => a && !b
        | 4 => a || !b
        | _ => a))) ∧
    (o.fld 43 5 = 0 → o.fld 35 5 = 0 → o.fld 13 19 = 0 → o.fld 0 11 = 0 → o.fld 40 3 ≠ 7 → o.fld 11 2 < 2 →
      x.clear (x.guards ++ [predReg (o.fld 40 3), predReg (o.fld 32 3)]) = true →
      InFlight (.vote o) o s x (WritesPred x (o.fld 40 3) x.act (fun _ =>
        if o.fld 11 2 = 0 then (Mask.lanes x.on).any (fun l => Mask.has (x.t.pred (o.fld 32 3)) l)
        else (Mask.lanes x.on).all (fun l => Mask.has (x.t.pred (o.fld 32 3)) l)))) ∧
    (o.fld 35 5 = 0 → o.fld 13 19 = 0 → o.fld 0 11 = 0 → o.fld 11 2 = 2 → o.dst.toNat < x.L.regs →
      x.clear (x.guards ++ [o.dst.toNat, predReg (o.fld 32 3)]) = true →
      InFlight (.vote o) o s x (WritesReg x x.act o.dst.toNat false (fun _ =>
        (x.on &&& x.t.pred (o.fld 32 3)).setWidth 64)))

/-- R50, R72, R73, R187: LD, LDS, LDRES and ST go to the load/store unit with one part for each lane whose predicate is true. -/
def Sys2Proof.Claims.WindowAccess : Prop :=
  ∀ o s x w, CanIssue o s x → OnDevice o x w → AllSent s →
    (PassesWindow o x winR w → o.srcB.toNat = 135 → o.srcC.toNat = 135 → o.sem ≤ 1 →
      legalRegs x.L o.dst.toNat (regCount o.bytes) = true →
      x.clear (x.guards ++ (regsOf o.srcA.toNat 2 ++ regsOf o.dst.toNat (regCount o.bytes))) = true →
      Queued (.ld o) o s x w (.load false) (regsOf o.dst.toNat (regCount o.bytes)) (fun _ => 0) ∧
      (o.sizeCode ≤ 1 → Queued (.lds o) o s x w (.load true) (regsOf o.dst.toNat (regCount o.bytes)) (fun _ => 0)) ∧
      (o.sizeCode = 2 ∨ o.sizeCode = 3 → w.near = false →
        Queued (.ldres o) o s x w .reserved (regsOf o.dst.toNat (regCount o.bytes)) (fun _ => 0))) ∧
    (PassesWindow o x winW w → o.srcB.toNat = 135 → o.dst.toNat = 135 → (o.sem = 0 ∨ o.sem = 2) →
      legalRegs x.L o.srcC.toNat (regCount o.bytes) = true →
      x.clear (x.guards ++ (regsOf o.srcA.toNat 2 ++ regsOf o.srcC.toNat (regCount o.bytes))) = true →
      Queued (.st o) o s x w .store [] (fun l => x.regsVal o.srcC.toNat (regCount o.bytes) l % 2 ^ (8 * o.bytes)))

/-- R190, R353, R354: a load or store whose lanes all reach the host window is sent to the port, in the stream of its tray: each of
its requests is out or waits there. -/
def Sys2Proof.Claims.HostWindowAccess : Prop :=
  ∀ o s x w, CanIssue o s x → AllSent s → hostReachable s = true → (s.core o.core).ops = [] →
    (∀ l ∈ Mask.lanes x.on, hostBase ≤ laneAddress o x w l ∧ laneAddress o x w l + o.bytes ≤ hostEnd) →
    (let Sent := fun (i : Instr) (kind : ReqKind) => ∃ t op, exec i s = .next t ∧ t.mem = s.mem ∧ op ∈ (t.core o.core).ops ∧
        op.slot = o.slot.val ∧ op.host = true ∧ op.sent = true ∧ op.waiting = (op.requests o.core).length ∧
        op.lanes.map (fun a => (a.lane, a.addr)) = (Mask.lanes x.on).map (fun l => (l, laneAddress o x w l)) ∧
        ∀ r ∈ op.requests o.core, r.kind = kind ∧ r.stream = o.core.val * 64 + o.slot.val ∧
          (r ∈ t.uc.waiting ∨ ∃ tag q, SMap.find? t.uc.out tag = some q ∧ q.kind = kind ∧ q.off = r.off ∧ q.len = r.len ∧
            q.data = r.data)
     (PassesWindow o x winR w → o.srcB.toNat = 135 → o.srcC.toNat = 135 → o.sem ≤ 1 →
       legalRegs x.L o.dst.toNat (regCount o.bytes) = true →
       x.clear (x.guards ++ (regsOf o.srcA.toNat 2 ++ regsOf o.dst.toNat (regCount o.bytes))) = true → Sent (.ld o) .read) ∧
     (PassesWindow o x winW w → o.srcB.toNat = 135 → o.dst.toNat = 135 → o.sem = 0 →
       legalRegs x.L o.srcC.toNat (regCount o.bytes) = true →
       x.clear (x.guards ++ (regsOf o.srcA.toNat 2 ++ regsOf o.srcC.toNat (regCount o.bytes))) = true → Sent (.st o) .write))

/-- R73: when any lane fails the window's check, no lane accesses memory and the tray's launch stops with the window status. -/
def Sys2Proof.Claims.WindowFault : Prop :=
  ∀ o s x, CanIssue o s x → AllSent s → x.on ≠ 0 → o.sizeCode < 5 → legalRegs x.L o.srcA.toNat 2 = true →
    (∀ w, x.L.windows[o.win]? = some w →
      ∃ l ∈ Mask.lanes x.on, w.r = false ∨ w.bound < x.regsVal o.srcA.toNat 2 l + o.bytes) →
    o.srcB.toNat = 135 → o.srcC.toNat = 135 → o.sem ≤ 1 → legalRegs x.L o.dst.toNat (regCount o.bytes) = true →
    x.clear (x.guards ++ (regsOf o.srcA.toNat 2 ++ regsOf o.dst.toNat (regCount o.bytes))) = true →
    Stops (.ld o) o s x stWindow ∧ ∀ t, exec (.ld o) s = .next t → (t.core o.core).ops = (s.core o.core).ops

/-- R50, R67 to R70: each atomic but LOCKTRY goes to the load/store unit with its operation and its operands. -/
def Sys2Proof.Claims.AtomicIssue : Prop :=
  ∀ o s x w, CanIssue o s x → PassesWindow o x winA w → (o.sizeCode = 2 ∨ o.sizeCode = 3) → OnDevice o x w →
    (∀ l ∈ Mask.lanes x.on, laneAddress o x w l % o.bytes = 0) →
    ∀ r ∈ atomicRows o, (r.2.1 = .fadd → o.sizeCode = 2) →
      (if o.sizeCode = 3 then legalSrc64 x.L o.srcB.toNat else legalSrc x.L o.srcB.toNat) = true →
      (if r.2.1 = .cas then (if o.sizeCode = 3 then legalSrc64 x.L o.srcC.toNat else legalSrc x.L o.srcC.toNat)
        else decide (o.srcC.toNat = 135)) = true →
      (if r.2.2 then legalRegs x.L o.dst.toNat (regCount o.bytes) else decide (o.dst.toNat = 135)) = true →
      x.clear (x.guards ++ (regsOf o.srcA.toNat 2 ++ ((if r.2.2 then regsOf o.dst.toNat (regCount o.bytes) else []) ++
        regsOf o.srcB.toNat (regCount o.bytes) ++ (if r.2.1 = .cas then regsOf o.srcC.toNat (regCount o.bytes) else [])))) = true →
      Queued r.1 o s x w (.atomic r.2.1 r.2.2) (if r.2.2 then regsOf o.dst.toNat (regCount o.bytes) else [])
        (fun l => x.srcW (decide (o.sizeCode = 3)) o.srcB.toNat l)

/-- R67: an atomic on a misaligned address performs no access and stops its launch with the misaligned status. -/
def Sys2Proof.Claims.AtomicMisaligned : Prop :=
  ∀ o s x w, CanIssue o s x → PassesWindow o x winA w → o.sizeCode = 2 → OnDevice o x w → o.sem = 0 →
    (∃ l ∈ Mask.lanes x.on, laneAddress o x w l % 4 ≠ 0) → legalSrc x.L o.srcB.toNat = true → o.srcC.toNat = 135 →
    o.dst.toNat = 135 → x.clear (x.guards ++ (regsOf o.srcA.toNat 2 ++ regsOf o.srcB.toNat 1)) = true →
    Stops (.atomAdd o) o s x stMisaligned ∧ ∀ t, exec (.atomAdd o) s = .next t → (t.core o.core).ops = (s.core o.core).ops

/-- R65: LOCKTRY keeps its path, with its turn, until its result is there. -/
def Sys2Proof.Claims.LocktryIssue : Prop :=
  ∀ o s x w, CanIssue o s x → PassesWindow o x winA w → (o.sizeCode = 2 ∨ o.sizeCode = 3) → OnDevice o x w →
    (∀ l ∈ Mask.lanes x.on, laneAddress o x w l % o.bytes = 0) → o.sem ≤ 1 → o.dst.toNat < 7 → o.srcC.toNat = 135 →
    (if o.sizeCode = 3 then legalSrc64 x.L o.srcB.toNat else legalSrc x.L o.srcB.toNat) = true →
    x.clear (x.guards ++ (regsOf o.srcA.toNat 2 ++ ([predReg o.dst.toNat] ++ regsOf o.srcB.toNat (regCount o.bytes)))) = true →
    Queued (.locktry o) o s x w (.atomic .lockTry true) [predReg o.dst.toNat]
      (fun l => x.srcW (decide (o.sizeCode = 3)) o.srcB.toNat l) ∧
    ∀ t, exec (.locktry o) s = .next t → ∃ y p, t.tray o.core o.slot = some y ∧ y.running = x.t.running ∧
      y.path = some p ∧ p.pc = x.p.pc + 1 ∧ p.awaitsResult = true

/-- R229: a load's data reaches the registers of its lanes, extended as its row says, and no others. -/
def Sys2Proof.Claims.LoadReturn : Prop :=
  ∀ s s₁ (core : Fin 192) k op sg y, AtItsTurn s core k op → op.kind = .load sg → s.tray core op.slot = some y →
    (∀ a ∈ op.lanes, beyondSlot s a.addr op.size = false ∧ a.lane < 32) → (op.lanes.map (fun a => a.lane)).Nodup →
    overLines (fun s l => readLine s core l op.policy op.near) op.lines s = some s₁ →
    (∀ l, op.lines.contains l = true → (s₁.line l).reloadAt = none) → SMap.wf s₁.lines = true →
    (∀ a ∈ op.lanes, readPoisoned s₁ (forwarded (s.core core) op) a.addr op.size = false) →
    ∃ t z, exec (.loadDataReturn core k .clean) s = .next t ∧ t.tray core op.slot = some z ∧
      (∀ p ∈ (t.core core).ops, p.serial ≠ op.serial) ∧
      ∀ r l, l < 32 → z.reg r l =
        match op.lanes.find? (fun a => a.lane == l) with
        | some a =>
          if op.dst ≤ r ∧ r < op.dst + regCount op.size then
            BitVec.ofNat 32 (extendLoad sg op.size (overlayLE s₁ (forwarded (s.core core) op) a.addr op.size) >>> (32 * (r - op.dst)))
          else y.reg r l
        | none => y.reg r l

/-- R189, R222: a store under write-back to lines that the core's L1 holds in M is accepted: its bytes are written, every other
byte of memory and every line's state stay as they were, and the memory keeps its canonical form. -/
def Sys2Proof.Claims.StoreAccepted : Prop :=
  ∀ s (core : Fin 192) k op, AtItsTurn s core k op → op.kind = .store → s.memWf = true → 1 ≤ op.size →
    (∀ a ∈ op.lanes, beyondSlot s a.addr op.size = false) →
    (∀ l ∈ op.lines, isHbmLine l = true ∧ SMap.find? (s.line l).l1 core = some .m) →
    op.near = false → op.policy = 0 → (s.core core).l1KiB ≠ 0 → hostReachable s = true →
    ∃ t, exec (.storeAccepted core k) s = .next t ∧ t.lines = s.lines ∧ t.memWf = true ∧
      (∀ p ∈ (t.core core).ops, p.serial ≠ op.serial) ∧
      (∀ a, (∀ l ∈ op.lanes, a < l.addr ∨ l.addr + op.size ≤ a) → t.byte a = s.byte a) ∧
      (piecesApart (op.lanes.flatMap (piecesOf op.size)) = true →
        ∀ p ∈ op.lanes.flatMap (piecesOf op.size), ∀ i < p.2.1, t.byte (p.1 + i) = BitVec.ofNat 8 (p.2.2 >>> (8 * i)))

/-- R74: SLD and SLDS bring each lane's bytes from the sheet's scratchpad into its registers. -/
def Sys2Proof.Claims.ScratchLoads : Prop :=
  ∀ o s x h, CanIssue o s x → InScratch o s x h → o.srcB.toNat = 135 → o.srcC.toNat = 135 → o.sem ≤ 1 →
    legalRegs x.L o.dst.toNat (regCount o.bytes) = true →
    x.clear (x.guards ++ (regsOf o.srcA.toNat 2 ++ regsOf o.dst.toNat (regCount o.bytes))) = true →
    (∀ l ∈ Mask.lanes x.on, s.extentPoisoned (scratchAddress o x h l) o.bytes = false) →
    ∀ p ∈ [(Instr.sld o, false), (Instr.slds o, true)], (p.2 = true → o.sizeCode ≤ 1) →
      InFlight p.1 o s x (fun y pd =>
        (∀ r l, l < 32 → (y.finish pd false).reg r l =
          if Mask.has x.on l ∧ o.dst.toNat ≤ r ∧ r < o.dst.toNat + regCount o.bytes then
            BitVec.ofNat 32 (extendLoad p.2 o.bytes (s.readLE (scratchAddress o x h l) o.bytes) >>> (32 * (r - o.dst.toNat)))
          else x.t.reg r l) ∧
        (y.finish pd false).preds = x.t.preds)

/-- R74: SST writes each lane's data into the sheet's scratchpad, and no other byte of memory. -/
def Sys2Proof.Claims.ScratchStore : Prop :=
  ∀ o s x h, CanIssue o s x → InScratch o s x h → o.srcB.toNat = 135 → o.dst.toNat = 135 → (o.sem = 0 ∨ o.sem = 2) →
    legalRegs x.L o.srcC.toNat (regCount o.bytes) = true → s.memWf = true →
    x.clear (x.guards ++ (regsOf o.srcA.toNat 2 ++ regsOf o.srcC.toNat (regCount o.bytes))) = true →
    ∃ t y, exec (.sst o) s = .next t ∧ t.tray o.core o.slot = some y ∧ y.regs = x.t.regs ∧ y.preds = x.t.preds ∧
      y.pend = x.t.pend ∧ t.memWf = true ∧
      (∀ a, (∀ l ∈ Mask.lanes x.on, a < scratchAddress o x h l ∨ scratchAddress o x h l + o.bytes ≤ a) → t.byte a = s.byte a) ∧
      ((∀ l ∈ Mask.lanes x.on, ∀ m ∈ Mask.lanes x.on, l ≠ m →
          overlaps (scratchAddress o x h l, o.bytes) (scratchAddress o x h m, o.bytes) = false) →
        ∀ l ∈ Mask.lanes x.on, ∀ i < o.bytes, t.byte (scratchAddress o x h l + i) =
          BitVec.ofNat 8 (x.regsVal o.srcC.toNat (regCount o.bytes) l >>> (8 * i)))

/-- R71, R244: a store-conditional of one lane that still holds its reservation writes its word and takes its line in M; one of
lanes that hold none fails, writes nothing and is counted. Either way the lanes that executed hold no reservation afterwards. -/
def Sys2Proof.Claims.StoreConditional : Prop :=
  ∀ o s x w, CanIssue o s x → PassesWindow o x winW w → OnDevice o x w → (o.sizeCode = 2 ∨ o.sizeCode = 3) →
    o.srcB.toNat = 135 → o.dst.toNat < 7 → o.sem = 0 → legalRegs x.L o.srcC.toNat (regCount o.bytes) = true →
    x.clear (x.guards ++ (regsOf o.srcA.toNat 2 ++ (predReg o.dst.toNat :: regsOf o.srcC.toNat (regCount o.bytes)))) = true →
    acquiresDone (trayOps (s.core o.core) o.slot) x.on = true → s.memWf = true →
    (∀ l r, Mask.lanes x.on = [l] → x.t.resv.find? (fun r => r.lane == l) = some r →
      w.near = false → r.line = lineOf (laneAddress o x w l) → r.conflict = false → r.spurious = false → r.path = x.p.id →
      x.t.issueCount - r.base ≤ 16 → SMap.find? (s.line r.line).l1 o.core = some .m →
      ∃ t y pd, exec (.stc o) s = .next t ∧ t.tray o.core o.slot = some y ∧ y.pend = x.t.pend ++ [pd] ∧
        WritesPred x o.dst.toNat x.on (fun _ => true) y pd ∧ (∀ q ∈ y.resv, q.lane ≠ l) ∧ t.memWf = true ∧
        SMap.find? (t.line r.line).l1 o.core = some .m ∧
        (∀ a, a < laneAddress o x w l ∨ laneAddress o x w l + o.bytes ≤ a → t.byte a = s.byte a) ∧
        ∀ i < o.bytes, t.byte (laneAddress o x w l + i) =
          BitVec.ofNat 8 (x.regsVal o.srcC.toNat (regCount o.bytes) l >>> (8 * i))) ∧
    (x.t.resv = [] →
      ∃ t y pd, exec (.stc o) s = .next t ∧ t.tray o.core o.slot = some y ∧ y.pend = x.t.pend ++ [pd] ∧
        WritesPred x o.dst.toNat x.on (fun _ => false) y pd ∧ y.resv = [] ∧ t.mem = s.mem ∧ t.poison = s.poison ∧
        t.lines = s.lines)

/-- R239: a fence whose accesses have been performed at its scope goes on; one whose have not holds its path. -/
def Sys2Proof.Claims.Fences : Prop :=
  ∀ o s x, CanIssue o s x → OnePath x → x.on ≠ 0 → o.fld 4 9 = 0 → o.fld 16 32 = 0 → o.fld 0 2 ≠ 0 → x.clear x.guards = true →
    (fenceDone (s.core o.core) o.slot (o.fld 2 2) (decide (o.fld 0 2 = 1)) = true →
      Leaves (.fence o) o s x (GoesTo x (x.p.pc + 1))) ∧
    (fenceDone (s.core o.core) o.slot (o.fld 2 2) (decide (o.fld 0 2 = 1)) = false →
      Leaves (.fence o) o s x (Waits x (.fence (o.fld 2 2) (o.fld 0 2))))

/-- R247, R249, R250: CINC adds to its counter modulo 2^32 once the tray's earlier accesses have been performed, CSET sets it,
CREAD writes it to DST in every lane, and CWAIT goes on when the counter has reached its target and waits when it has not. -/
def Sys2Proof.Claims.SyncCounters : Prop :=
  ∀ o s x, CanIssue o s x → OnCounter o x →
    (o.fld 3 4 = 0 → x.clear (x.guards ++ regsOf o.srcB.toNat 1) = true →
      (x.released = true → ∃ t, exec (.cinc o) s = .next t ∧ t.mem = s.mem ∧ t.counter o.core o.index =
        (s.counter o.core o.index + x.one o.srcB.toNat 1) % 2 ^ 32 ∧
        (∃ y, t.tray o.core o.slot = some y ∧ y.regs = x.t.regs) ∧
        ∀ c i, c < 192 → i < 48 → (c ≠ o.core.val ∨ i ≠ o.index) → t.counter c i = s.counter c i) ∧
      ∃ t, exec (.cset o) s = .next t ∧ t.mem = s.mem ∧ t.counter o.core o.index = x.one o.srcB.toNat 1 ∧
        (∃ y, t.tray o.core o.slot = some y ∧ y.regs = x.t.regs) ∧
        ∀ c i, c < 192 → i < 48 → (c ≠ o.core.val ∨ i ≠ o.index) → t.counter c i = s.counter c i) ∧
    (OnePath x → o.soft = false → x.clear (x.guards ++ ([] ++ regsOf o.srcB.toNat 1)) = true →
      (reached (s.counter o.core o.index) (x.one o.srcB.toNat 1) = true → Leaves (.cwait o) o s x (GoesTo x (x.p.pc + 1))) ∧
      (reached (s.counter o.core o.index) (x.one o.srcB.toNat 1) = false →
        Leaves (.cwait o) o s x (fun t y => Waits x (.counter o.index (x.one o.srcB.toNat 1)) t y ∧ y.active = false)))

/-- R247: CREAD writes the counter to every lane of DST. -/
def Sys2Proof.Claims.CounterRead : Prop :=
  ∀ o s x, CanIssue o s x → x.on ≠ 0 → o.fld 0 7 = 0 → Nat.testBit x.L.counterMask o.index = true → o.dst.toNat < x.L.regs →
    x.clear (x.guards ++ regsOf o.dst.toNat 1) = true →
    InFlight (.cread o) o s x (WritesReg x (BitVec.allOnes 32) o.dst.toNat false (fun _ => BitVec.ofNat 64 (s.counter o.core o.index)))

/-- R250: a counter has reached a target when their difference modulo 2^32 is below 2^31. -/
def Sys2Proof.Claims.CounterReached : Prop :=
  ∀ v w : BitVec 32, reached v.toNat w.toNat = decide (0 ≤ (v - w).toInt)

/-- R64, R252: the arrival of a tray with one path at a barrier of its sheet is counted; the last arrival completes the phase: the
count goes to zero, S inverts and the path goes on. -/
def Sys2Proof.Claims.SheetBarrier : Prop :=
  ∀ o s x h b, CanIssue o s x → OnePath x → x.on ≠ 0 → o.fld 0 3 = 0 → o.fld 9 2 = 0 → o.fld 11 2 = 0 → o.dst = 0 →
    o.soft = false → x.clear x.guards = true →
    x.sheet = some h → h.uid = x.t.sheet → SMap.get h.barriers (o.fld 7 2) {} = b →
    trayOps (s.core o.core) o.slot = [] → x.t.senseOf 0 (o.fld 7 2) = b.sense →
    (b.count + 1 < sheetTrays (s.core o.core) x.t.sheet →
      ∃ t y, exec (.bar o) s = .next t ∧ t.tray o.core o.slot = some y ∧ Waits x (.barrier 0 (o.fld 7 2)) t y ∧
        y.active = false ∧ t.mem = s.mem ∧
        (barState t (.sheet o.core x.t.sheet (o.fld 7 2))).1 = b.count + 1 ∧
        (barState t (.sheet o.core x.t.sheet (o.fld 7 2))).2.2 = b.sense) ∧
    (b.count + 1 = sheetTrays (s.core o.core) x.t.sheet →
      ∃ t y, exec (.bar o) s = .next t ∧ t.tray o.core o.slot = some y ∧ GoesTo x (x.p.pc + 1) t y ∧ t.mem = s.mem ∧
        (barState t (.sheet o.core x.t.sheet (o.fld 7 2))).1 = 0 ∧
        (barState t (.sheet o.core x.t.sheet (o.fld 7 2))).2.2 = !b.sense)

/-- R255, R304: EWAIT goes on when the word is at least its value and waits when it is not; ESIG sets a word below its value to it
and leaves a word that equals it as it was. -/
def Sys2Proof.Claims.EventWords : Prop :=
  ∀ o s x w a, CanIssue o s x →
    (OnEventWord o s x winR w a → OnePath x → o.soft = false →
      x.clear (x.guards ++ ([] ++ regsOf o.srcA.toNat 2 ++ regsOf o.srcB.toNat 2)) = true →
      (x.one o.srcB.toNat 2 ≤ s.readLE a 8 → Leaves (.ewait o) o s x (GoesTo x (x.p.pc + 1))) ∧
      (s.readLE a 8 < x.one o.srcB.toNat 2 →
        Leaves (.ewait o) o s x (fun t y => Waits x (.event a (x.one o.srcB.toNat 2)) t y ∧ y.active = false))) ∧
    (OnEventWord o s x winA w a → o.fld 3 4 = 0 → x.released = true → NoEventWaits s → s.memWf = true →
      x.clear (x.guards ++ ([] ++ regsOf o.srcA.toNat 2 ++ regsOf o.srcB.toNat 2)) = true →
      (s.readLE a 8 < x.one o.srcB.toNat 2 → ∃ t, exec (.esig o) s = .next t ∧ t.readLE a 8 = x.one o.srcB.toNat 2 ∧
        t.memWf = true ∧ ∀ b, b < a ∨ a + 8 ≤ b → t.byte b = s.byte b) ∧
      (s.readLE a 8 = x.one o.srcB.toNat 2 → ∃ t, exec (.esig o) s = .next t ∧ t.mem = s.mem ∧
        t.rget Fld.FE_EVENT_STATS_STALE = min (s.rget Fld.FE_EVENT_STATS_STALE + 1) (2 ^ Fld.FE_EVENT_STATS_STALE.len - 1)))

/-- R256, R262: RFTEST writes the sticky remote-failure flag to PDST in every lane and clears it. RALIGN waits on its pair where the
pair is the context's and the core is one of its two; anywhere else its launch stops with the sync-object status. -/
def Sys2Proof.Claims.RemoteFlagAndRealign : Prop :=
  ∀ o s x, CanIssue o s x → OnePath x → x.on ≠ 0 → o.fld 0 3 = 0 → o.dst = 0 →
    (o.fld 6 7 = 0 → o.syncPdst ≠ 7 → x.clear (x.guards ++ [predReg o.syncPdst]) = true →
      ∃ t y, exec (.rftest o) s = .next t ∧ TrayOnly o s t ∧ t.tray o.core o.slot = some y ∧ GoesTo x (x.p.pc + 1) t y ∧
        y.pred o.syncPdst = (if x.t.remoteFail then BitVec.allOnes 32 else 0) ∧ y.remoteFail = false ∧ y.regs = x.t.regs ∧
        ∀ p, p ≠ o.syncPdst → y.pred p = x.t.pred p) ∧
    (o.fld 11 2 = 0 → o.soft = false → x.clear x.guards = true →
      let n := o.fld 7 4
      let mine := s.flag Fld.FE_RALIGN_PAIR_VALID 0 n && decide (s.rget Fld.FE_RALIGN_PAIR_CONTEXT 0 n = x.L.context)
      let atA := decide (s.rget Fld.FE_RALIGN_PAIR_CORE_A 0 n = coreId o.core)
      let atB := decide (s.rget Fld.FE_RALIGN_PAIR_CORE_B 0 n = coreId o.core)
      ((mine && (atA || atB)) = true → Leaves (.ralign o) o s x (fun t y => Waits x (.pair n atA) t y ∧ y.active = false)) ∧
      ((mine && (atA || atB)) = false → Stops (.ralign o) o s x stSyncObject))

/-- R248, R260: a wait whose timer has run out is recorded and ends: a SOFT wait writes false to PDST in every lane, any other stops
its launch with the sync-timeout status. -/
def Sys2Proof.Claims.WaitTimeout : Prop :=
  ∀ s (core : Fin 192) (slot : Fin 64) path y L p w tm, s.clocked = true → s.tray core slot = some y → s.launch y.launch = some L →
    y.paths.find? (fun q => q.id == path) = some p → p.wait = some w → w.timer = some tm → s.ranOut L.context tm = true →
    ∃ t z L', exec (.waitTimeoutExpire core slot path) s = .next t ∧ t.tray core slot = some z ∧ t.launch y.launch = some L' ∧
      z.regs = y.regs ∧
      (∀ a, (a < errSlot s s.nextErr ∨ errSlot s s.nextErr + 128 ≤ a) → t.byte a = s.byte a) ∧ t.nextErr = (s.nextErr + 1) % 2 ^ 64 ∧
      (∀ q ∈ z.paths, q.id = path → ∀ v, q.wait = some v → v.kind = .reconv) ∧
      (w.soft = true → w.pdst < 7 → z.pred w.pdst = 0 ∧ L'.status = L.status) ∧
      (w.soft = false → core.val ∈ L'.stopped ∧ L'.aborting = true ∧ (L.status = 0 → L'.status = stSyncTimeout))

/-- R261: a wait that has lasted PM_LEND_THRESH makes its tray long-waiting. -/
def Sys2Proof.Claims.LongWaits : Prop :=
  ∀ s (core : Fin 192) (slot : Fin 64) path y L p w tm, s.clocked = true → s.tray core slot = some y → s.launch y.launch = some L →
    y.paths.find? (fun q => q.id == path) = some p → p.wait = some w → w.lend = some tm → s.ranOut L.context tm = true →
    ∃ t z q, exec (.lendThreshold core slot path) s = .next t ∧ t.tray core slot = some z ∧
      z.paths.find? (fun q => q.id == path) = some q ∧ q.wait = some { w with long := true, lend := none } ∧
      z.regs = y.regs ∧ t.mem = s.mem

/-- R262: at a pair's due time with a waiter on each side both counters take BASE and the step is counted; with a side missing the
due time is counted in SKIPS. The next due time is one period on, and machine time stands at the due time at least. -/
def Sys2Proof.Claims.RealignDue : Prop :=
  ∀ s (n : Fin 16) a b, s.clocked = true → s.flag Fld.FE_RALIGN_PAIR_VALID 0 n = true →
    linearCore (s.rget Fld.FE_RALIGN_PAIR_CORE_A 0 n) = some a → linearCore (s.rget Fld.FE_RALIGN_PAIR_CORE_B 0 n) = some b →
    s.rget Fld.FE_RALIGN_PAIR_INDEX_A 0 n < 48 → s.rget Fld.FE_RALIGN_PAIR_INDEX_B 0 n < 48 →
    ∃ t, exec (.realignDue n) s = .next t ∧ t.mem = s.mem ∧ t.now = max s.now (s.rget Fld.FE_RALIGN_DUE_DUE 0 n) ∧
      t.rget Fld.FE_RALIGN_DUE_DUE 0 n = (s.rget Fld.FE_RALIGN_DUE_DUE 0 n + s.rget Fld.FE_RALIGN_PERIOD_PERIOD 0 n) % 2 ^ 64 ∧
      let w := pairWaiters s n
      if w.any (fun e => e.2.2.2) && w.any (fun e => !e.2.2.2) then
        t.counter a (s.rget Fld.FE_RALIGN_PAIR_INDEX_A 0 n) = s.rget Fld.FE_RALIGN_BASE_BASE 0 n ∧
        t.counter b (s.rget Fld.FE_RALIGN_PAIR_INDEX_B 0 n) = s.rget Fld.FE_RALIGN_BASE_BASE 0 n ∧
        t.rget Fld.FE_RALIGN_BASE_STEPS 0 n = min (s.rget Fld.FE_RALIGN_BASE_STEPS 0 n + 1) (2 ^ Fld.FE_RALIGN_BASE_STEPS.len - 1)
      else
        t.rget Fld.FE_RALIGN_BASE_SKIPS 0 n = min (s.rget Fld.FE_RALIGN_BASE_SKIPS 0 n + 1) (2 ^ Fld.FE_RALIGN_BASE_SKIPS.len - 1)

namespace Sys2Proof.Claims

/-- A tray's registers, predicates, lanes, paths and results in flight are as they were. -/
def TraySame (y z : Tray) : Prop :=
  z.regs = y.regs ∧ z.preds = y.preds ∧ z.live = y.live ∧ z.paths = y.paths ∧ z.pend = y.pend

/-- The command answers a next state with memory as it was, in which the tray of the slot is some `z` with `P`. -/
def TrayBecomes (i : Instr) (s : State) (core : Fin 192) (slot : Fin 64) (P : State → Tray → Prop) : Prop :=
  ∃ t z, exec i s = .next t ∧ t.tray core slot = some z ∧ t.mem = s.mem ∧ t.sent = s.sent ∧ P t z

/-- No breakpoint of the core is armed. -/
def NoBreakpoints (s : State) (core : Nat) : Prop := ∀ b, b < 8 → s.flag Fld.DB_BRK_ENABLE core b = false

end Sys2Proof.Claims

/-- R51, R75, R93: when an instruction in flight completes, its lanes' results stand in the registers and predicates it names, it
has left the scoreboard, and a row-hold load's row is valid with its format, its elements and the context's tag. -/
def Obligations.InstructionCompletes : Prop :=
  ∀ s (core : Fin 192) (slot : Fin 64) k y p, s.clocked = true → s.tray core slot = some y → y.pend[k]? = some p →
    (∀ n, p.kind ≠ .external n) → (∀ i c, p.kind ≠ .matrix i c) →
    ∃ t z, exec (.instructionCompletion core slot k) s = .next t ∧ t.tray core slot = some z ∧ t.mem = s.mem ∧
      z.pend = y.pend.filter (fun q => q.serial != p.serial) ∧
      (∀ r l, l < 32 → z.reg r l = match p.writes.reverse.find? (fun w => w.reg == r && Mask.has w.lanes l) with
        | some w => w.vals.getD l 0
        | none => y.reg r l) ∧
      ((∀ q ∈ y.paths, q.wait = none) → ∀ q l, q < 7 → l < 32 → Mask.has (z.pred q) l =
        match p.preds.reverse.find? (fun w => w.p == q && Mask.has w.lanes l) with
        | some w => Mask.has w.val l
        | none => Mask.has (y.pred q) l) ∧
      ∀ L row fmt elems, s.launch y.launch = some L → p.kind = .row row fmt elems →
        (t.core core).row row = { valid := true, fmt := fmt, tag := L.context, elems := elems }

/-- R54 to R56: a tray that has been ineligible for 64 cycles leaves its active slot for a ready one, a yield hold ends, and a ready
tray takes a free active slot; each changes nothing else of the tray. -/
def Sys2Proof.Claims.ActiveSlots : Prop :=
  ∀ s (core : Fin 192) (slot : Fin 64) y, s.clocked = true → s.tray core slot = some y →
    (y.active = true → (∃ k r, k ≠ slot.val ∧ s.tray core k = some r ∧ r.ready s core k = true) →
      TrayBecomes (.trayDemoteTimeout core slot) s core slot (fun t z => z = { y with active := false } ∧
        t.rget Fld.CO_ISSUE_STATS_DEMOTE core = min (s.rget Fld.CO_ISSUE_STATS_DEMOTE core + 1) (2 ^ 16 - 1))) ∧
    TrayBecomes (.yieldHoldEnd core slot) s core slot (fun _ z => z = { y with yieldHold := false }) ∧
    (coresRun s = true → y.ready s core slot = true → y.path.isSome = true → activeCount (s.core core) < 16 →
      NoBreakpoints s core →
      TrayBecomes (.trayPromote core slot) s core slot (fun t z => z = { y with active := true } ∧
        t.rget Fld.CO_ISSUE_STATS_PROMOTE core = min (s.rget Fld.CO_ISSUE_STATS_PROMOTE core + 1) (2 ^ 16 - 1)))

/-- R76, R77: HALT takes a tray out of its active slot and shows it in DB_TRAY_HALTED; STEP lets a halted tray issue one instruction
and RESUME lets it run, and either takes it out of DB_TRAY_HALTED; STEP of a tray that is not halted sets NO_EFFECT; a stepped
instruction that has completed halts the tray again and sets STEP_DONE. -/
def Sys2Proof.Claims.Debugger : Prop :=
  ∀ s (core : Fin 192) (slot : Fin 64) y, s.clocked = true → coreReachable s core = true → s.tray core slot = some y →
    TrayBecomes (.trayHalt core slot) s core slot (fun t z => TraySame y z ∧ z.halted = true ∧ z.stepping = false ∧
      Nat.testBit (t.rget Fld.DB_TRAY_HALTED_HALTED core) slot = true ∧
      (chainOpen s core slot = false → z.active = false)) ∧
    (y.halted = true → TrayBecomes (.trayStep core slot) s core slot (fun t z => TraySame y z ∧ z.halted = false ∧
      z.stepping = true ∧ z.stepIssued = false ∧ Nat.testBit (t.rget Fld.DB_TRAY_HALTED_HALTED core) slot = false)) ∧
    (y.halted = false → TrayBecomes (.trayStep core slot) s core slot (fun t z => z = y ∧
      t.rget Fld.DB_TRAY_STATUS_NO_EFFECT core = 1)) ∧
    (y.halted = true → TrayBecomes (.trayResume core slot) s core slot (fun t z => TraySame y z ∧ z.halted = false ∧
      z.stepping = false ∧ Nat.testBit (t.rget Fld.DB_TRAY_HALTED_HALTED core) slot = false)) ∧
    (y.stepping = true → y.stepIssued = true → y.pend = [] → trayOps (s.core core) slot = [] → (s.core core).veq = [] →
      (∀ q ∈ y.paths, q.wait = none) →
      TrayBecomes (.stepComplete core slot) s core slot (fun t z => TraySame y z ∧ z.halted = true ∧ z.active = false ∧
        z.stepping = false ∧ t.rget Fld.DB_TRAY_STATUS_STEP_DONE core = 1 ∧
        Nat.testBit (t.rget Fld.DB_TRAY_HALTED_HALTED core) slot = true))

/-- R41, R102: a tray whose lanes have all exited and that has nothing in flight leaves its slot; with the last tray of a sheet the
sheet leaves its core and counts as retired. -/
def Sys2Proof.Claims.TrayRetires : Prop :=
  ∀ s (core : Fin 192) (slot : Fin 64) y L h, s.clocked = true → s.tray core slot = some y → s.launch y.launch = some L →
    (s.core core).sheet? y.sheet = some h → y.live = 0 → trayQuiet s core slot y = true →
    ∃ t, exec (.trayRetire core slot) s = .next t ∧ t.tray core slot = none ∧ t.mem = s.mem ∧
      (∀ c k z, (c ≠ core.val ∨ k ≠ slot.val) → s.tray c k = some z → ∃ z', t.tray c k = some z' ∧ z'.regs = z.regs) ∧
      (sheetTrays (s.core core) y.sheet = 1 → (t.core core).sheet? y.sheet = none ∧
        ∃ L', t.launch y.launch = some L' ∧ L'.retired = L.retired + 1)

/-- R39, R40, R184: the next sheet of an ordinary launch takes its place on a core that accepts it: its trays stand at the code's
start with all their lanes in the core's lowest free slots, its scratchpad is zero, and no other tray and no memory outside the
core's local SRAM has changed. -/
def Sys2Proof.Claims.SheetPlaced : Prop :=
  ∀ s launch L core base, s.clocked = true → s.launch launch = some L → L.serial = launch → L.gang = false → L.saved = [] →
    L.aborting = false → L.startAt ≤ s.now → hasMailbox L = false → feRuns s = true → outranked s L core = false → L.nextSheet < L.sheets → fitsCore s L core base = true →
    (s.core core).l1KiB ≤ 1024 → s.memWf = true →
    ∃ t h, exec (.sheetPlace launch [(core, base)]) s = .next t ∧ (t.core core).sheets = (s.core core).sheets ++ [h] ∧
      h.launch = launch ∧ h.index = L.nextSheet ∧ h.base = base ∧ h.size = L.scratch ∧ (t.core core).l1KiB = L.l1 ∧
      (∃ L', t.launch launch = some L' ∧ L'.nextSheet = L.nextSheet + 1) ∧
      (∀ k slot, k < L.trays → (freeSlots (s.core core))[k]? = some slot → ∃ y, t.tray core slot = some y ∧ y.launch = launch ∧
        y.sheet = h.uid ∧ y.index = k ∧ y.active = false ∧ y.live = BitVec.allOnes 32 ∧
        y.paths.map (fun p => (p.pc, p.lanes)) = [(0, BitVec.allOnes 32)]) ∧
      (∀ c k y, s.tray c k = some y → t.tray c k = some y) ∧
      (∀ i, i < L.scratch → t.byte (sramAddr core base + i) = 0) ∧ t.memWf = true ∧
      ∀ a, (a < sramAddr core 0 ∨ sramAddr core 0 + 1048576 ≤ a) → t.byte a = s.byte a

namespace Sys2Proof.Claims

/-- An accumulator after one update: clamped to 32 bits. -/
def clampAcc (v : Int) : Int := max (-2147483648) (min 2147483647 v)

/-- The sum of products for k from `k0` to `k0 + n - 1`. -/
def products (a b : Nat → Int) (k0 n : Nat) : Int := ((List.range n).map (fun j => a (k0 + j) * b (k0 + j))).sum

/-- An accumulator after `occ` array cycles of `w` k-steps each, one clamped update a cycle (R110). -/
def accumulated (a b : Nat → Int) (w occ : Nat) (neg : Bool) (acc : Int) : Int :=
  (List.range occ).foldl (fun v c => clampAcc (v + (if neg then -1 else 1) * products a b (c * w) w)) acc

/-- The accumulator of row m and column n before the instruction: zero where ZERO clears the set. -/
def accBefore (o : TrayOp) (s : State) (m n : Nat) : Int :=
  if mxZero o then 0 else SMap.get ((s.core o.core).accSet (mxSet o)).acc (64 * m + n) 0

/-- The set, the entry and the rows that a matrix instruction names are there for it (R88), and the array's code finds nothing. -/
def MatrixReady (o : TrayOp) (s : State) (x : Ctx) (tq fmt : Nat) (rows : List Nat) : Prop :=
  o.unitEcc = .clean ∧ setGate (s.core o.core) o.slot (mxSet o) (mxZero o) = .go ∧
    commitGate (s.core o.core) (mxCommit o) tq = .go ∧ rowsGate (s.core o.core) x.L.context fmt rows = .go

/-- The set then holds the tile `val`, open for the tray, or draining into its entry with COMMIT; the other set is as it was. -/
def HoldsTile (o : TrayOp) (s : State) (x : Ctx) (tq : Nat) (val : Nat → Nat → Int) (t : State) (_ : Tray) : Prop :=
  let a := (t.core o.core).accSet (mxSet o)
  a.owner = o.slot.val ∧ a.state = (if mxCommit o then .draining else .openTile) ∧
    (∀ m n, m < 64 → n < 64 → SMap.get a.acc (64 * m + n) 0 = val m n) ∧
    (mxCommit o = true → a.entry = tq ∧ a.tag = mxTag o ∧ ((t.core o.core).entry tq).state = .filling ∧
      ((t.core o.core).entry tq).sheet = x.t.sheet) ∧
    ∀ j, j ≠ mxSet o → (t.core o.core).accSet j = (s.core o.core).accSet j

/-- B of MMA (R86, R94): a fragment, a row-hold row from SHIFT0 on, or the rows of a grid. -/
def mmaB (o : TrayOp) (s : State) (x : Ctx) (k n : Nat) : Int :=
  let c := s.core o.core
  if o.fld 22 2 = 0 then fragElem x o.srcB.toNat (mxFmtB o) (mxSB o) n k
  else if o.fld 22 2 = 1 then rowElem c (o.fld 29 3) (mxFmtB o) (mxSB o) (o.fld 25 4 + n)
  else rowElem c ((o.fld 29 3 + k / o.fld 42 4) % 8) (mxFmtB o) (mxSB o) (o.fld 25 4 + k % o.fld 42 4 + n)

/-- The rows that MMA names (R94). -/
def mmaRows (o : TrayOp) (ks : Nat) : List Nat :=
  if o.fld 22 2 = 0 then [] else if o.fld 22 2 = 1 then [o.fld 29 3] else gridRows (o.fld 29 3) (o.fld 42 4) ks

/-- An instruction that reads a panel of the scratchpad of sheet `h` at `off`: the extent lies in the allocation, no vector
instruction holds it, no word of it is poisoned and the code finds nothing (R74, R150, R185). -/
def PanelReady (o : TrayOp) (s : State) (x : Ctx) (h : Sheet) (off len : Nat) : Prop :=
  x.sheet = some h ∧ o.unitEcc = .clean ∧ off + len ≤ h.size ∧ veHolds (s.core o.core) x.t.sheet (off, len) = false ∧
    s.extentPoisoned (h.addr o.core off) len = false

/-- Field `p` of `w` bits of a row of packed elements at an address. -/
def packed (s : State) (a w p : Nat) : Nat := ((s.byte (a + p * w / 8)).toNat / 2 ^ (p * w % 8)) % 2 ^ w

end Sys2Proof.Claims

/-- R83, R86, R87, R94, R110: MMA. R96, R97, R111: SMMA. -/
def Obligations.MatrixProducts : Prop :=
  ∀ o s x, CanIssue o s x →
    (let w := mxStepsPerCycle (mxFmtA o) (mxFmtB o)
     let occ := 2 * (o.fld 0 3 + 1)
     let na := fragRegs (mxFmtA o) (occ * w)
     let nb := fragRegs (mxFmtB o) (occ * w)
     MatrixReady o s x (o.fld 46 2) (mxFmtB o) (mmaRows o (occ * w)) → o.fld 40 2 = 0 → o.fld 22 2 ≠ 3 →
     runLegal x.L o.srcA.toNat na = true → (o.fld 22 2 = 2 → 1 ≤ o.fld 42 4 ∧ o.fld 42 4 ≤ 9) → (o.fld 22 2 ≠ 2 → o.fld 42 4 = 0) →
     (o.fld 22 2 = 0 → runLegal x.L o.srcB.toNat nb = true) → (o.fld 22 2 ≠ 0 → o.fld 24 1 = 0 ∧ o.fld 25 4 ≤ 8) →
     x.clear (x.guards ++ ((List.range na).map (fun i => o.srcA.toNat + i) ++
       (if o.fld 22 2 = 0 then (List.range nb).map (fun i => o.srcB.toNat + i) else []))) = true →
     Leaves (.mma o) o s x (HoldsTile o s x (o.fld 46 2) (fun m n =>
       accumulated (fun k => fragElem x o.srcA.toNat (mxFmtA o) (mxSA o) m k) (fun k => mmaB o s x k n) w occ (mxNeg o)
         (accBefore o s m n)))) ∧
    (let cols := (o.fld 0 3 + 1) * (mxFields (mxFmtB o) / 2)
     MatrixReady o s x (o.fld 40 2) (mxFmtA o) ((List.range (o.fld 34 3 + 1)).map (fun i => (o.fld 37 3 + i) % 8)) →
     o.fld 32 2 = 0 → o.fld 22 2 = 0 → runLegal x.L o.srcB.toNat (o.fld 0 3 + 1) = true → o.fld 42 6 + cols ≤ 64 →
     x.clear (x.guards ++ (List.range (o.fld 0 3 + 1)).map (fun i => o.srcB.toNat + i)) = true →
     Leaves (.smma o) o s x (HoldsTile o s x (o.fld 40 2) (fun i n =>
       if i ≤ o.fld 34 3 ∧ o.fld 42 6 ≤ n ∧ n < o.fld 42 6 + cols then
         clampAcc (accBefore o s i n + (if mxNeg o then -1 else 1) *
           products (fun k => rowElem (s.core o.core) ((o.fld 37 3 + i) % 8) (mxFmtA o) (mxSA o) k)
             (fun k => fragElem x o.srcB.toNat (mxFmtB o) (mxSB o) k (n - o.fld 42 6)) 0 64)
       else accBefore o s i n)))

/-- R83, R93, R98: FLD brings a panel of the scratchpad into fragment registers, RHLD 72 elements into a row. -/
def Obligations.PanelLoads : Prop :=
  ∀ o s x h l, CanIssue o s x → Mask.lowest x.on = some l →
    (let n := o.fld 10 3 + 1
     let fmt := o.fld 8 2
     let w := mxWidth fmt
     let half := mxFields fmt / 2
     let off := x.src64 o.srcA.toNat l
     let stride := x.src o.srcB.toNat l
     o.fld 16 8 = 0 → o.fld 0 8 = 0 → runLegal x.L o.dst.toNat n = true → legalSrc64 x.L o.srcA.toNat = true →
     legalSrc x.L o.srcB.toNat = true → off % 4 = 0 → stride % 4 = 0 →
     PanelReady o s x h off ((n * half - 1) * stride + 64 * w / 8) →
     x.clear (x.guards ++ ((List.range n).map (fun i => o.dst.toNat + i) ++ regsOf o.srcA.toNat 2 ++ regsOf o.srcB.toNat 1)) = true →
     InFlight (.fld o) o s x (fun y pd =>
       (∀ r q, q < 32 → ¬(Mask.has x.on q = true ∧ o.dst.toNat ≤ r ∧ r < o.dst.toNat + n) →
         (y.finish pd false).reg r q = x.t.reg r q) ∧
       (∀ j q e, j < n → q < 32 → Mask.has x.on q = true → e < mxFields fmt →
         bits ((y.finish pd false).reg (o.dst.toNat + j) q).toNat (w * e) w =
           packed s (h.addr o.core off + (half * j + e / 2) * stride) w (q + 32 * (e % 2))) ∧
       (y.finish pd false).preds = x.t.preds)) ∧
    (let fmt := o.fld 8 2
     let off := x.src64 o.srcA.toNat l
     o.dst = 0 → o.srcB = 0 → o.srcC = 0 → o.fld 0 8 = 0 → legalSrc64 x.L o.srcA.toNat = true → off % 2 = 0 →
     rowLoading (s.core o.core) (o.fld 10 3) = false → PanelReady o s x h off (72 * mxWidth fmt / 8) →
     x.clear (x.guards ++ regsOf o.srcA.toNat 2) = true →
     InFlight (.rhld o) o s x (fun y pd =>
       (∃ elems, pd.kind = .row (o.fld 10 3) fmt elems ∧ elems.length = 72 ∧
         ∀ p, p < 72 → elems.getD p 0 = packed s (h.addr o.core off) (mxWidth fmt) p) ∧
       (y.finish pd false).regs = x.t.regs ∧ (y.finish pd false).preds = x.t.preds))

/-- R82, R90 to R92: RHCLR invalidates the rows of its mask, TRD brings part of a READY entry of the tray's sheet into registers,
TQDROP frees such an entry, and ACLR discards the tray's own open tile and leaves a set that is not the tray's as it was. -/
def Sys2Proof.Claims.RowsEntriesSets : Prop :=
  ∀ o s x, CanIssue o s x → x.on ≠ 0 → o.srcA = 0 → o.srcB = 0 → o.srcC = 0 →
    (o.dst = 0 → o.fld 8 5 = 0 → x.clear x.guards = true →
      Leaves (.rhclr o) o s x (fun t _ => ∀ r, r < 8 →
        (t.core o.core).row r = if Nat.testBit (o.fld 0 8) r then {} else (s.core o.core).row r)) ∧
    (let e := (s.core o.core).entry (o.fld 11 2)
     let n := o.fld 8 3 + 1
     e.state = .ready → e.sheet = x.t.sheet → o.unitEcc = .clean → o.fld 0 1 = 0 → o.fld 1 7 + n ≤ 128 →
     runLegal x.L o.dst.toNat n = true → x.clear (x.guards ++ (List.range n).map (fun j => o.dst.toNat + j)) = true →
     InFlight (.trd o) o s x (fun y pd =>
       (∀ r l, l < 32 → (y.finish pd false).reg r l =
         if Mask.has x.on l ∧ o.dst.toNat ≤ r ∧ r < o.dst.toNat + n then
           BitVec.ofInt 32 (SMap.get e.vals (32 * (o.fld 1 7 + (r - o.dst.toNat)) + l) 0)
         else x.t.reg r l) ∧
       (y.finish pd false).preds = x.t.preds)) ∧
    (((s.core o.core).entry (o.fld 11 2)).state = .ready → ((s.core o.core).entry (o.fld 11 2)).sheet = x.t.sheet → o.dst = 0 →
      o.fld 0 11 = 0 → x.clear x.guards = true →
      Leaves (.tqdrop o) o s x (fun t _ => ((t.core o.core).entry (o.fld 11 2)).state = .free ∧
        ∀ j, j ≠ o.fld 11 2 → (t.core o.core).entry j = (s.core o.core).entry j)) ∧
    (let a := (s.core o.core).accSet (o.fld 12 1)
     o.dst = 0 → o.fld 0 12 = 0 → a.state ≠ .draining → x.clear x.guards = true →
     Leaves (.aclr o) o s x (fun t _ =>
       (t.core o.core).accSet (o.fld 12 1) = (if a.state = .openTile ∧ a.owner = o.slot.val then {} else a) ∧
       ∀ j, j ≠ o.fld 12 1 → (t.core o.core).accSet j = (s.core o.core).accSet j))

/-- R90, R91, R100, R114: at a drain's end the entry is READY with the tile, its TAG and its saturation count, and the set is FREE;
an array cycle inside the tail with a set in use counts as a sugar cycle, any other does not. -/
def Sys2Proof.Claims.DrainAndSugar : Prop :=
  ∀ s (core : Fin 192), s.clocked = true →
    (∀ set : Fin 2, let a := (s.core core).accSet set
      let e := (s.core core).entry a.entry
      a.state = .draining → a.final = true → ((s.core core).sheet? e.sheet).isSome = true →
      ∃ t, exec (.accumulatorDrainEnd core set) s = .next t ∧ t.mem = s.mem ∧
        (t.core core).entry a.entry = { state := .ready, sheet := e.sheet, vals := a.acc, tag := a.tag, sat := a.sat } ∧
        (t.core core).accSet set = {} ∧ (∀ j, j ≠ set.val → (t.core core).accSet j = (s.core core).accSet j) ∧
        ∀ y, s.tray core a.owner = some y → ∃ z, t.tray core a.owner = some z ∧ z.regs = y.regs ∧ z.preds = y.preds ∧
          ∀ p ∈ z.pend, ∀ q, p.kind ≠ .matrix set (some q)) ∧
    (((s.core core).accSet 0).state ≠ .free ∨ ((s.core core).accSet 1).state ≠ .free → coresRun s = true →
      (s.core core).mopIdle < sugarTail s core →
      ∃ t, exec (.sugarCycle core) s = .next t ∧ t.mem = s.mem ∧ (t.core core).mopIdle = (s.core core).mopIdle + 1 ∧
        t.rget Fld.CO_MX_ACTIVITY_SUGAR core = min (s.rget Fld.CO_MX_ACTIVITY_SUGAR core + 1) (2 ^ Fld.CO_MX_ACTIVITY_SUGAR.len - 1) ∧
        (t.core core).trays = (s.core core).trays) ∧
    (sugarTail s core ≤ (s.core core).mopIdle → ∃ t, exec (.sugarCycle core) s = .next t ∧ t.regs = s.regs ∧ t.sugar = s.sugar)

namespace Sys2Proof.Claims

/-- The VEC rows with their opcodes (R152, R167). -/
def vecRows (o : TrayOp) : List (Instr × Nat) :=
  [(.vcvt o, 0x00), (.vadd o, 0x01), (.vsub o, 0x02), (.vmul o, 0x03), (.vfma o, 0x04), (.vmin o, 0x05), (.vmax o, 0x06),
   (.vabs o, 0x07), (.vneg o, 0x08), (.vdiv o, 0x09), (.vsqrt o, 0x0A), (.vcmp o, 0x0B), (.vsel o, 0x0C), (.vand o, 0x10),
   (.vor o, 0x11), (.vxor o, 0x12), (.vshl o, 0x13), (.vshra o, 0x14), (.vshrl o, 0x15), (.vrsum o, 0x20), (.vrmin o, 0x21),
   (.vrmax o, 0x22), (.tscale o, 0x30), (.tcopy o, 0x31), (.vldt o, 0x40), (.vfun o, 0x41), (.vder o, 0x42), (.expmax o, 0x50),
   (.slice o, 0x51), (.recomb o, 0x52), (.rclose o, 0x53)]

/-- The vector engine's head entry `e` holds one instruction, of sheet `h` and launch `L`, and may start (R149): nothing it reads is
still to be written, its tile is there, and every check of R143, R160, R164 and R216 holds. -/
def MayStart (s : State) (core : Nat) (e : VEntry) (m : VInstr) (h : Sheet) (L : Launch) : Prop :=
  s.clocked = true ∧ coresRun s = true ∧ headEntry (s.core core) = some e ∧ e.members = [m] ∧ e.closed = true ∧
    e.tableEcc = .clean ∧ (s.core core).sheet? e.sheet = some h ∧ s.launch e.launch = some L ∧
    behindWrites (s.core core) e = false ∧ startStatus s core h L.context e = 0 ∧
    (m.tsrc = true → tileOwned (s.core core) e.sheet m.tq = true ∧ ((s.core core).entry m.tq).state = .ready)

/-- What the evaluation of the entry sees. -/
def vEnv (s : State) (core : Nat) (h : Sheet) (L : Launch) : VEnv :=
  { s := s, base := h.addr core 0, core := s.core core, seed := L.seed, stream := L.stream }

/-- An operand of a lone instruction at a position. -/
def operandOf (v : VEnv) (m : VInstr) (d : Option Stream) (const r c : Nat) : EvVal := operandAt v m.prec d const r c

/-- What an elementwise instruction computes at a position (R152, R155). -/
def elementValue (v : VEnv) (m : VInstr) (r c : Nat) : EvVal :=
  elementOp m.prec m.op m.sub (operandOf v m m.srcA 0 r c)
    (if vArity m.op < 2 then { bits := 0 } else operandOf v m m.srcB (litB m) r c)
    (if vArity m.op < 3 then { bits := 0 } else operandOf v m m.srcC (litC m) r c)

end Sys2Proof.Claims

/-- R145, R149: a legal VEC instruction that opens an entry goes to the end of the engine's queue with its descriptors as its
governing lane holds them, and its registers wait for it. -/
def Sys2Proof.Claims.VectorIssue : Prop :=
  ∀ o s x l, CanIssue o s x → Mask.lowest x.on = some l → o.vCin = false → veUsed (s.core o.core) < 8 → x.L.regs ≤ 128 →
    ∀ r ∈ vecRows o, vLegal o r.2 x.L = true → vDynLegal (vInstr x o r.2 l) = true →
      (o.vTsrc = true → tileOwned (s.core o.core) x.t.sheet o.vTq = true) →
      x.clear (x.guards ++ (vReads o r.2 ++ redRegs o r.2 ++ countRegs o)) = true →
      Leaves r.1 o s x (fun t y => ∃ e pd, (t.core o.core).veq.getLast? = some e ∧ e.members = [vInstr x o r.2 l] ∧
        e.closed = !o.vChain ∧ e.lane = some l ∧ e.slot = o.slot.val ∧ e.sheet = x.t.sheet ∧ e.result = none ∧
        y.pend = x.t.pend ++ [pd] ∧ pd.kind = .external e.serial ∧ pd.regs = redRegs o r.2 ++ countRegs o)

/-- R144, R152 to R156, R161: an elementwise instruction or a reduction that starts computes each position of its destination from the
elements of its sources, and releases its tile where REL asks for it; memory changes only when it completes. -/
def Sys2Proof.Claims.VectorStart : Prop :=
  ∀ s (core : Fin 192) e m h L d, MayStart s core e m h L → m.dst = some d → (m.op < 0x16 ∨ isReduction m.op = true) →
    ∃ t e' r, exec (.veInstructionStart core) s = .next t ∧ t.mem = s.mem ∧ e' ∈ (t.core core).veq ∧ e'.serial = e.serial ∧
      e'.result = some r ∧
      r.writes = streamWrites (h.addr core 0) d ((List.range (chainShape [m]).1).map (fun i =>
        if isReduction m.op then
          [(sinkAt (vEnv s core h L) m d (reduceRow m.prec m.op ((List.range (chainShape [m]).2).map (fun j =>
            operandOf (vEnv s core h L) m m.srcA 0 i j))) i).bits]
        else (List.range (chainShape [m]).2).map (fun j =>
          (sinkAt (vEnv s core h L) m d (elementValue (vEnv s core h L) m i j) (i * (chainShape [m]).2 + j)).bits))) ∧
      (m.tsrc = true → m.rel = true → ((t.core core).entry m.tq).state = .free)

/-- R142: a stream whose rows do not run into each other reads back, element for element, as what was written to it. -/
def Sys2Proof.Claims.StreamReadsBack : Prop :=
  ∀ s base (d : Stream) rows, d.rowBytes d.width ≤ d.pitchBytes d.width → 0 < d.width →
    (∀ row ∈ rows, row.length = d.cols ∧ ∀ f ∈ row, f < 2 ^ d.width) →
    ∀ r c, r < rows.length → c < d.cols →
      elemField ((streamWrites base d rows).foldl (fun (s : State) w => s.write w.1 w.2.1 w.2.2) s) base d r c =
        (rows.getD r []).getD c 0

/-- R149, R151, R164: when the oldest started instruction completes, its writes stand in memory and no other byte has changed, its
registers hold its results in their lanes, a loaded table is valid with the context's tag, and it has left the queue and the
scoreboard. -/
def Sys2Proof.Claims.VectorComplete : Prop :=
  ∀ s (core : Fin 192) e r L, s.clocked = true → (s.core core).veq.head? = some e → e.result = some r → s.memWf = true →
    s.launch e.launch = some L →
    ∃ t, exec (.veInstructionComplete core) s = .next t ∧ t.memWf = true ∧
      (∀ q ∈ (t.core core).veq, q.serial ≠ e.serial) ∧
      (∀ a, (∀ w ∈ r.writes, a < w.1 ∨ w.1 + w.2.1 ≤ a) → t.byte a = s.byte a) ∧
      (r.writes.Pairwise (fun v w => overlaps (v.1, v.2.1) (w.1, w.2.1) = false) →
        ∀ w ∈ r.writes, ∀ i < w.2.1, t.byte (w.1 + i) = BitVec.ofNat 8 (w.2.2 >>> (8 * i))) ∧
      (∀ i words, r.table = some (i, some words) → (t.core core).table i = { valid := true, tag := L.context, words := words }) ∧
      (∀ i, r.table = some (i, none) → ((t.core core).table i).valid = false) ∧
      ∀ y, s.tray core e.slot = some y → ∃ z, t.tray core e.slot = some z ∧ z.preds = y.preds ∧
        (∀ p ∈ z.pend, p.kind ≠ .external e.serial) ∧
        ∀ k l, l < 32 → z.reg k l = match r.regs.reverse.find? (fun w => w.reg == k && Mask.has w.lanes l) with
          | some w => w.vals.getD l 0
          | none => y.reg k l

/-- R125, R129: the digits of a slice are balanced, but for the leading one, and their weighted sum is the aligned integer. -/
def Sys2Proof.Claims.SliceDigits : Prop :=
  ∀ n (m : Int), (digitsOf (n + 1) m).length = n + 1 ∧ (∀ i, i < n → -128 ≤ (digitsOf (n + 1) m).getD i 0 ∧
    (digitsOf (n + 1) m).getD i 0 ≤ 127) ∧ (digitsOf (n + 1) m).foldr (fun d acc => d + 256 * acc) 0 = m

namespace Sys2Proof.Claims

/-- Nothing waits at the ports for a line or for the host window. -/
def PortsQuiet (s : State) : Prop := AllSent s ∧ s.uc.held = [] ∧ s.el.waiting = []

/-- A DMAPOST of a lane with valid arguments, through window `v`, whose core holds a credit and whose release is done (R171, R202,
R203). -/
def CanPost (o : TrayOp) (x : Ctx) (lane : Nat) (d : Desc) (v : Window) : Prop :=
  Mask.lowest x.on = some lane ∧ d = readDesc x.L.serial x.core x.slot (fun i => x.regsVal (o.srcA.toNat + 2 * i) 2 lane) ∧
    d.argsOk (x.regsVal (o.srcA.toNat + 6) 2 lane) = true ∧ (d.cntEn = true → Nat.testBit x.L.counterMask d.cnt = true) ∧
    x.L.windows[bits (x.regsVal (o.srcA.toNat + 2) 2 lane) 48 6]? = some v ∧ (if d.toWindow then v.w else v.r) = true ∧
    d.base + d.span false d.wpitch ≤ v.bound ∧ (isHost (v.base + d.base) = true → d.mode = 0) ∧ x.released = true ∧
    0 < (x.s.core x.core).moverCredits

/-- A mover holds a job that waits for nothing. -/
def MoverAt (s : State) (b : Nat) (job : MoverJob) : Prop :=
  s.clocked = true ∧ s.domainStopped = false ∧ (s.mover b).job = some job ∧ (s.mover b).waiting = 0 ∧ (s.mover b).failed = 0 ∧
    (s.mover b).writing = false ∧ PortsQuiet s ∧ hostReachable s = true ∧ NoEventWaits s

end Sys2Proof.Claims

/-- R171, R202, R203: DMAPOST hands a valid descriptor to its block's mover behind the others, with its window replaced by the
physical address, and takes a mover credit. -/
def Sys2Proof.Claims.MoverPost : Prop :=
  ∀ o s x lane d v, CanIssue o s x → CanPost o x lane d v → o.srcA.toNat % 8 = 0 → o.srcA.toNat + 8 ≤ x.L.regs → o.dst = 0 →
    o.srcB = 0 → o.srcC = 0 → o.fld 0 13 = 0 → x.clear (x.guards ++ regsOf o.srcA.toNat 8) = true →
    ∃ t y, exec (.dmapost o) s = .next t ∧ t.mem = s.mem ∧ t.tray o.core o.slot = some y ∧ y.regs = x.t.regs ∧ y.preds = x.t.preds ∧
      y.descs = x.t.descs + 1 ∧ (t.core o.core).moverCredits + 1 = (s.core o.core).moverCredits ∧
      (t.mover (blockOf o.core)).queue =
        (s.mover (blockOf o.core)).queue ++ [{ d with base := v.base + d.base, policy := v.policy }]

/-- R170, R172, R173, R203: a free mover takes its oldest descriptor into service. When a loading descriptor from device memory
completes, element (r, c) of the window region stands in each named cell where its MODE puts it, no memory outside those cells'
local SRAM has changed, and the credit is back. A poisoned line ends the descriptor and fails its launch. -/
def Sys2Proof.Claims.MoverMoves : Prop :=
  ∀ s (b : Fin 24) d,
    (∀ rest, s.clocked = true → s.domainStopped = false → (s.mover b).job = none → (s.mover b).fe = [] →
      (s.mover b).queue = d :: rest → descHeld s d = false → (∀ c ∈ d.cells, cellOk s d c = true) → isHost d.base = false →
      ∃ t, exec (.moverDescriptorStart b) s = .next t ∧ t.mem = s.mem ∧ (t.mover b).job = some (.desc d) ∧
        (t.mover b).queue = rest ∧ t.rget Fld.BK_DMA_QUEUE_BUSY b = 1) ∧
    (MoverAt s b (.desc d) → d.toWindow = false → d.mode < 3 → 0 < d.tr → 0 < d.tc → d.base + d.span false d.wpitch ≤ hbmEnd →
      d.rowBytes ≤ d.wpitch → (∀ c ∈ d.cells, cellOk s d c = true) → (∀ p ∈ d.tiles, tilePoison s d p.1 p.2 = none) →
      s.memWf = true →
      (d.mode ≠ 0 → d.tr * 64 ≤ d.dpitch) → (d.mode = 0 → d.rowBytes ≤ d.dpitch) →
      (d.mode = 2 → d.rowBytes ≤ d.d2pitch ∧ overlaps (d.doff, d.span true d.dpitch) (d.d2off, d.span false d.d2pitch) = false) →
      ∃ t, exec (.moverDescriptorComplete b) s = .next t ∧ t.memWf = true ∧ (t.mover b).job = none ∧
        (∀ a, (∀ c ∈ d.cells, a < sramAddr c 0 ∨ sramAddr c 0 + 1048576 ≤ a) → t.byte a = s.byte a) ∧
        ∀ c ∈ d.cells, ∀ h, sheetOn s d c = some h → ∀ r col k, r < d.rows → col < d.tc * d.tile → k < 64 / d.tile →
          (d.mode ≠ 2 → d.mode ≠ 1 → t.byte (sramAddr c (h.base + d.doff + r * d.dpitch + col * (64 / d.tile) + k)) =
            s.byte (d.base + r * d.wpitch + col * (64 / d.tile) + k)) ∧
          (d.mode ≠ 0 → t.byte (sramAddr c (h.base + d.doff + col * d.dpitch + r * (64 / d.tile) + k)) =
            s.byte (d.base + r * d.wpitch + col * (64 / d.tile) + k)) ∧
          (d.mode = 2 → t.byte (sramAddr c (h.base + d.d2off + r * d.d2pitch + col * (64 / d.tile) + k)) =
            s.byte (d.base + r * d.wpitch + col * (64 / d.tile) + k))) ∧
    (∀ tile L, MoverAt s b (.desc d) → tile < d.tr * d.tc → s.launch d.launch = some L →
      (d.toWindow = true ∨ ∀ l, reloadSource s l = none) →
      ∃ t L', exec (.moverPoisonedLine b tile) s = .next t ∧ (t.mover b).job = none ∧ t.launch d.launch = some L' ∧
        L'.aborting = true ∧ d.core ∈ L'.stopped ∧ (L.status = 0 → L'.status = stUncorrectable) ∧
        t.rget Fld.BK_DMA_XPOSE_FAILED b = min (s.rget Fld.BK_DMA_XPOSE_FAILED b + 1) (2 ^ 16 - 1) ∧
        ∀ c i, c < 192 → i < 48 → t.counter c i = s.counter c i)

/-- R277: when a granule of a copy within device memory ends, its destination holds its source's bytes and no other byte has
changed. -/
def Sys2Proof.Claims.GranuleCopies : Prop :=
  ∀ s (b : Fin 24) g, MoverAt s b (.granule g) → g.src + g.bytes ≤ hbmEnd → g.dst + g.bytes ≤ hbmEnd → s.memWf = true →
    overlaps (g.src, g.bytes) (g.dst, g.bytes) = false → s.extentPoisoned g.src g.bytes = false →
    (∀ ch, ch < 128 → s.chanState ch = chanOnline) → (∀ n, s.node g.ref = some n → n.wantsCrc = false ∧ n.status = 0) →
    ∃ t, exec (.moverDescriptorComplete b) s = .next t ∧ t.memWf = true ∧ (t.mover b).job = none ∧
      (∀ i, i < g.bytes → t.byte (g.dst + i) = s.byte (g.src + i)) ∧
      ∀ a, (a < g.dst ∨ g.dst + g.bytes ≤ a) → t.byte a = s.byte a

namespace Sys2Proof.Claims

/-- The requests of an L1 (R227). -/
def requestRows (core : Fin 192) (l : Nat) : List (Instr × CohReq) :=
  [(.rdShared core l, .rdShared), (.rdOwn core l, .rdOwn), (.rdOnce core l, .rdOnce), (.upgrade core l, .upgrade),
   (.claim core l, .claim), (.wrThru core l, .wrThru)]

/-- The snoops (R227). -/
def snoopRows (core : Fin 192) (l : Nat) : List (Instr × Snoop) :=
  [(.snpFwdS core l, .fwdS), (.snpFwdO core l, .fwdO), (.snpFwdOnce core l, .fwdOnce), (.snpInv core l, .inv)]

/-- An L1's state of a line after a snoop (R222). -/
def afterSnoop (k : Snoop) (st : L1St) : Option L1St :=
  match k with
  | .inv => none
  | .fwdO => none
  | .fwdS => some .s
  | .fwdOnce => some st

/-- The home serves no request of the line and does not reload it. -/
def LineFree (s : State) (l : Nat) : Prop := (s.line l).txn = none ∧ (s.line l).reloadAt = none ∧ (s.line l).queue = []

/-- What a core's L1 holds of a line, if anything. -/
def holds (s : State) (l core : Nat) : Option L1St := SMap.find? (s.line l).l1 core

/-- The state that a request leaves in its L1, once no other copy stands in its way (R222): exclusive or forward for a shared read, M
for an owning one, nothing new for a read that does not allocate, and E for a copy that wrote through. -/
def grants (req : CohReq) (others : Bool) (was : Option L1St) : Option L1St :=
  match req with
  | .rdShared => some (if others then .f else .e)
  | .rdOnce => was
  | .wrThru => was.map (fun _ => .e)
  | _ => some .m

end Sys2Proof.Claims

/-- R222, R223, R226: a request that finds its line busy waits behind the others; one that needs snoops sends them; one that needs none
is granted, and the earlier forwarder becomes a sharer where a shared read makes a new one. Memory does not change. -/
def Sys2Proof.Claims.HomeRequests : Prop :=
  ∀ s (core : Fin 192) l, s.clocked = true → s.domainStopped = false → NoEventWaits s → ∀ r ∈ requestRows core l,
    ((s.line l).txn.isSome = true ∨ (s.line l).reloadAt.isSome = true → ∃ t, exec r.1 s = .next t ∧ t.mem = s.mem ∧
      t.line l = { s.line l with queue := (s.line l).queue ++ [(r.2, core.val)] } ∧ ∀ k, k ≠ l → t.line k = s.line k) ∧
    (let req := effectiveReq (s.line l) r.2 core
     let sn := snoopsFor (s.line l) req core
     (LineFree s l → sn ≠ [] → ∃ t, exec r.1 s = .next t ∧ t.mem = s.mem ∧ (∀ k, k ≠ l → t.line k = s.line k) ∧
       t.line l = { s.line l with txn := some {
         req := req, agent := core, snoops := sn.map (fun p => { core := p.1, kind := p.2, sentAt := s.now }) } }) ∧
     (LineFree s l → sn = [] → (s.core core).l1KiB ≠ 0 → ∃ t, exec r.1 s = .next t ∧ t.mem = s.mem ∧ (t.line l).txn = none ∧
       holds t l core = grants req ((s.line l).l1.any (fun e => e.1 != core.val)) (holds s l core) ∧
       ∀ c, c ≠ core.val → holds t l c = (if req = .rdShared then (holds s l c).map (fun st => if st = .f then .s else st)
         else holds s l c)))

/-- R222, R228, R233, R243: a snoop takes its L1 to the state the table gives; the last response completes a claim, and its L1 holds
the line in M; a snoop without an answer stops the domain; a hold that expires holds no line. -/
def Sys2Proof.Claims.SnoopsAndHolds : Prop :=
  ∀ s (core : Fin 192), s.clocked = true → NoEventWaits s →
    (∀ l x, (s.line l).txn = some x → heldBy s core l = false → ∀ r ∈ snoopRows core l,
      (∃ q ∈ x.snoops, q.core = core.val ∧ q.kind = r.2 ∧ q.acted = false) →
      ∃ t, exec r.1 s = .next t ∧ t.mem = s.mem ∧ holds t l core = (holds s l core).bind (afterSnoop r.2) ∧
        (∀ c, c ≠ core.val → holds t l c = holds s l c) ∧
        (t.line l).txn = some { x with snoops := x.snoops.map (fun q => if q.core = core.val then { q with acted := true } else q) }) ∧
    (∀ l x, (s.line l).txn = some x → (∃ q ∈ x.snoops, q.core = core.val ∧ q.acted = true) → PortsQuiet s →
      (x.snoops.filter (fun q => q.core != core.val) ≠ [] → ∃ t, exec (.coherenceResponse core l) s = .next t ∧ t.mem = s.mem ∧
        (t.line l).txn = some { x with snoops := x.snoops.filter (fun q => q.core != core.val) }) ∧
      (x.snoops.filter (fun q => q.core != core.val) = [] → x.req = .claim → (s.core x.agent).l1KiB ≠ 0 → (s.line l).queue = [] →
        (s.line l).reloadAt = none →
        ∃ t, exec (.coherenceResponse core l) s = .next t ∧ t.mem = s.mem ∧ (t.line l).txn = none ∧ holds t l x.agent = some .m)) ∧
    (∀ l x q, (s.line l).txn = some x → x.snoops.find? (fun q => q.core == core.val) = some q →
      ∃ t, exec (.snoopTimeout core l) s = .next t ∧ t.domainStopped = true ∧ t.lines = s.lines ∧
        t.now = max s.now (q.sentAt + s.rget Fld.L2_AGENT_TIMEOUT_NS) ∧ t.nextErr = (s.nextErr + 1) % 2 ^ 64 ∧
        ∀ a, (a < errSlot s s.nextErr ∨ errSlot s s.nextErr + 128 ≤ a) → t.byte a = s.byte a) ∧
    (∀ (slot : Fin 64) y, s.tray core slot = some y → (∃ q ∈ y.resv, q.held = true) →
      TrayBecomes (.reservationHoldExpire core slot) s core slot (fun t z => TraySame y z ∧ (∀ q ∈ z.resv, q.held = false) ∧
        t.rget Fld.CO_RES_STATS_HOLD_EXPIRED core =
          min (s.rget Fld.CO_RES_STATS_HOLD_EXPIRED core + 1) (2 ^ Fld.CO_RES_STATS_HOLD_EXPIRED.len - 1)))

/-- R230, R231: a write of a non-caching agent leaves the written bytes in memory, every other byte as it was, and no L1 with a copy; an
atomic at the home performs its operation on its word as one step and hands the lane the value it found. -/
def Obligations.HomeWrites : Prop :=
  (∀ s (addr : BitVec 48) (bytes : Fin 129) data policy, s.clocked = true → s.domainStopped = false → NoEventWaits s →
    s.memWf = true → 0 < bytes.val → addr.toNat % 128 + bytes.val ≤ 128 → LineFree s (lineOf addr.toNat) →
    (∀ e ∈ (s.line (lineOf addr.toNat)).l1, heldBy s e.1 (lineOf addr.toNat) = false) →
    ∃ t, exec (.wrInv addr bytes data policy) s = .next t ∧ t.memWf = true ∧
      t.readLE addr.toNat bytes = data.toNat % 2 ^ (8 * bytes.val) ∧
      (∀ a, (a < addr.toNat ∨ addr.toNat + bytes.val ≤ a) → t.byte a = s.byte a) ∧
      (isHbm addr.toNat = true → (t.line (lineOf addr.toNat)).l1 = [])) ∧
  (∀ s (core : Fin 192) k op f fetch a, s.clocked = true → s.domainStopped = false → NoEventWaits s → PortsQuiet s →
    hostReachable s = true → s.memWf = true → (s.core core).ops[k]? = some op → op.kind = .atomic f fetch →
    op.lanes = [a] → op.got = [] → op.near = false → mayPerform (s.core core) op = true →
    LineFree s (lineOf a.addr) → (s.line (lineOf a.addr)).slice.isSome = true → (s.line (lineOf a.addr)).l1 = [] →
    s.extentPoisoned a.addr op.size = false →
    ∃ t p, exec (.atomic core k) s = .next t ∧ t.memWf = true ∧ (t.core core).ops[k]? = some p ∧
      SMap.find? p.got a.lane = some (s.readLE a.addr op.size) ∧
      t.readLE a.addr op.size =
        atomApply f (8 * op.size) (s.readLE a.addr op.size) a.data a.data2 % 2 ^ (8 * op.size) ∧
      ∀ b, (b < a.addr ∨ a.addr + op.size ≤ b) → t.byte b = s.byte b)

/-- R188, R194 to R196, R211, R212, R217: a victim leaves its L1, a dirty one enters its slice; an interval's end renews the slice's
budget; a fill brings its line into a free way of its home slice, and one without tokens is held; a reload's data stands in its line
without poison, and a failed or late one leaves the line poisoned. -/
def Obligations.LinesInSlices : Prop :=
  ∀ s l, s.clocked = true → NoEventWaits s →
    (∀ (core : Fin 192) st, holds s l core = some st → (s.line l).txn = none → ∃ t, exec (.victimOffer core l) s = .next t ∧
      t.mem = s.mem ∧ holds t l core = none ∧
      ∀ w, (s.line l).slice = some w → ∃ w', (t.line l).slice = some w' ∧ w'.way = w.way ∧ (st = .m → w'.dirty = true)) ∧
    (∀ slice : Fin 24, ∃ t, exec (.victimBudgetInterval slice) s = .next t ∧ t.mem = s.mem ∧ t.lines = s.lines ∧
      SMap.get t.victimUsed slice 0 = 0 ∧
      SMap.find? t.victimBudget slice = some (s.rget Fld.L2_VICTIM_BUDGET_ACCEPTS slice)) ∧
    (∀ (context : Fin 64) lru, isHbmLine l = true → (s.line l).slice = none → (s.line l).reloadAt = none → reloadSource s l = none →
      s.chanState (channelOf (128 * l)) = chanOnline →
      (pcEnable (s.partition (partitionOf s context)).ctrl = false →
        (freeWay s (homeOf l).slice (homeOf l).set (setLines s (homeOf l).slice (homeOf l).set)).isSome = true →
        ∃ t, exec (.l2Fill l context lru .clean none) s = .next t ∧ t.mem = s.mem ∧ (t.line l).slice.isSome = true ∧
          (t.line l).l1 = (s.line l).l1 ∧ (∀ k, k ≠ l → t.line k = s.line k)) ∧
      (let p := s.partition (partitionOf s context)
       pcEnable p.ctrl = true → pcBorrow p.ctrl = false → SMap.get (p.fill s.now).tokens (channelOf (128 * l) / 32) 0 < 128 * tokenUnit →
       ∃ t, exec (.l2Fill l context lru .clean none) s = .next t ∧ t.mem = s.mem ∧ t.lines = s.lines ∧
         (t.partition (partitionOf s context)).held = p.held + 1)) ∧
    (∀ due data, (s.line l).reloadAt = some due → (s.line l).queue = [] → (s.line l).txn = none → PortsQuiet s → s.memWf = true →
      (128 * l + 128 ≤ carveBase s ∨ carveBase s + carveBytes ≤ 128 * l) →
      (∃ t, exec (.reloadDataArrive l true data) s = .next t ∧ (t.line l).reloadAt = none ∧ t.memWf = true ∧
        t.readLE (128 * l) 128 = data.toNat ∧ t.extentPoisoned (128 * l) 128 = false) ∧
      (∃ t, exec (.reloadDataArrive l false data) s = .next t ∧ (t.line l).reloadAt = none ∧
        t.extentPoisoned (128 * l) 128 = true) ∧
      (∃ t, exec (.reloadTimeout l) s = .next t ∧ (t.line l).reloadAt = none ∧ t.now = max s.now due ∧
        t.extentPoisoned (128 * l) 128 = true))

namespace Sys2Proof.Claims

/-- The state of an HBM channel after a command in a state that accepts it (R206, R207): 1 OFFLINE, 2 ONLINE, 3 TEST, 4 RETRAIN. -/
def channelNext (cmd st : Nat) : Option Nat :=
  match cmd, st with
  | 1, 0 => some 2
  | 1, 1 => some 1
  | 1, 2 => some 2
  | 1, 4 => some 3
  | 2, 2 => some 2
  | 2, 3 => some 5
  | 2, 4 => some 5
  | 3, 3 => some 4
  | 4, 0 => some 1
  | _, _ => none

/-- The channel's state is `st`, the other channels' states and memory are as they were. -/
def ChannelIn (ch : Fin 128) (st : Nat) (s t : State) : Prop :=
  t.chanState ch = st ∧ t.mem = s.mem ∧ ∀ c, c < 128 → c ≠ ch.val → t.chanState c = s.chanState c

end Sys2Proof.Claims

/-- R206, R207, R209: the commands of HM_CHAN_CTRL take a channel from state to state; a command that its state does not accept clears
PENDING and has no other effect; an ONLINE that meets DRAINING is held pending. -/
def Sys2Proof.Claims.ChannelCommands : Prop :=
  ∀ s (ch : Fin 128), s.clocked = true → stackBusy s ch = false ∨ s.chanState ch ≠ 0 →
    ∀ r ∈ [(Instr.channelOffline ch, 1), (.channelOnline ch, 2), (.channelTest ch, 3), (.channelRetrain ch, 4)],
      ∃ t, exec r.1 s = .next t ∧
        match channelNext r.2 (s.chanState ch) with
        | some st => ChannelIn ch st s t ∧ (r.2 = 2 → s.chanState ch = 2 → t.chanPending ch = true)
        | none => ChannelIn ch (s.chanState ch) s t ∧ t.chanPending ch = false

/-- R206, R208, R209: a drained channel is OFFLINE, or SCRUBBING when an ONLINE was held; a scrubbed one is ONLINE and every line of it
that no cache holds reads as poison, and failed training takes it OFFLINE; a retrain that comes due begins, or is skipped and counted
where the channel is not ONLINE; one that passes puts the channel ONLINE, and the third failure takes it to DRAINING. -/
def Sys2Proof.Claims.ChannelEvents : Prop :=
  ∀ s (ch : Fin 128), s.clocked = true →
    (s.chanState ch = 2 → ∃ t, exec (.channelDrainEnd ch) s = .next t ∧ t.chanPending ch = false ∧
      t.chanState ch = if s.chanPending ch then 5 else 3) ∧
    (s.chanState ch = 5 →
      (∃ t, exec (.channelScrubDone ch true) s = .next t ∧ ChannelIn ch 0 s t ∧
        ∀ w, isHbm (32 * w) = true → channelOf (32 * w) = ch →
          (∀ e ∈ s.lines, e.1 = w / 4 → e.2.slice = none ∧ e.2.l1 = []) → t.poisoned w = true) ∧
      ∃ t, exec (.channelScrubDone ch false) s = .next t ∧ ChannelIn ch 3 s t) ∧
    (∃ t, exec (.retrainDue ch) s = .next t ∧ t.now = max s.now (s.channel ch).due ∧
      (s.chanState ch = 0 → stackBusy s ch = false → ChannelIn ch 1 s t ∧
        (t.channel ch).due = (s.channel ch).due + s.rget Fld.HM_RETRAIN_PERIOD_PERIOD) ∧
      (s.chanState ch ≠ 0 → ChannelIn ch (s.chanState ch) s t ∧ (t.channel ch).skipped = min ((s.channel ch).skipped + 1) 0xFF)) ∧
    (0 < s.rget Fld.HM_RETRAIN_THRESH_CORRECTED → s.rget Fld.HM_RETRAIN_THRESH_CORRECTED < (s.channel ch).windowCorrected →
      s.chanState ch = 0 → stackBusy s ch = false → ∃ t, exec (.earlyRetrainTrigger ch) s = .next t ∧ ChannelIn ch 1 s t) ∧
    (s.chanState ch = 1 → PortsQuiet s →
      (∃ t, exec (.retrainDone ch true) s = .next t ∧ t.chanState ch = (if (s.channel ch).offlineNext then 2 else 0)) ∧
      ((s.channel ch).attempts < 2 → ∃ t, exec (.retrainDone ch false) s = .next t ∧ ChannelIn ch 1 s t ∧
        (t.channel ch).attempts = (s.channel ch).attempts + 1) ∧
      (2 ≤ (s.channel ch).attempts → ∃ t, exec (.retrainDone ch false) s = .next t ∧ t.chanState ch = 2 ∧
        t.nextErr = (s.nextErr + 1) % 2 ^ 64))

/-- R210, R214: START runs the traffic generator on a channel in TEST while no run is busy; a run's end shows its mismatches and first
failing index. A privileged write of HM_PART_CTRL whose floor, rate, burst and sum of floors are in order is kept for the next power
epoch, any other is refused and changes nothing. -/
def Obligations.GeneratorAndPartitions : Prop :=
  ∀ s, s.clocked = true →
    (∀ (ch : Fin 128) pattern order lines, ∃ t, exec (.tgStart ch pattern order lines) s = .next t ∧ t.mem = s.mem ∧
      t.rget Fld.HM_TG_CTRL_LINES = lines.toNat ∧
      if s.chanState ch = 4 ∧ s.flag Fld.HM_TG_STATUS_BUSY = false then
        t.flag Fld.HM_TG_STATUS_BUSY = true ∧ t.rget Fld.HM_TG_STATUS_MISMATCHES = 0 ∧ t.rget Fld.HM_TG_STATUS_FIRST_FAIL = 0
      else t.flag Fld.HM_TG_STATUS_BUSY = s.flag Fld.HM_TG_STATUS_BUSY) ∧
    (∀ n first, s.flag Fld.HM_TG_STATUS_BUSY = true → ∃ t, exec (.tgRunEnd n first) s = .next t ∧ t.mem = s.mem ∧
      t.flag Fld.HM_TG_STATUS_BUSY = false ∧ t.flag Fld.HM_TG_STATUS_DONE = true ∧
      t.rget Fld.HM_TG_STATUS_MISMATCHES = min n (2 ^ 24 - 1) ∧ t.rget Fld.HM_TG_STATUS_FIRST_FAIL = first.toNat) ∧
    (∀ (n : Fin 16) v, partLegal s n v.toNat = true → ∃ t, exec (.hmPartCtrlWrite true n v) s = .next t ∧ t.mem = s.mem ∧
      t.partitions = s.partitions ∧ t.status = stOk ∧ partReg t n = partBits v.toNat ∧
      ∀ k, k < 16 → k ≠ n.val → partReg t k = partReg s k) ∧
    (∀ (n : Fin 16) v, partLegal s n v.toNat = false → ∃ t, exec (.hmPartCtrlWrite true n v) s = .next t ∧
      t.status = stInvalidArgument ∧ t.regs = s.regs ∧ t.partitions = s.partitions) ∧
    (∀ (n : Fin 16) v, ∃ t, exec (.hmPartCtrlWrite false n v) s = .next t ∧ t.status = stPrivilege ∧ t.regs = s.regs)

namespace Sys2Proof.Claims

/-! ### Packets -/

/-- A reply goes out at once: the port is ACTIVE, a credit is there and no reply waits (R265, R349). -/
def CanReply (s : State) : Prop := s.ucState = 2 ∧ 0 < s.uc.zpkt ∧ s.uc.outbox.any OutMsg.isReply = false

/-- A packet that the front end receives, with a free tag, a good format and a queue that exists (R265). -/
def Passes (s : State) (p : Pkt) (masks : List Nat) : Prop :=
  s.clocked = true ∧ feRuns s = true ∧ CanReply s ∧ tagBusy s p.tag.toNat = false ∧ pktFormat p masks = true ∧
    s.qState p.queue.toNat ≠ 0

/-- The packet gets its one reply, with a status and results; what else has changed satisfies `P`. -/
def Replied (i : Instr) (p : Pkt) (s : State) (st : Nat) (res : List Nat) (P : State → Prop) : Prop :=
  ∃ t, exec i s = .next t ∧ t.sent = s.sent ++ [.reply p.tag.toNat st res] ∧ P t

/-- Nothing has been done. -/
def Unchanged (s t : State) : Prop :=
  t.mem = s.mem ∧ t.regs = s.regs ∧ t.queues = s.queues ∧ t.contexts = s.contexts ∧ t.ranges = s.ranges ∧
    t.launches = s.launches ∧ t.now = s.now

/-- The packets with the bits that their parameters define, and whether only queue 0 may send them (R266). -/
def packetRows (p : Pkt) : List (Instr × List Nat × Bool) :=
  [(.submit p, [full, ones 0 14], false), (.queueCreate p, [ones 0 8, full, full], true), (.queueDestroy p, [ones 0 10], true),
   (.queueDisable p, [ones 0 10], true), (.queueEnable p, [ones 0 10], true), (.queueReset p, [ones 0 10], true),
   (.contextCreate p, [], true), (.contextDestroy p, [ones 0 6], true), (.regReadPacket p, [full], false),
   (.regWritePacket p, [full, full], false), (.queueQuery p, [ones 0 10], false), (.fallbackRead p, [ones 0 10], false),
   (.echo p, [full, full, full], false)]

/-- R270, row by row: the state a command arrives in, and what QUEUE_ENABLE, QUEUE_RESET, QUEUE_DESTROY and QUEUE_DISABLE find. -/
def arrivals : List (Nat × Arrival × Arrival × Arrival × Arrival) :=
  [(2, .held, .refused, .held, .noEffect), (3, .acts, .refused, .acts, .noEffect), (4, .refused, .held, .held, .refused),
   (5, .refused, .acts, .acts, .refused), (6, .refused, .refused, .noEffect, .refused), (1, .noEffect, .refused, .acts, .acts)]

/-- What a queue command does to queue `q` by what it finds. -/
def Commanded (i : Instr) (p : Pkt) (s : State) (q : Nat) (a : Arrival) (c : Option HeldCmd) (next : Nat) : Prop :=
  match a with
  | .acts => Replied i p s stOk [] (fun t => t.qState q = next ∧ (t.queue q).held = none ∧
      t.rget Fld.FE_QUEUE_STATUS_PENDING 0 q = 0 ∧ (t.queue q).nextSeq = (s.queue q).nextSeq)
  | .held => Replied i p s stPending [] (fun t => t.qState q = s.qState q ∧ (t.queue q).held = c ∧
      t.rget Fld.FE_QUEUE_STATUS_PENDING 0 q = 1)
  | .noEffect => Replied i p s stOk [] (Unchanged s)
  | .refused => Replied i p s stInvalidState [] (Unchanged s)

/-! ### Nodes -/

/-- The node's action has ended with a status and a result word; what else has changed satisfies `P`. -/
def Ends (i : Instr) (r : NodeRef) (s : State) (n : Node) (st res : Nat) (P : State → Prop) : Prop :=
  ∃ t z, exec i s = .next t ∧ t.node r = some z ∧ z.stage = .acted ∧ z.status = st ∧ z.result = res ∧ z.words = n.words ∧ P t

/-- A running node of a type whose action the command carries out. -/
def Acting (s : State) (r : NodeRef) (typ : Nat) (n : Node) : Prop := s.clocked = true ∧ actNode s r typ = some n

/-- A running node of a type with an operation in the low four bits of its word 8. -/
def ActingOp (s : State) (r : NodeRef) (typ op : Nat) (n : Node) : Prop := s.clocked = true ∧ actOp s r typ op = some n

/-- A request of kind `kind` for `len` bytes of the host window from `a` on has been made for the node. -/
def Asked (s t : State) (r : NodeRef) (kind : ReqKind) (a len : Nat) : Prop :=
  t.mem = s.mem ∧ ∃ q, (q ∈ t.uc.waiting ∨ ∃ tag, SMap.find? t.uc.out tag = some q) ∧ q.src = .body r ∧ q.kind = kind ∧
    q.off = a - hostBase ∧ q.len = len

/-- Another node keeps the node's buffer open. -/
def OtherOpen (s : State) (r : NodeRef) : Prop :=
  ∃ b, (s.queue r.queue).buffer r.seq = some b ∧ ∃ m ∈ b.nodes, m.index ≠ r.node ∧ m.stage = .running

/-- A node without record, event, references and launch, in a buffer of its queue that another node keeps open. -/
def Bare (s : State) (r : NodeRef) (n : Node) : Prop :=
  s.node r = some n ∧ n.record = none ∧ n.event = none ∧ n.refs = [] ∧ n.launch = 0 ∧ n.fin = 0 ∧ OtherOpen s r

/-- No job-set slot is in use. -/
def NoJobs (s : State) : Prop := ∀ j, j < 64 → jsState s j = 0

/-- The node has completed with a status (R284). -/
def Completed (t : State) (r : NodeRef) (st : Nat) : Prop := ∃ z, t.node r = some z ∧ z.stage = .done ∧ z.status = st

/-- A register whose write stores its fields and does nothing else. -/
def PlainWrite (x : RegName) : Prop :=
  (x.unit, x.index) ∉ [(5, 1), (5, 14), (6, 243), (7, 1), (8, 1), (8, 2), (8, 6), (8, 1037), (9, 0), (12, 1), (13, 0), (14, 1), (14, 3),
    (14, 4), (14, 6), (14, 9)] ∧ ¬(x.unit = 5 ∧ 16 ≤ x.index ∧ x.index < 32)

/-- A bit of a register after a write, by the access code of its field (R11, R13). -/
def writtenBit (a : Acc) (kernel old new : Bool) : Bool :=
  match a with
  | .ro => old
  | .rw => new
  | .w1c => old && !new
  | .w1s => old || new
  | .rc => old
  | .wo => new
  | .krw => if kernel then new else old

end Sys2Proof.Claims

/-- R265, R266: a packet is answered with TAG_BUSY, FORMAT, INVALID_ARGUMENT (no such queue) or PRIVILEGE, in this order, and nothing is
done. -/
def Sys2Proof.Claims.PacketChecks : Prop :=
  ∀ s p, s.clocked = true → feRuns s = true → CanReply s → ∀ r ∈ packetRows p,
    (tagBusy s p.tag.toNat = true → Replied r.1 p s stTagBusy [] (Unchanged s)) ∧
    (tagBusy s p.tag.toNat = false →
      (pktFormat p r.2.1 = false → Replied r.1 p s stFormat [] (Unchanged s)) ∧
      (pktFormat p r.2.1 = true →
        (s.qState p.queue.toNat = 0 → Replied r.1 p s stInvalidArgument [] (Unchanged s)) ∧
        (s.qState p.queue.toNat ≠ 0 → r.2.2 = true → p.queue ≠ 0 → Replied r.1 p s stPrivilege [] (Unchanged s))))

/-- R268 to R270: QUEUE_ENABLE, QUEUE_RESET, QUEUE_DESTROY and QUEUE_DISABLE by the state they arrive in; QUEUE_DESTROY and
QUEUE_DISABLE of queue 0 are refused. A queue to be destroyed holds no buffer here. -/
def Sys2Proof.Claims.QueueCommands : Prop :=
  ∀ s p, Passes s p [ones 0 10] → p.queue = 0 →
    (pktParam p 0 = 0 → Replied (.queueDestroy p) p s stInvalidArgument [] (Unchanged s) ∧
      Replied (.queueDisable p) p s stInvalidArgument [] (Unchanged s)) ∧
    ∀ r ∈ arrivals, let q := pktParam p 0
      s.qState q = r.1 →
      Commanded (.queueEnable p) p s q r.2.1 (some .enable) 1 ∧
      Commanded (.queueReset p) p s q r.2.2.1 (some .reset) 1 ∧
      (q ≠ 0 → (s.queue q).buffers = [] → Commanded (.queueDestroy p) p s q r.2.2.2.1 (some .destroy) 6) ∧
      (q ≠ 0 → Commanded (.queueDisable p) p s q r.2.2.2.2 none (if qRunning s q then 2 else 3))

/-- R268, R271: QUEUE_CREATE makes the lowest FREE queue ACTIVE in its context, with its priority, seed and event; CONTEXT_CREATE takes
the lowest free number; CONTEXT_DESTROY of a context without queues and job sets starts its destruction, which ends with the number
free. -/
def Sys2Proof.Claims.QueuesAndContexts : Prop :=
  ∀ s p, p.queue = 0 →
    (Passes s p [ones 0 8, full, full] → contextLive s (bits (pktParam p 0) 0 6) = false →
      Replied (.queueCreate p) p s stInvalidArgument [] (Unchanged s)) ∧
    (Passes s p [ones 0 8, full, full] → contextLive s (bits (pktParam p 0) 0 6) = true → freeQueue s = none →
      Replied (.queueCreate p) p s stInvalidState [] (Unchanged s)) ∧
    (∀ q u obj v ev a, Passes s p [ones 0 8, full, full] → contextLive s (bits (pktParam p 0) 0 6) = true → freeQueue s = some q →
      newObj s 3 (bits (pktParam p 0) 0 6) q false = some (u, obj) →
      registerEvent u (bits (pktParam p 0) 0 6) (pktParam p 2) = (v, stOk, some (ev, a)) →
      Replied (.queueCreate p) p s stOk [q] (fun t => t.qState q = 1 ∧ t.qContext q = bits (pktParam p 0) 0 6 ∧
        t.rget Fld.FE_QUEUE_STATUS_PRIO 0 q = bits (pktParam p 0) 6 2 ∧ t.mem = v.mem ∧
        t.queue q = { seed := pktParam p 1, event := some a, eventObj := some ev, obj := some obj })) ∧
    (Passes s p [] → (∀ c, c < 64 → (SMap.find? s.contexts c).isSome = true) →
      Replied (.contextCreate p) p s stInvalidState [] (Unchanged s)) ∧
    (∀ c, Passes s p [] → c < 64 → SMap.find? s.contexts c = none → (∀ d, d < c → (SMap.find? s.contexts d).isSome = true) →
      Replied (.contextCreate p) p s stOk [c] (fun t => SMap.find? t.contexts c = some {} ∧
        ∀ d, d ≠ c → SMap.find? t.contexts d = SMap.find? s.contexts d)) ∧
    (∀ x, Passes s p [ones 0 6] → pktParam p 0 ≠ 0 → SMap.find? s.contexts (pktParam p 0) = some x → x.destroying = false →
      NoJobs s → queuesOf s (pktParam p 0) = [] →
      Replied (.contextDestroy p) p s stOk [] (fun t => SMap.find? t.contexts (pktParam p 0) = some { x with destroying := true })) ∧
    (∀ (c : Fin 64) x, s.clocked = true → SMap.find? s.contexts c = some x → x.destroying = true → queuesOf s c = [] →
      ∃ t, exec (.contextDestroyDone c) s = .next t ∧ SMap.find? t.contexts c = none ∧
        ∀ d, d ≠ c.val → SMap.find? t.contexts d = SMap.find? s.contexts d)

/-- R268, R269, R272 to R274: SUBMIT to a queue that takes no work, that holds 64 buffers, of a buffer that does not translate or that
finds no space, is refused with its status; a buffer in device memory that reads clean and is well formed takes the queue's next
sequence number, which the reply carries, and joins the queue with its nodes in order. -/
def Sys2Proof.Claims.Submit : Prop :=
  ∀ s p, Passes s p [full, ones 0 14] →
    let q := p.queue.toNat
    let bytes := 64 * (pktParam p 1 + 1)
    let found := lookup s (s.qContext q) (pktParam p 0) bytes permR
    ((s.qState q = 4 ∨ s.qState q = 5 ∨ s.qState q = 6) → Replied (.submit p) p s stInvalidState [] (Unchanged s)) ∧
    (s.qState q < 4 → 64 ≤ buffersOf s q → Replied (.submit p) p s stQueueFull [] (Unchanged s)) ∧
    (s.qState q < 4 → buffersOf s q < 64 →
      (found = none → Replied (.submit p) p s stTranslation [] (fun t => t.queues = s.queues ∧ t.mem = s.mem)) ∧
      (∀ a x, found = some (a, x) →
        (poolBytes < poolUsed s + bytes ∨ poolBytes < 4 * ((s.queue q).pool + bytes) →
          Replied (.submit p) p s stBufferSpace [] (fun t => t.queues = s.queues ∧ t.mem = s.mem)) ∧
        (∀ conc nodes, poolUsed s + bytes ≤ poolBytes → 4 * ((s.queue q).pool + bytes) ≤ poolBytes → isHost a = false →
          (agentRead s a bytes).2.2 = true →
          readBuffer (wordsOf (bytes / 8) ((toBytes bytes (s.readLE a bytes)).map (fun b => b.toNat))) = some (conc, nodes) →
          Replied (.submit p) p s stOk [(s.queue q).nextSeq] (fun t =>
            (t.queue q).nextSeq = (s.queue q).nextSeq + 1 ∧ (t.queue q).pool = (s.queue q).pool + bytes ∧
            ∃ b, (t.queue q).buffers.getLast? = some b ∧ b.seq = (s.queue q).nextSeq ∧ b.bytes = bytes ∧ b.concurrent = conc ∧
              b.nodes.map (fun n => n.words) = nodes))))

/-- R9, R13, R266, R285: REG_READ and REG_WRITE packets do what a read and a write of the register do; an offset that names no register
is INVALID_ARGUMENT, and a KRW register from a user queue is PRIVILEGE. QUEUE_QUERY answers the queue's status, its completed sequence
number and its slowdown; FALLBACK_READ takes the oldest record out of its ring; ECHO answers its parameters. -/
def Sys2Proof.Claims.QueryPackets : Prop :=
  ∀ s p,
    (Passes s p [full] →
      (regNamed (pktParam p 0) = none → Replied (.regReadPacket p) p s stInvalidArgument [] (Unchanged s)) ∧
      (∀ x, regNamed (pktParam p 0) = some x → CanReply (regRead s x).1 →
        Replied (.regReadPacket p) p s stOk [(regRead s x).2] (fun t => t.regs = (regRead s x).1.regs ∧ t.mem = s.mem))) ∧
    (Passes s p [full, full] →
      (regNamed (pktParam p 0) = none → Replied (.regWritePacket p) p s stInvalidArgument [] (Unchanged s)) ∧
      (∀ x, regNamed (pktParam p 0) = some x →
        (x.hasKrw = true → p.queue ≠ 0 → Replied (.regWritePacket p) p s stPrivilege [] (Unchanged s)) ∧
        (x.hasKrw = false ∨ p.queue = 0 → x.gated s = false → writeLegal x (pktParam p 1) = true → PlainWrite x → x.unit ≠ 7 →
          Replied (.regWritePacket p) p s stOk [] (fun t => t.mem = s.mem ∧
            x.raw t = x.written (decide (p.queue = 0)) (x.raw s) (pktParam p 1) % 2 ^ 64)))) ∧
    (Passes s p [ones 0 10] → p.queue = 0 ∨ pktParam p 0 = p.queue.toNat → s.qState (pktParam p 0) ≠ 0 →
      let q := pktParam p 0
      Replied (.queueQuery p) p s stOk [(s.regWord Fld.FE_QUEUE_STATUS_STATE 0 q).toNat, (s.queue q).doneSeq,
        (s.regWord Fld.FE_QUEUE_SLOWDOWN_SLOWDOWN 0 q).toNat] (Unchanged s) ∧
      (s.rget Fld.FE_QUEUE_STATUS_ORPHAN_HELD 0 q = 0 → Replied (.fallbackRead p) p s stInvalidState [] (Unchanged s)) ∧
      (s.rget Fld.FE_QUEUE_STATUS_ORPHAN_HELD 0 q ≠ 0 →
        Replied (.fallbackRead p) p s stOk ((List.range 16).map (fun i =>
          s.readLE (carveBase s + ringsOff + q * 2048 + 128 * (s.queue q).ringHead + 8 * i) 8)) (fun t => t.mem = s.mem ∧
            t.rget Fld.FE_QUEUE_STATUS_ORPHAN_HELD 0 q = s.rget Fld.FE_QUEUE_STATUS_ORPHAN_HELD 0 q - 1 ∧
            (t.queue q).ringHead = ((s.queue q).ringHead + 1) % 16))) ∧
    (Passes s p [full, full, full] →
      Replied (.echo p) p s stOk [pktParam p 0, pktParam p 1, pktParam p 2] (Unchanged s))

/-- R9 to R13: a read of a register returns its readable fields, with reserved bits and WO fields zero, and clears its RC fields; a
write sets the bits of its fields by their access codes and no others, and a KRW register takes one only from a privileged sender. An
offset that names no register is an invalid argument. The other registers and memory stay as they are. -/
def Sys2Proof.Claims.RegisterAccess : Prop :=
  ∀ s (off : BitVec 32), s.clocked = true →
    (regNamed off.toNat = none → ∃ t, exec (.rcFieldRead off) s = .next t ∧ t.status = stInvalidArgument ∧ t.regs = s.regs) ∧
    (∀ kernel v, regNamed off.toNat = none →
      ∃ t, exec (.registerWrite kernel off v) s = .next t ∧ t.status = stInvalidArgument ∧ t.regs = s.regs) ∧
    ∀ x, regNamed off.toNat = some x → x.gated s = false →
      (¬(x.unit = 10 ∧ x.index = 5) → ∃ t, exec (.rcFieldRead off) s = .next t ∧ t.status = stOk ∧ t.mem = s.mem ∧
        (∀ y : RegName, y.offset ≠ x.offset → y.raw t = y.raw s) ∧
        (∀ f ∈ x.map.fields, ∀ i, f.lo ≤ i → i < f.lo + f.len →
          Nat.testBit t.value i = (decide (f.acc ≠ .wo) && Nat.testBit (regShow { s with reads := s.reads + 1 } x) i) ∧
          Nat.testBit (x.raw t) i = (decide (f.acc ≠ .rc) && Nat.testBit (x.raw s) i)) ∧
        ∀ i, (∀ f ∈ x.map.fields, i < f.lo ∨ f.lo + f.len ≤ i) → Nat.testBit t.value i = false) ∧
      (∀ v, x.hasKrw = true → ∃ t, exec (.registerWrite false off v) s = .next t ∧ t.status = stPrivilege ∧ t.regs = s.regs) ∧
      (∀ kernel v, x.hasKrw = false ∨ kernel = true → writeLegal x v.toNat = false →
        ∃ t, exec (.registerWrite kernel off v) s = .next t ∧ t.status = stInvalidArgument ∧ t.regs = s.regs) ∧
      (∀ kernel v, x.hasKrw = false ∨ kernel = true → writeLegal x v.toNat = true → PlainWrite x →
        ∃ t, exec (.registerWrite kernel off v) s = .next t ∧ t.status = stOk ∧ t.mem = s.mem ∧
          (∀ y : RegName, y.offset ≠ x.offset → y.raw t = y.raw s) ∧
          (∀ f ∈ x.map.fields, ∀ i, f.lo ≤ i → i < f.lo + f.len →
            Nat.testBit (x.raw t) i = writtenBit f.acc kernel (Nat.testBit (x.raw s) i) (Nat.testBit v.toNat i)) ∧
          ∀ i, (∀ f ∈ x.map.fields, i < f.lo ∨ f.lo + f.len ≤ i) → Nat.testBit (x.raw t) i = Nat.testBit (x.raw s) i)

/-- R276, R279, R280: a LAUNCH takes the next serial and its queue's seed; TIMESTAMP, REG_READ, REG_WRITE and SET_SEED end at once with
their result; an assignment puts a context into a partition. -/
def Sys2Proof.Claims.SimpleNodes : Prop :=
  ∀ s r n,
    (Acting s r ntLaunch n → ∃ t, exec (.launch r) s = .next t ∧ t.mem = s.mem ∧
      t.node r = some { n with launch := (mkLaunch s r n).serial } ∧ t.launch (mkLaunch s r n).serial = some (mkLaunch s r n) ∧
      ∀ k, k ≠ (mkLaunch s r n).serial → t.launch k = s.launch k) ∧
    (Acting s r ntTimestamp n → Ends (.timestamp r) r s n stOk s.now (fun t => t.mem = s.mem ∧ t.regs = s.regs)) ∧
    (∀ x, Acting s r ntRegRead n → regNamed (n.word 8) = some x →
      Ends (.regReadNode r) r s n stOk (regRead s x).2 (fun t => t.mem = s.mem ∧ t.regs = (regRead s x).1.regs)) ∧
    (∀ x, Acting s r ntRegWrite n → regNamed (n.word 8) = some x → PlainWrite x → x.gated s = false →
      (x.hasKrw = true → r.queue ≠ 0 → Ends (.regWriteNode r) r s n stPrivilege 0 (fun t => t.regs = s.regs)) ∧
      (x.hasKrw = false ∨ r.queue = 0 → writeLegal x (n.word 9) = true →
        Ends (.regWriteNode r) r s n stOk 0 (fun t => t.mem = s.mem ∧
          x.raw t = x.written (decide (r.queue = 0)) (x.raw s) (n.word 9) % 2 ^ 64))) ∧
    (Acting s r ntSetSeed n → Ends (.setSeed r) r s n stOk 0 (fun t => t.mem = s.mem ∧ t.regs = s.regs ∧
      (t.queue r.queue).seed = n.word 8)) ∧
    (∀ c, Acting s r ntPartition n → SMap.find? s.contexts (bits (n.word 8) 0 6) = some c →
      Ends (.partitionAssign r) r s n stOk 0 (fun t => t.mem = s.mem ∧ t.regs = s.regs ∧
        SMap.find? t.contexts (bits (n.word 8) 0 6) = some { c with partition := bits (n.word 8) 8 4 }))

/-- R277, R396: an empty COPY or local CKPT_COPY ends at once; any other hands its granules of 4 KiB to the movers, round-robin from
block 0, and keeps those for which there is no room. FILL writes its pattern over its extent and nothing else. -/
def Sys2Proof.Claims.CopiesAndFills : Prop :=
  ∀ s r n,
    (∀ c ∈ [(Instr.copy r, ntCopy, n.word 10), (.ckptCopy r, ntCkpt, bits (n.word 11) 0 48)],
      Acting s r c.2.1 n → (c.2.1 = ntCkpt → bits (n.word 8) 0 1 = 0) →
      (c.2.2 = 0 → Ends c.1 r s n stOk 0 (fun t => t.mem = s.mem)) ∧
      (0 < c.2.2 → n.deal = [] → n.moving = 0 → ∃ t, exec c.1 s = .next t ∧ t.mem = s.mem ∧
        ∀ k, 4096 * k < c.2.2 →
          let g : Granule := { queue := r.queue, seq := r.seq, node := r.node, src := n.phys.getD 0 0 + 4096 * k
                               dst := n.phys.getD 1 0 + 4096 * k, bytes := min 4096 (c.2.2 - 4096 * k) }
          g ∈ (t.mover (k % 24)).fe ∨ ∃ z, t.node r = some z ∧ (k % 24, g) ∈ z.deal)) ∧
    (Acting s r ntFill n → n.waiting = 0 → n.word 9 % 8 = 0 → n.phys.getD 0 0 + n.word 9 ≤ hbmEnd → NoEventWaits s → s.memWf = true →
      Ends (.fill r) r s n stOk 0 (fun t => t.memWf = true ∧
        (∀ i, i < n.word 9 → t.byte (n.phys.getD 0 0 + i) = BitVec.ofNat 8 (n.word 10 >>> (8 * (i % 8)))) ∧
        ∀ a, (a < n.phys.getD 0 0 ∨ n.phys.getD 0 0 + n.word 9 ≤ a) → t.byte a = s.byte a))

/-- R255, R304, R305, R453: EVENT_SIGNAL sets a word below its value, and counts one that is not below it as stale; EVENT_WAIT ends when
the word has reached its value and waits when it has not; a poisoned word fails either. A word on the host window is read by request. -/
def Sys2Proof.Claims.EventNodes : Prop :=
  ∀ s r n a, n.phys.getD 0 0 = a →
    (Acting s r ntSignal n → isHost a = false → s.extentPoisoned a 8 = false → channelTakes s a = true → NoEventWaits s →
      s.memWf = true →
      (s.readLE a 8 < n.word 9 → Ends (.eventSignal r) r s n stOk 0 (fun t => t.memWf = true ∧
        t.readLE a 8 = n.word 9 % 2 ^ 64 ∧ ∀ b, (b < a ∨ a + 8 ≤ b) → t.byte b = s.byte b)) ∧
      (s.readLE a 8 = n.word 9 → Ends (.eventSignal r) r s n stOk 0 (fun t => t.mem = s.mem ∧
        t.rget Fld.FE_EVENT_STATS_STALE = min (s.rget Fld.FE_EVENT_STATS_STALE + 1) (2 ^ Fld.FE_EVENT_STATS_STALE.len - 1)))) ∧
    (Acting s r ntWait n → isHost a = false → s.extentPoisoned a 8 = false →
      (n.word 9 ≤ s.readLE a 8 → Ends (.eventWait r) r s n stOk 0 (fun t => t.mem = s.mem ∧ t.regs = s.regs)) ∧
      (s.readLE a 8 < n.word 9 → exec (.eventWait r) s = .next s)) ∧
    (∀ e ∈ [(Instr.eventSignal r, ntSignal), (.eventWait r, ntWait)], Acting s r e.2 n → isHost a = false →
      s.extentPoisoned a 8 = true → Ends e.1 r s n stUncorrectable 0 (fun t => t.mem = s.mem)) ∧
    (Acting s r ntWait n → hostBase ≤ a → a + 8 ≤ hostEnd → a % 8 = 0 → n.waiting = 0 → hostReachable s = true →
      ∀ i ∈ [Instr.eventWait r, .hostEventPoll r], ∃ t, exec i s = .next t ∧ Asked s t r .read a 8)

/-- R197 to R201: a line of a PRELOAD that its slice holds is locked for the group while the limit allows it, and with its last line the
group is LOCKED and the node ends with its counts. UNLOCK of a FREE group ends at once, of another context's group is an invalid
argument, and of the context's own takes it to RELEASING; the release ends with the group FREE and none of its lines locked. -/
def Sys2Proof.Claims.LockGroups : Prop :=
  ∀ s r n,
    (Acting s r ntPreload n → let g := bits (n.word 12) 0 4
      s.rget Fld.L2_GROUP_STATE 0 g = 0 → SMap.find? s.groupLoad g = none →
      ((preloadLines n)[n.progress]? = none → Ends (.preload r) r s n stOk n.result (fun t => t.mem = s.mem ∧
        t.rget Fld.L2_GROUP_STATE 0 g = 2 ∧ t.rget Fld.L2_GROUP_CONTEXT 0 g = s.qContext r.queue)) ∧
      ∀ l w, (preloadLines n)[n.progress]? = some l → isHbmLine l = true → (s.line l).slice = some w → w.lock = none →
        lockedWays s (homeOf l).slice (homeOf l).set l < lockLimit s (homeOf l).slice (homeOf l).set →
        (n.progress + 1 = (preloadLines n).length → Ends (.preload r) r s n stOk (n.result + 1) (fun t => t.mem = s.mem ∧
          (t.line l).slice = some { w with lock := some g } ∧ t.rget Fld.L2_GROUP_STATE 0 g = 2)) ∧
        (n.progress + 1 ≠ (preloadLines n).length → ∃ t, exec (.preload r) s = .next t ∧ t.mem = s.mem ∧
          (t.line l).slice = some { w with lock := some g } ∧ t.rget Fld.L2_GROUP_STATE 0 g = 1 ∧
          t.node r = some { n with progress := n.progress + 1, result := n.result + 1 })) ∧
    (Acting s r ntUnlock n → let g := bits (n.word 8) 0 4
      (s.rget Fld.L2_GROUP_STATE 0 g = 0 → Ends (.unlock r) r s n stOk 0 (fun t => t.mem = s.mem ∧ t.lines = s.lines)) ∧
      (s.rget Fld.L2_GROUP_STATE 0 g ≠ 0 → s.rget Fld.L2_GROUP_CONTEXT 0 g ≠ s.qContext r.queue →
        Ends (.unlock r) r s n stInvalidArgument 0 (fun t => t.regs = s.regs ∧ t.lines = s.lines)) ∧
      (s.rget Fld.L2_GROUP_STATE 0 g = 1 ∨ s.rget Fld.L2_GROUP_STATE 0 g = 2 →
        s.rget Fld.L2_GROUP_CONTEXT 0 g = s.qContext r.queue →
        ∃ t, exec (.unlock r) s = .next t ∧ t.mem = s.mem ∧ t.rget Fld.L2_GROUP_STATE 0 g = 3 ∧
          t.node r = some { n with progress := 1 })) ∧
    (∀ g : Fin 16, s.clocked = true → s.rget Fld.L2_GROUP_STATE 0 g = 3 → SMap.find? s.groupLoad g = none →
      ∃ t, exec (.unlockReleaseDone g) s = .next t ∧ t.mem = s.mem ∧ t.rget Fld.L2_GROUP_STATE 0 g = 0 ∧
        ∀ l w, (t.line l).slice = some w → w.lock ≠ some g.val)

/-- R262: REALIGN_SET of a pair that another context holds is INVALID_STATE; one without waiters takes the cores, counters, BASE, period
and due time given, or becomes free. -/
def Sys2Proof.Claims.RealignSet : Prop :=
  ∀ s r n, Acting s r ntRealign n → let w := n.word 8
    let p := bits w 0 4
    let held := s.flag Fld.FE_RALIGN_PAIR_VALID 0 p
    (held = true → s.rget Fld.FE_RALIGN_PAIR_CONTEXT 0 p ≠ s.qContext r.queue →
      Ends (.realignSet r) r s n stInvalidState 0 (fun t => t.regs = s.regs)) ∧
    ((held = false ∨ s.rget Fld.FE_RALIGN_PAIR_CONTEXT 0 p = s.qContext r.queue) → pairWaiters s p = [] →
      (bits w 4 1 = 1 → Ends (.realignSet r) r s n stOk 0 (fun t => t.mem = s.mem ∧ t.flag Fld.FE_RALIGN_PAIR_VALID 0 p = false)) ∧
      (bits w 4 1 = 0 → Ends (.realignSet r) r s n stOk 0 (fun t => t.mem = s.mem ∧
        t.flag Fld.FE_RALIGN_PAIR_VALID 0 p = true ∧ t.rget Fld.FE_RALIGN_PAIR_CONTEXT 0 p = s.qContext r.queue ∧
        t.rget Fld.FE_RALIGN_PAIR_CORE_A 0 p = bits w 8 8 ∧ t.rget Fld.FE_RALIGN_PAIR_INDEX_A 0 p = bits w 16 6 ∧
        t.rget Fld.FE_RALIGN_PAIR_CORE_B 0 p = bits w 24 8 ∧ t.rget Fld.FE_RALIGN_PAIR_INDEX_B 0 p = bits w 32 6 ∧
        t.rget Fld.FE_RALIGN_BASE_BASE 0 p = bits (n.word 9) 0 32 ∧ t.rget Fld.FE_RALIGN_PERIOD_PERIOD 0 p = bits (n.word 10) 0 40 ∧
        t.rget Fld.FE_RALIGN_DUE_DUE 0 p = n.word 11 % 2 ^ 64)))

/-- R278, R283, R284, R286: the queue's first ready node starts with its watchdog running; a node whose action has ended completes with
its status, its record written first; one whose predecessor failed completes DEP_FAILED without running; a node whose watchdog expires
completes WATCHDOG and its queue goes to RESETTING. -/
def Sys2Proof.Claims.NodeLife : Prop :=
  ∀ s r n, s.clocked = true → feRuns s = true → s.qState r.queue = 1 → s.sp.jobs = [] →
    (s.node r = some n → mayStart s r = true → noRoom s r = false → (readyNodes s r.queue).head? = some r →
      ∃ t, exec (.nodeStart r) s = .next t ∧ t.mem = s.mem ∧ t.regs = s.regs ∧ t.node r = some { n with
        stage := .running, start := s.now
        timer := some { span := 1000 * (if n.watchdog = 0 then s.rget Fld.FE_WATCHDOG_DEFAULT_US else n.watchdog)
                        mark := s.clockOf (s.qContext r.queue) } }) ∧
    (Bare s r n → n.stage = .acted → isGuilty n.status = false →
      ∃ t, exec (.nodeComplete r) s = .next t ∧ t.mem = s.mem ∧ Completed t r n.status) ∧
    (∀ a, s.node r = some n → n.record = some a → n.event = none → n.refs = [] → n.launch = 0 → n.fin = 0 → OtherOpen s r →
      n.stage = .acted → isGuilty n.status = false → isHost a = false → channelTakes s a = true → NoEventWaits s → s.memWf = true →
      ∃ t, exec (.nodeComplete r) s = .next t ∧ Completed t r n.status ∧ t.memWf = true ∧
        t.readLE a 128 = joinWords (completionWords s r n n.status false) ∧
        ∀ b, (b < a ∨ a + 128 ≤ b) → t.byte b = s.byte b) ∧
    (Bare s r n → n.stage = .waiting → (∀ b, (s.queue r.queue).buffer r.seq = some b → depFailed b n = true) →
      ∃ t, exec (.nodeComplete r) s = .next t ∧ t.mem = s.mem ∧ Completed t r stDepFailed) ∧
    (∀ tm, Bare s r n → n.stage = .running → n.aborting = false → n.timerHeld = false → n.moving = 0 → n.timer = some tm →
      s.ranOut (s.qContext r.queue) tm = true → NoJobs s →
      ∃ t, exec (.nodeWatchdogExpire r) s = .next t ∧ Completed t r stWatchdog ∧ t.qState r.queue = 4)

/-- R269, R270, R287, R288, R302: a queue whose work has all been stopped becomes GUILTY with its cause and a NOTIFY, or FREE; an engine's
report completes its node with the status it was stopped with, and one silent for 1 ms is recorded and its node completed all the same;
an object in TEARDOWN becomes FREE with its generation raised. -/
def Sys2Proof.Claims.QueueAborts : Prop :=
  ∀ s, s.clocked = true →
    (∀ q : Fin 1024, (s.queue q).aborts = [] → (s.queue q).buffers = [] →
      (s.qState q = 4 → (s.queue q).held = none → (s.queue q).nextSeq ≤ (s.queue q).doneSeq + 1 →
        ∃ t, exec (.queueAbortDone q) s = .next t ∧ t.mem = s.mem ∧ t.qState q = 5 ∧
          t.rget Fld.FE_QUEUE_STATUS_CAUSE 0 q = (s.queue q).guilt.1 % 256 ∧
          (CanReply s → s.uc.outbox = [] → t.sent = s.sent ++ [.notify 1 q (s.queue q).guilt.2])) ∧
      (s.qState q = 6 → (s.queue q).event = none → (s.queue q).obj = none → (s.queue q).eventObj = none →
        ∃ t, exec (.queueAbortDone q) s = .next t ∧ t.mem = s.mem ∧ t.qState q = 0 ∧ SMap.find? t.queues q = none)) ∧
    (∀ r n, Bare s r n → n.stage = .running → n.moving = 0 → r ∈ (s.queue r.queue).aborts → NoJobs s →
      (∃ t, exec (.engineAbortReport r) s = .next t ∧ t.mem = s.mem ∧ Completed t r n.status ∧ r ∉ (t.queue r.queue).aborts) ∧
      ∃ t, exec (.abortReportTimeout r) s = .next t ∧ Completed t r n.status ∧ r ∉ (t.queue r.queue).aborts ∧
        t.now = max s.now ((s.queue r.queue).abortAt + 1000000) ∧ t.nextErr = (s.nextErr + 1) % 2 ^ 64 ∧
        ∀ a, (a < errSlot s s.nextErr ∨ errSlot s s.nextErr + 128 ≤ a) → t.byte a = s.byte a) ∧
    (∀ i : Fin 65536, objState s i = 2 → ∃ t, exec (.objectTeardown i) s = .next t ∧ objState t i = 0 ∧
      objGen t i = (objGen s i + 1) % 2 ^ 32)

/-- R292, R293, R297 to R299: a range enters the lowest free entry of the translation unit with a memory object, whose handle is the
result, unless it overlaps one of its context or another context's heap; a destroyed one is DYING with one reference less; a reload
source replaces the last; a heap joins its context; an event object is registered on its word. -/
def Obligations.RangeNodes : Prop :=
  ∀ s r n, let c := rangeContext n
    let v := n.word 9 / 4096
    let k := bits (n.word 10) 0 36 + 1
    contextLive s c = true →
    (let mattr := bits (n.word 10) 40 8
     let pa := bits (n.word 11) 0 48
     let f := reloadFields n
     ActingOp s r ntRange 1 n → v + k ≤ 2 ^ 52 → pa % 4096 = 0 → physOk s pa (4096 * k) = true → bits mattr 4 4 = 0 →
      (mattrImm mattr = true → bits (n.word 10) 36 4 &&& (permW + permA) = 0) → reloadOk f (4096 * k) (mattrImm mattr) = true →
      (virtTaken s c v k = true ∨ heapElsewhere s c (pa / 4096) k = true →
        Ends (.rangeCreate r) r s n stInvalidArgument 0 (fun t => t.ranges = s.ranges ∧ t.mem = s.mem)) ∧
      ∀ tu u i, virtTaken s c v k = false → heapElsewhere s c (pa / 4096) k = false → freeTu s = some tu →
        newObj s 1 c tu false = some (u, i) → s.retired = [] →
        Ends (.rangeCreate r) r s n stOk (handleOf u i) (fun t => t.mem = u.mem ∧
          SMap.find? t.ranges tu = some { context := c, vbase := v, ngran := k, perm := bits (n.word 10) 36 4, mattr := mattr
                                          pbase := pa / 4096, rsrc := f.1, rwin := f.2.1, raddr := f.2.2.1, rdev := f.2.2.2, object := i } ∧
          ∀ m, m ≠ tu → SMap.find? t.ranges m = SMap.find? s.ranges m)) ∧
    (∀ i, ActingOp s r ntRange 2 n → handleObj s n [1, 2] = some i → objState s i = 1 →
      (objDying s i = true → Ends (.rangeDestroy r) r s n stInvalidState 0 (fun t => t.mem = s.mem)) ∧
      (objDying s i = false → 1 ≤ objCount s i → s.allocs.all (fun a => a.object != i) = true →
        Ends (.rangeDestroy r) r s n stOk 0 (fun t => objDying t i = true ∧ objCount t i = objCount s i - 1 ∧
          objState t i = (if objCount s i = 1 then 2 else 1) ∧ t.ranges = s.ranges))) ∧
    (∀ i x, ActingOp s r ntRange 3 n → handleObj s n [1] = some i → SMap.find? s.ranges (objWhat s i) = some x →
      let f := reloadFields n
      reloadOk f (4096 * x.ngran) (mattrImm x.mattr) = true →
      Ends (.setReload r) r s n stOk 0 (fun t => t.mem = s.mem ∧
        SMap.find? t.ranges (objWhat s i) = some { x with rsrc := f.1, rwin := f.2.1, raddr := f.2.2.1, rdev := f.2.2.2 })) ∧
    (∀ x, ActingOp s r ntRange 4 n → v + k ≤ 2 ^ 52 → SMap.find? s.contexts c = some x → n.word 9 % 4096 = 0 → n.word 11 % 4096 = 0 →
      physOk s (n.word 11) (4096 * k) = true → x.heaps.any (fun h => h.index == bits (n.word 10) 40 2) = false →
      virtTaken s c v k = false → heapElsewhere s c (n.word 11 / 4096) k = false → rangeElsewhere s c (n.word 11 / 4096) k = false →
      Ends (.heap r) r s n stOk 0 (fun t => t.mem = s.mem ∧ SMap.find? t.contexts c = some { x with
        heaps := x.heaps ++ [{ index := bits (n.word 10) 40 2, vbase := v, ngran := k, pbase := n.word 11 / 4096 }] })) ∧
    (∀ u i a, ActingOp s r ntRange 5 n → registerEvent s c (n.word 9) = (u, stOk, some (i, a)) →
      Ends (.rangeEvent r) r s n stOk (handleOf u i) (fun t => t.mem = u.mem ∧ SMap.find? t.eventObjs i = some a))

namespace Sys2Proof.Claims

/-- A mailbox request that the front end serves: its launch, its slot's address, its number and its words 1 and 2. -/
def Request (s : State) (launch slot : Nat) (L : Launch) (a req w1 w2 : Nat) : Prop :=
  s.clocked = true ∧ feRuns s = true ∧ s.launch launch = some L ∧ L.aborting = false ∧
    mailRequest s L slot = some (a, req, w1, w2) ∧ bits w1 27 37 = 0 ∧ bits w2 48 16 = 0 ∧ dynamicWin s L (bits w1 2 6) = true ∧
    channelTakes s (a + 32) = true ∧ s.extentPoisoned (a + 32) 8 = false ∧ NoEventWaits s

end Sys2Proof.Claims

/-- R306 to R308: an ALLOC into an empty DYNAMIC window takes the first fit of its heap and shows it in the window; a FREE of a window
that nothing uses empties it and gives the allocation up. Either is answered with word 3 and the signal on DONE. -/
def Obligations.Mailbox : Prop :=
  ∀ s launch (slot : Fin 64) L a req w1 w2, Request s launch slot L a req w1 w2 → let win := bits w1 2 6
    (∀ v h off u i, let k := (bits w2 0 48 + 4095) / 4096
      let perm := bits w1 15 3
      let mattr := bits w1 19 8
      bits w1 0 2 = 1 → 0 < bits w2 0 48 → 12 ≤ bits w1 10 5 → bits w1 10 5 ≤ 21 → bits mattr 3 5 = 0 →
      (SMap.find? s.contexts L.context).bind (fun c => c.heaps.find? (fun h => h.index == bits w1 8 2)) = some h →
      L.windows[win]? = some v → v.bound = 0 → s.retired = [] →
      firstFit h (heapTaken s L.context h) k (2 ^ (bits w1 10 5 - 12)) = some off →
      addRange s { context := L.context, vbase := h.vbase + off, ngran := k, perm := perm, mattr := mattr, pbase := h.pbase + off
                   object := 0, heap := some h.index } true = .ok (u, i) →
      ∃ t L', exec (.mailboxAlloc launch slot) s = .next t ∧ t.launch launch = some L' ∧
        L'.windows[win]? = some {
          base := 4096 * (h.pbase + off), bound := 4096 * k, r := Nat.testBit perm 0, w := Nat.testBit perm 1, a := Nat.testBit perm 2
          policy := mattrPolicy mattr, near := mattrNear mattr, range := i } ∧
        t.readLE (a + 24) 8 = (i * 2 ^ 16 + objGen u i * 2 ^ 32) % 2 ^ 64 ∧ t.readLE (a + 32) 8 = req) ∧
    (∀ v, bits w1 0 2 = 2 → L.windows[win]? = some v → v.bound ≠ 0 → winInUse s L win v = false → v.range < 65536 →
      ∃ t L', exec (.mailboxFree launch slot) s = .next t ∧ t.launch launch = some L' ∧ L'.windows[win]? = some {} ∧
        (∀ x ∈ t.allocs, x.object ≠ v.range) ∧
        t.readLE (a + 24) 8 = (v.range * 2 ^ 16 + objGen s v.range * 2 ^ 32) % 2 ^ 64 ∧ t.readLE (a + 32) 8 = req)

/-- R18, R19: a shutdown of an ON region, not the last one and without a realign pair, makes it wait for its sheets' safe points, and
ends with the region OFF; an enable ends with it ON and its cores' local SRAM zero. -/
def Sys2Proof.Claims.RegionControl : Prop :=
  (∀ s r n g, Acting s r ntRegion n → g = bits (n.word 8) 0 2 → n.progress = 0 →
    (Nat.testBit (n.word 8) 2 = false →
      (s.regionState g = 0 → pairInRegion s g = false → (∃ k, k < 4 ∧ k ≠ g ∧ regionOn s k = true) →
        ∃ t, exec (.regionShutdown r) s = .next t ∧ t.mem = s.mem ∧ t.regionState g = 1 ∧ t.node r = some { n with progress := 1 } ∧
          r ∈ (t.regionJob g).down ∧ ∀ core h, regionOf core = g → h ∈ (t.core core).sheets → h.leaving = true) ∧
      (s.regionState g = 0 → pairInRegion s g = true →
        Ends (.regionShutdown r) r s n stInvalidState 0 (fun t => t.mem = s.mem ∧ t.regs = s.regs)) ∧
      (s.regionState g = 2 → (s.regionJob g).enabling = false →
        Ends (.regionShutdown r) r s n stOk 0 (fun t => t.mem = s.mem ∧ t.regs = s.regs))) ∧
    (Nat.testBit (n.word 8) 2 = true →
      (s.regionState g = 0 → Ends (.regionEnable r) r s n stOk 0 (fun t => t.mem = s.mem ∧ t.regs = s.regs)) ∧
      (s.regionState g ≠ 0 → ∃ t, exec (.regionEnable r) s = .next t ∧ t.mem = s.mem ∧ r ∈ (t.regionJob g).up ∧
        t.node r = some { n with progress := 1 } ∧ (s.regionState g = 2 → (t.regionJob g).enabling = true) ∧
        (s.regionState g = 1 → t.regionState g = 3)))) ∧
  (∀ s (g : Fin 4), s.clocked = true →
    (s.regionState g = 1 ∨ s.regionState g = 3 → regionSheets s g = [] → NoEventWaits s →
      ∃ t, exec (.regionShutdownDone g) s = .next t ∧ t.mem = s.mem ∧ t.regionState g = 2 ∧
        (t.regionJob g).enabling = !(s.regionJob g).up.isEmpty ∧
        ∀ r ∈ (s.regionJob g).down, ∀ n, actNode s r ntRegion = some n → ∃ z, t.node r = some z ∧ z.stage = .acted ∧ z.status = stOk) ∧
    (s.regionState g = 2 → (s.regionJob g).enabling = true → s.memWf = true →
      ∃ t, exec (.regionEnableDone g) s = .next t ∧ t.memWf = true ∧ t.regionState g = 0 ∧
        (∀ core i, core < 192 → regionOf core = g → i < 1048576 → t.byte (sramAddr core i) = 0) ∧
        (∀ a, (∀ core, core < 192 → regionOf core = g → a < sramAddr core 0 ∨ sramAddr core 1048576 ≤ a) → t.byte a = s.byte a) ∧
        (fabricMode s = true → ∀ core i, core < 192 → regionOf core = g → i < 48 → t.counter core i = 0) ∧
        ∀ r ∈ (s.regionJob g).up, ∀ n, actNode s r ntRegion = some n → ∃ z, t.node r = some z ∧ z.stage = .acted ∧ z.status = stOk))

/-- R280, R289, R290: a timed launch that cannot be placed when its time comes is late; a launch that has waited longer than PREEMPT marks
sheets of other contexts' launches of lower priority, and longer than SLICE those of equal priority that have run longer than SLICE; a
forced switch saves a sheet whose trays stand at safe points, and is counted. -/
def Sys2Proof.Claims.LaunchCompetition : Prop :=
  (∀ s r n, s.clocked = true → feRuns s = true → s.node r = some n → n.typ = ntLaunch → n.stage = .waiting → n.readyAt.isSome = true →
    n.word 13 ≠ 0 → s.now ≤ n.word 13 → ∃ t, exec (.timedLaunchDue r) s = .next t ∧ t.mem = s.mem ∧ t.now = n.word 13 ∧
      t.node r = some (if noRoom (s.pass (n.word 13 - s.now)) r then { n with late := true } else n)) ∧
  (∀ s r victims ctx sheets since, s.clocked = true → feRuns s = true → waitingLaunch s r = some (ctx, sheets, since) →
    ((victims.map (fun (v : Nat × Nat) => v.1)).eraseDups).length ≤ sheets →
    (∃ t, exec (.preemptTimeout r victims) s = .next t ∧ t.mem = s.mem ∧ t.now = max s.now (since + 1000 * s.rget Fld.FE_SCHED_PREEMPT) ∧
      ∀ core h L, h ∈ (s.core core).sheets → (core, h.uid) ∈ victims → s.launch h.launch = some L → L.context ≠ ctx →
        prioOf s L.queue < prioOf s r.queue → { h with leaving := true } ∈ (t.core core).sheets) ∧
    ∃ t, exec (.sliceTimeout r victims) s = .next t ∧ t.mem = s.mem ∧ t.now = max s.now (since + 1000 * s.rget Fld.FE_SCHED_SLICE) ∧
      ∀ core h L, h ∈ (s.core core).sheets → (core, h.uid) ∈ victims → s.launch h.launch = some L → L.context ≠ ctx →
        prioOf s L.queue = prioOf s r.queue → L.started + 1000 * s.rget Fld.FE_SCHED_SLICE < t.now →
        { h with leaving := true } ∈ (t.core core).sheets) ∧
  (∀ s r core h L, s.clocked = true → feRuns s = true → outgoing s = [(core, h)] → sheetQuiet s core h = true →
    s.launch h.launch = some L → L.gang = false → fabricMode s = false → (s.node r).bind (fun n => s.launch n.launch) = none →
    ∃ t L' v, exec (.contextSwitchForced r []) s = .next t ∧ t.launch h.launch = some L' ∧ L'.saved = L.saved ++ [v] ∧
      v.sheet.uid = h.uid ∧ v.core = core ∧ (∀ g ∈ (t.core core).sheets, g.uid ≠ h.uid) ∧
      (∀ slot y, s.tray core slot = some y → y.sheet = h.uid → t.tray core slot = none ∧
        ∃ z, SMap.find? v.trays slot = some z ∧ z.regs = y.regs ∧ z.preds = y.preds ∧ z.live = y.live) ∧
      t.rget Fld.FE_SWITCH_STATS_FORCED = min (s.rget Fld.FE_SWITCH_STATS_FORCED + 1) (2 ^ Fld.FE_SWITCH_STATS_FORCED.len - 1))

namespace Sys2Proof.Claims

/-- The state of a link after a command that finds it in `st` (R312): 1 DISABLE, 2 ENABLE, 3 RETRAIN, 4 ACK_PEER. -/
def linkNext (cmd st : Nat) : Nat :=
  match cmd, st with
  | 1, 1 => 4
  | 1, 2 => 4
  | 1, 3 => 4
  | 1, 5 => 0
  | 2, 0 => 1
  | 2, 5 => 1
  | 3, 2 => 3
  | _, st => st

/-- The link's state is `st`; the other links' states and memory are as they were. -/
def LinkIn (n st : Nat) (s t : State) : Prop :=
  t.lkState n = st ∧ t.mem = s.mem ∧ ∀ m, m < 48 → m ≠ n → t.lkState m = s.lkState m

/-- A link's event that writes a record: it stands in the error log, and no other byte of memory has changed. -/
def Recorded (s t : State) : Prop :=
  t.nextErr = (s.nextErr + 1) % 2 ^ 64 ∧ ∀ a, (a < errSlot s s.nextErr ∨ errSlot s s.nextErr + 128 ≤ a) → t.byte a = s.byte a

/-- A counter field that saturates at its largest value has counted one (R12). -/
def Bumped (f : Fld) (inst copy : Nat) (s t : State) : Prop :=
  t.rget f inst copy = min (s.rget f inst copy + 1) (2 ^ f.len - 1)

/-- How long a wait for a due time takes machine time to. -/
def Due (at_ : Nat) (s t : State) : Prop := t.now = max s.now at_

end Sys2Proof.Claims

/-- R312, R313, R315, R316, R318: LINK_CONTROL nodes command a link, give the device its ID while no slot and no export is in use, and
load route entries in ascending order. -/
def Obligations.LinkNodes : Prop :=
  ∀ s r n,
    (∀ e ∈ [(Instr.linkDisable r, 1), (.linkEnable r, 2), (.linkRetrain r, 3), (.ackPeer r, 4)],
      ActingOp s r ntLink e.2 n → s.el.out = [] → let k := bits (n.word 8) 4 6
      k < 48 → Ends e.1 r s n stOk 0 (fun t => LinkIn k (linkNext e.2 (s.lkState k)) s t ∧
        (e.2 = 2 → s.lkState k = 4 → t.flag Fld.EL_LINK_STATUS_PENDING 0 k = true) ∧
        (e.2 = 3 → s.lkState k = 2 → Bumped Fld.EL_LINK_ERRORS_RETRAINS 0 k s t) ∧
        (e.2 = 4 → t.flag Fld.EL_LINK_STATUS_HELD 0 k = false ∧
          (t.link k).acked = some (s.rget Fld.EL_LINK_PEER_SERIAL 0 k, s.rget Fld.EL_LINK_STATUS_PEER_LINK 0 k)))) ∧
    (ActingOp s r ntLink 5 n →
      ((∃ j, j < 64 ∧ (jsState s j ≠ 0 ∨ expValid s j = true)) →
        Ends (.setId r) r s n stInvalidState 0 (fun t => t.regs = s.regs ∧ t.mem = s.mem)) ∧
      ((∀ j, j < 64 → jsState s j = 0 ∧ expValid s j = false) → Ends (.setId r) r s n stOk 0 (fun t => t.mem = s.mem ∧
        ownId t = bits (n.word 8) 16 16 ∧ t.flag Fld.EL_DEVICE_ID_ASSIGNED = true))) ∧
    (let a := n.phys.getD 0 0
     let first := bits (n.word 10) 0 16
     let count := bits (n.word 10) 16 17
     ActingOp s r ntLink 6 n → 0 < count → isHost a = false → extentReady s a (8 * count) = true →
     (agentRead s a (8 * count)).2.2 = true →
      Ends (.routeLoad r) r s n stOk 0 (fun t => t.mem = s.mem ∧
        (∀ i, i < count → SMap.get t.el.routes (first + i) 0 = s.readLE (a + 8 * i) 8) ∧
        ∀ d, (d < first ∨ first + count ≤ d) → SMap.get t.el.routes d 0 = SMap.get s.el.routes d 0))

/-- R310, R311: a frame that cannot be corrected gets a NAK; a good one in sequence is acknowledged, and what it acknowledges is no
longer kept; without progress for 10 us the link retrains. A lane that loses lock retrains while the other carries the link; its failure
is shown and retried each second. -/
def Sys2Proof.Claims.LinkFrames : Prop :=
  ∀ s (n : Fin 48), s.clocked = true →
    (∀ seq corrected l0 l1 ack, s.lkState n = 2 ∨ s.lkState n = 4 →
      (∃ t, exec (.frameReceive n seq corrected l0 l1 true ack none) s = .next t ∧ t.mem = s.mem ∧
        t.sent = s.sent ++ [.linkAck n seq.toNat true] ∧ (t.link n).rx = (s.link n).rx ∧ (t.link n).sent = (s.link n).sent) ∧
      ∃ t, exec (.frameReceive n seq corrected l0 l1 false ack none) s = .next t ∧ t.mem = s.mem ∧
        t.sent = s.sent ++ (if seq.toNat = (s.link n).rx then [.linkAck n seq.toNat false] else []) ∧
        (t.link n).rx = (if seq.toNat = (s.link n).rx then ((s.link n).rx + 1) % 4096 else (s.link n).rx) ∧
        (t.link n).sent = (s.link n).sent.filter (fun f => !(decide ((ack.toNat + 4096 - f.seq) % 4096 < 2048)))) ∧
    (s.lkState n = 2 → (s.link n).sent ≠ [] → ∃ t, exec (.linkAckTimeout n) s = .next t ∧ LinkIn n 3 s t ∧
      Due ((s.link n).ackAt + 10000) s t ∧ Bumped Fld.EL_LINK_ERRORS_RETRAINS 0 n s t) ∧
    (∀ lane : Fin 2, s.lkState n = 2 → (s.link n).lane = none →
      s.flag (if lane.val = 0 then Fld.EL_LINK_STATUS_LANE0_FAILED else Fld.EL_LINK_STATUS_LANE1_FAILED) 0 n = false →
      (lanesLeft s n = 2 → ∃ t, exec (.laneRetrainTrigger n lane true) s = .next t ∧ LinkIn n 2 s t ∧
        (t.link n).lane = some lane.val ∧ t.rget Fld.EL_LINK_STATUS_WIDTH 0 n = 1 ∧
        t.flag Fld.EL_LINK_STATUS_LANE_RETRAIN 0 n = true ∧ Bumped Fld.EL_LINK_ERRORS_LANE_RETRAINS 0 n s t) ∧
      (lanesLeft s n ≠ 2 → ∃ t, exec (.laneRetrainTrigger n lane true) s = .next t ∧ LinkIn n 3 s t)) ∧
    (∀ lane pass, (s.link n).lane = some lane → s.lkState n = 2 → ∃ t, exec (.laneRetrainDone n pass) s = .next t ∧
      (t.link n).lane = none ∧ t.flag Fld.EL_LINK_STATUS_LANE_RETRAIN 0 n = false ∧
      t.flag (if lane = 0 then Fld.EL_LINK_STATUS_LANE0_FAILED else Fld.EL_LINK_STATUS_LANE1_FAILED) 0 n = !pass ∧
      t.rget Fld.EL_LINK_STATUS_WIDTH 0 n = lanesLeft t n ∧ t.lkState n = 2 ∧ Recorded s t) ∧
    (s.lkState n = 2 → (s.link n).lane = none → s.flag Fld.EL_LINK_STATUS_LANE0_FAILED 0 n = true →
      ∃ t, exec (.laneRetryTimer n) s = .next t ∧ LinkIn n 2 s t ∧ (t.link n).lane = some 0 ∧
        t.rget Fld.EL_LINK_STATUS_WIDTH 0 n = s.rget Fld.EL_LINK_STATUS_WIDTH 0 n)

/-- R312, R314, R315, R321: training ends UP with the lanes that passed or FAILED without one; a FAILED link is trained again; a drained
one is DISABLED, or trains when an ENABLE was held. DISCOVER goes out on an UP link and one that arrives shows the peer, and holds the
link where the peer is not the one last acknowledged; a packet that has waited 50 us is dropped. -/
def Sys2Proof.Claims.LinkStates : Prop :=
  ∀ s (n : Fin 48), s.clocked = true →
    (∀ (lanes : BitVec 2) d, s.lkState n = 1 →
      (lanes = 0 → ∃ t, exec (.linkTrainingDone n lanes d) s = .next t ∧ t.lkState n = 5 ∧ Recorded s t) ∧
      (lanes ≠ 0 → ∃ t, exec (.linkTrainingDone n lanes d) s = .next t ∧ t.lkState n = 2 ∧
        t.rget Fld.EL_LINK_STATUS_WIDTH 0 n = bits lanes.toNat 0 1 + bits lanes.toNat 1 1 ∧
        t.rget Fld.EL_LINK_STATUS_PEER_ID 0 n = d.id.toNat)) ∧
    (s.lkState n = 5 → ∃ t, exec (.linkRetryTimer n) s = .next t ∧ LinkIn n 1 s t) ∧
    (s.lkState n = 4 → ∃ t, exec (.linkDrainEnd n) s = .next t ∧
      LinkIn n (if s.flag Fld.EL_LINK_STATUS_PENDING 0 n then 1 else 0) s t ∧ t.flag Fld.EL_LINK_STATUS_PENDING 0 n = false) ∧
    (s.lkState n = 2 → ∃ t, exec (.discoverTimer n) s = .next t ∧ t.mem = s.mem ∧ t.regs = s.regs ∧
      t.sent = s.sent ++ [.discover n (ownDiscovery s n)]) ∧
    (∀ d, s.lkState n = 2 → (d.assigned && s.flag Fld.EL_DEVICE_ID_ASSIGNED && decide (d.id.toNat = ownId s)) = false →
      ∃ t, exec (.discover n d) s = .next t ∧ LinkIn n 2 s t ∧ t.rget Fld.EL_LINK_PEER_SERIAL 0 n = d.serial.toNat ∧
        t.rget Fld.EL_LINK_STATUS_PEER_LINK 0 n = d.link.toNat ∧ t.rget Fld.EL_LINK_STATUS_PEER_ID 0 n = d.id.toNat ∧
        t.flag Fld.EL_LINK_STATUS_HELD 0 n =
          (s.flag Fld.EL_LINK_STATUS_HELD 0 n || decide ((s.link n).acked ≠ some (d.serial.toNat, d.link.toNat)))) ∧
    (∀ k f, (s.link n).sent[k]? = some f → ∃ t, exec (.packetAgeTimeout n k) s = .next t ∧ LinkIn n (s.lkState n) s t ∧
      Due (f.since + 50000) s t ∧ (t.link n).sent = (s.link n).sent.filter (fun g => g.seq != f.seq) ∧
      Bumped Fld.EL_STATS_DROPPED 0 0 s t)

/-- R31, R341, R342: a fabric-synced device asks its upstream each period; a neighbour is answered; an answer sets DIST and FAR, and
moves machine time only where it is usable. -/
def Sys2Proof.Claims.TimeSync : Prop :=
  ∀ s, s.clocked = true →
    (usesFabric s = true → s.lkState (s.rget Fld.MT_UPSTREAM_LINK) = 2 → ∃ t, exec .tsyncPeriod s = .next t ∧ t.mem = s.mem ∧
      t.regs = s.regs ∧ t.mt.req = some (s.rget Fld.MT_UPSTREAM_LINK, now16 s) ∧
      t.sent = s.sent ++ [.tsyncReq (s.rget Fld.MT_UPSTREAM_LINK) (now16 s)]) ∧
    (∀ (n : Fin 48) t1, s.lkState n = 2 → ∃ t, exec (.tsyncReq n t1) s = .next t ∧ t.mem = s.mem ∧ t.regs = s.regs ∧
      t.sent = s.sent ++ [.tsyncRsp n t1.toNat (now16 s) (now16 s) (ownDist s) (decide (s.mtState = 3))]) ∧
    (∀ (n : Fin 48) t1 t2 t3 dist locked, s.mt.req = some (n.val, t1) → s.lkState n = 2 →
      ∃ t, exec (.tsyncRsp n t2 t3 dist locked) s = .next t ∧ t.mt.req = none ∧
        t.rget Fld.EL_TSYNC_STATUS_DIST = min 15 (dist.toNat + 1) ∧ t.flag Fld.EL_TSYNC_STATUS_FAR = decide (8 < min 15 (dist.toNat + 1)) ∧
        t.flag Fld.EL_TSYNC_STATUS_UPSTREAM_LOCKED = locked ∧
        (locked = false → t.now = s.now ∧ t.nowFrac = s.nowFrac ∧ t.mtState = s.mtState ∧ t.mem = s.mem) ∧
        (locked = true → usesFabric s = true → t.flag Fld.MT_STATUS_USING_FABRIC = true))

/-- R27, R29, R30, R32: privileged writes set or step machine time while it is steppable, and choose and enable its source; from a user
queue they change nothing. -/
def Sys2Proof.Claims.TimeWrites : Prop :=
  ∀ s v, s.clocked = true →
    (∀ i ∈ [Instr.mtSet false v, .mtStep false v, .mtCtrlWrite false v, .mtUpstreamWrite false v, .mtFreqTrimWrite false v],
      ∃ t, exec i s = .next t ∧ t.status = stPrivilege ∧ t.regs = s.regs ∧ t.now = s.now ∧ t.nowFrac = s.nowFrac) ∧
    (mtSteppable s = false → ∀ i ∈ [Instr.mtSet true v, .mtStep true v],
      ∃ t, exec i s = .next t ∧ t.status = stInvalidState ∧ t.regs = s.regs ∧ t.now = s.now) ∧
    (mtSteppable s = true →
      (∃ t, exec (.mtSet true v) s = .next t ∧ t.status = stOk ∧ t.now = v.toNat ∧ t.nowFrac = 0 ∧ t.mem = s.mem ∧
        t.mtState = (if s.mtState = 0 then 1 else s.mtState)) ∧
      (0 ≤ (s.now : Int) + v.toInt → (s.now : Int) + v.toInt < 2 ^ 64 → ∃ t, exec (.mtStep true v) s = .next t ∧ t.status = stOk ∧
        (t.now : Int) = s.now + v.toInt ∧ t.nowFrac = s.nowFrac ∧ t.mtState = s.mtState) ∧
      ((s.now : Int) + v.toInt < 0 ∨ 2 ^ 64 ≤ (s.now : Int) + v.toInt → ∃ t, exec (.mtStep true v) s = .next t ∧
        t.status = stInvalidArgument ∧ t.now = s.now ∧ t.regs = s.regs)) ∧
    (let source := bits v.toNat 0 2
     let enable := bits v.toNat 2 1
     (source = 2 → s.flag Fld.MT_UPSTREAM_VALID = false →
       ∃ t, exec (.mtCtrlWrite true v) s = .next t ∧ t.status = stInvalidState ∧ t.regs = s.regs) ∧
     ((source = 2 → s.flag Fld.MT_UPSTREAM_VALID = true) → ∃ t, exec (.mtCtrlWrite true v) s = .next t ∧ t.status = stOk ∧
       t.rget Fld.MT_CTRL_SOURCE = source ∧ t.rget Fld.MT_CTRL_ENABLE = enable ∧ t.now = s.now ∧ t.mem = s.mem ∧
       (enable = 0 ∨ source = 0 → 2 ≤ s.mtState → t.mtState = 1 ∧ t.mt.phase = 0) ∧
       (enable = 1 → source ≠ 0 → s.flag Fld.MT_CTRL_ENABLE = false → s.mtState ≤ 1 → t.mtState = 2))) ∧
    (48 ≤ bits v.toNat 0 6 → ∃ t, exec (.mtUpstreamWrite true v) s = .next t ∧ t.status = stInvalidArgument ∧ t.regs = s.regs) ∧
    (bits v.toNat 0 6 < 48 → ∃ t, exec (.mtUpstreamWrite true v) s = .next t ∧ t.status = stOk ∧ t.now = s.now ∧
      t.rget Fld.MT_UPSTREAM_LINK = bits v.toNat 0 6 ∧ t.rget Fld.MT_UPSTREAM_VALID = bits v.toNat 6 1) ∧
    (∃ t, exec (.mtFreqTrimWrite true v) s = .next t ∧ t.status = stOk ∧ t.now = s.now ∧
      t.rget Fld.MT_FREQ_TRIM_TRIM = v.toNat % 2 ^ 32 ∧
      signedOf 32 (t.rget Fld.MT_RATE_RATE) = max (-128000000) (min 128000000 (signedOf 32 (v.toNat % 2 ^ 32) + s.mt.phase)))

/-- R30, R33, R35: an edge too short or too soon is a glitch; an accepted one is captured, and where machine time may be stepped the
first sample in ACQUIRING steps it to the nearest whole second. A missed sample drops phase_trim and takes LOCKED to HOLDOVER; the end of
holdover is FAULT, with its record. -/
def Sys2Proof.Claims.TimeEvents : Prop :=
  ∀ s, s.clocked = true →
    (∀ low high, (low < 2000 ∨ high < 2000 ∨ ∃ e, s.mt.lastEdge = some e ∧ s.now - e < 500000000) →
      ∃ t, exec (.timePpsEdge low high) s = .next t ∧ t.now = s.now ∧ t.mtState = s.mtState ∧ Bumped Fld.MT_PPS_GLITCH_COUNT 0 0 s t) ∧
    (∀ low high, 2000 ≤ low → 2000 ≤ high → (∀ e, s.mt.lastEdge = some e → 500000000 ≤ s.now - e) → s.now < 2 ^ 63 →
      (usesPps s = false → ∃ t, exec (.timePpsEdge low high) s = .next t ∧ t.now = s.now ∧ t.mtState = s.mtState ∧
        t.rget Fld.MT_PPS_CAPTURE_COUNT = s.now ∧ t.mt.lastEdge = some s.now) ∧
      (usesPps s = true → s.mtState = 2 → s.mt.first = true → s.flag Fld.MT_STATUS_STEPPABLE = true → s.nowFrac < 2 ^ 32 →
        ∃ t, exec (.timePpsEdge low high) s = .next t ∧ t.now = (s.now + 500000000) / 1000000000 * 1000000000 ∧
          t.nowFrac = s.nowFrac)) ∧
    (2 ≤ s.mtState → ∃ t, exec .mtSampleMissed s = .next t ∧ t.mem = s.mem ∧ t.mt.phase = 0 ∧
      Due (s.mt.lastSample + mtPeriod s * 11 / 10) s t ∧ t.mtState = (if s.mtState = 3 then 4 else s.mtState)) ∧
    (s.mtState = 4 → ∃ t, exec .mtHoldoverExpire s = .next t ∧ t.mtState = 5 ∧ t.flag Fld.MT_STATUS_FAULT_SEEN = true ∧
      Due (s.mt.holdSince + s.rget Fld.MT_HOLDOVER_LIMIT_LIMIT + 1) s t ∧ Recorded s t)

/-- R330, R336, R337: JOIN of a FREE slot makes it ACTIVE with the job set, epoch, context and flood links given; LEAVE of a slot whose
operations have completed makes it FREE and removes its exports; EXPORT shows a translated argument and UNEXPORT removes it; CLEAR takes
an ABORTED slot into a new epoch; each refuses a slot or an export in the wrong state. -/
def Sys2Proof.Claims.JobSetNodes : Prop :=
  ∀ s r n, let w := n.word 8
    let j := bits w 4 6
    let e := bits w 41 6
    (ActingOp s r ntJobSet 1 n → n.progress = 0 →
      (s.flag Fld.EL_DEVICE_ID_ASSIGNED = false ∨ jsState s j = 1 ∨ jsState s j = 2 →
        Ends (.join r) r s n stInvalidState 0 (fun t => t.regs = s.regs)) ∧
      (s.flag Fld.EL_DEVICE_ID_ASSIGNED = true → jsState s j = 0 →
        ((bits w 16 16 = 65535 ∨ jobsetElsewhere s (bits w 16 16) j = true) →
          Ends (.join r) r s n stInvalidArgument 0 (fun t => t.regs = s.regs)) ∧
        (bits w 16 16 ≠ 65535 → jobsetElsewhere s (bits w 16 16) j = false →
          (bits w 40 1 = 1 → memberElsewhere s (bits w 10 6) j = false ∧ contextLive s (bits w 10 6) = true) →
          Ends (.join r) r s n stOk 0 (fun t => t.mem = s.mem ∧ jsState t j = 1 ∧ t.rget Fld.EL_JOBSET_JOBSET 0 j = bits w 16 16 ∧
            t.rget Fld.EL_JOBSET_EPOCH 0 j = bits w 32 8 ∧ jsMember t j = decide (bits w 40 1 = 1) ∧
            t.rget Fld.EL_JOBSET_CONTEXT 0 j = bits w 10 6 ∧ t.rget Fld.EL_JOBSET_FLOOD_LINKS 0 j = bits (n.word 9) 0 48)))) ∧
    (ActingOp s r ntJobSet 2 n →
      (jsState s j = 0 → Ends (.leave r) r s n stInvalidState 0 (fun t => t.regs = s.regs)) ∧
      (jsState s j = 1 ∨ jsState s j = 2 → s.el.ops.all (fun o => o.2.jslot != j) = true → SMap.find? s.el.joins j = none →
        Ends (.leave r) r s n stOk 0 (fun t => t.mem = s.mem ∧ jsState t j = 0 ∧
          ∀ x, x < 64 → expValid t x = (expValid s x && (expOpen s x || decide (s.rget Fld.EL_EXPORT_BASE_SLOT 0 x ≠ j)))))) ∧
    (ActingOp s r ntJobSet 3 n →
      (expValid s e = true → Ends (.jsExport r) r s n stInvalidState 0 (fun t => t.regs = s.regs)) ∧
      (∀ v objs, expValid s e = false → (bits w 47 1 = 0 → jsState s j ≠ 0) → argKind (n.word 11) = 0 →
        argRange (n.word 10) (n.word 11) = true →
        buildWindow s (s.rget Fld.EL_JOBSET_CONTEXT 0 j) (n.word 10) (n.word 11) = some (v, objs) → v.base < 2 ^ 48 →
        Ends (.jsExport r) r s n stOk 0 (fun t => t.mem = s.mem ∧ expValid t e = true ∧ expBase t e = v.base ∧
          expBound t e = v.bound ∧ expOpen t e = decide (bits w 47 1 = 1) ∧ t.rget Fld.EL_EXPORT_BASE_SLOT 0 e = j ∧
          t.flag Fld.EL_EXPORT_BASE_R 0 e = v.r ∧ t.flag Fld.EL_EXPORT_BASE_W 0 e = v.w ∧ t.flag Fld.EL_EXPORT_BASE_A 0 e = v.a))) ∧
    (ActingOp s r ntJobSet 4 n →
      (expValid s e = false → Ends (.unexport r) r s n stInvalidState 0 (fun t => t.regs = s.regs)) ∧
      (expValid s e = true → s.el.waiting = [] → Ends (.unexport r) r s n stOk 0 (fun t => t.mem = s.mem ∧ expValid t e = false ∧
        ∀ x, x < 64 → x ≠ e → expValid t x = expValid s x))) ∧
    (ActingOp s r ntJobSet 6 n →
      (jsState s j ≠ 2 → Ends (.clear r) r s n stInvalidState 0 (fun t => t.regs = s.regs)) ∧
      (jsState s j = 2 → s.rget Fld.EL_JOBSET_EPOCH 0 j = bits w 32 8 →
        Ends (.clear r) r s n stInvalidArgument 0 (fun t => t.regs = s.regs)) ∧
      (jsState s j = 2 → s.rget Fld.EL_JOBSET_EPOCH 0 j ≠ bits w 32 8 → Ends (.clear r) r s n stOk 0 (fun t => t.mem = s.mem ∧
        jsState t j = 1 ∧ t.rget Fld.EL_JOBSET_EPOCH 0 j = bits w 32 8)))

namespace Sys2Proof.Claims

/-- The slot holds no operation, and the device is no member: its abort has nothing to stop here. -/
def NoMember (s : State) (j : Nat) : Prop := jsMember s j = false ∧ s.el.ops.all (fun o => o.2.jslot != j) = true

/-- A packet for this device arrives on a link that carries packets, or on the loopback, and its line can be served. -/
def Arrives (s : State) (link : Fin 49) (p : EPkt) : Prop :=
  s.clocked = true ∧ s.domainStopped = false ∧ (link.val = 48 ∨ linkCarries s link = true) ∧ p.dst.toNat = ownId s ∧
    pktWaits s p = false ∧ NoEventWaits s ∧ s.memWf = true ∧ (p.src.toNat = ownId s ∨ (pickSlot s p.src.toNat 63).isSome = true)

/-- The packet is new to the filter, passes the checks of R331 for address `a`, and asks for no target event. -/
def Accepted (s : State) (p : EPkt) (a : Nat) (f : Filter) : Prop :=
  filterPkt (SMap.find? s.el.filters p.src.toNat) p.incarn.toNat p.seq.toNat p.ackDelta.toNat = (some f, .goOn) ∧
    (∃ slot, checkPkt s p = .ok (slot, a)) ∧ bits p.evt.toNat 0 1 = 0

/-- The packet is answered once, with a status, an old value and data. -/
def Answered (s t : State) (p : EPkt) (status old : Nat) (data : BitVec 2048) : Prop :=
  ∃ k q, t.sent = s.sent ++ [.esrel k q] ∧ q.op = 0x1F ∧ q.dst = p.src ∧ q.seq = p.seq ∧ q.status.toNat = status ∧
    q.operand = BitVec.ofNat 64 old ∧ q.payload = data

/-- The filter keeps the packet's status and value. -/
def Kept (t : State) (p : EPkt) (f : Filter) (status old : Nat) : Prop :=
  SMap.find? t.el.filters p.src.toNat = some { f with done := SMap.put f.done p.seq.toNat (status, old) }

/-- The remote atomics of R323, with the operation each performs and whether it returns the old value. -/
noncomputable def remoteAtomics (link : Fin 49) (p : EPkt) : List (Instr × BitVec 5 × AtomOp × Bool) :=
  [(.esrelAdd link p, 0x08, .add, false), (.esrelSmin link p, 0x09, .smin, false), (.esrelSmax link p, 0x0A, .smax, false),
   (.esrelUmin link p, 0x0B, .umin, false), (.esrelUmax link p, 0x0C, .umax, false), (.esrelAnd link p, 0x0D, .and, false),
   (.esrelOr link p, 0x0E, .or, false), (.esrelXor link p, 0x0F, .xor, false), (.swap link p, 0x10, .swap, true),
   (.cas link p, 0x11, .cas, true), (.fetchadd link p, 0x12, .add, true)]

/-- The one packet of an operation that a tray posted, without a source event, is out; nothing else of the port waits. -/
def OneOut (s : State) (e : EOut) (o : EOp) : Prop :=
  s.el.out = [e] ∧ e.sent = true ∧ SMap.find? s.el.ops e.op = some o ∧ o.left = 1 ∧ o.tail = false ∧ o.node = none ∧
    bits o.evt 1 1 = 0 ∧ jsState s o.jslot = 1 ∧ AllSent s ∧ NoEventWaits s ∧ s.memWf = true

end Sys2Proof.Claims

/-- R338, R339: the abort of a job set on a device that is no member puts its slot into ABORTED and writes its record; it acts once. -/
def Sys2Proof.Claims.JobAborts : Prop :=
  (∀ s r n, let j := bits (n.word 8) 4 6
    ActingOp s r ntJobSet 5 n →
    (jsState s j ≠ 1 → Ends (.jobSetAbort r) r s n stInvalidState 0 (fun t => t.regs = s.regs)) ∧
    (jsState s j = 1 → NoMember s j → Ends (.jobSetAbort r) r s n stOk 0 (fun t => jsState t j = 2 ∧ Recorded s t))) ∧
  (∀ s (k : Fin 48) p j, s.clocked = true → linkCarries s k = true → slotOf s p.jobset.toNat = some j →
    s.rget Fld.EL_JOBSET_EPOCH 0 j = p.epoch.toNat →
    (jsState s j = 1 → NoMember s j → ∃ t, exec (.abort k p) s = .next t ∧ jsState t j = 2 ∧ Recorded s t) ∧
    (jsState s j ≠ 1 → exec (.abort k p) s = .next s))

/-- R323, R331, R332, R334: a PUT writes its payload, a GET returns the bytes, a SIGNAL sets a word below its value and an atomic performs
its operation on its word, each once: the answer and the filter keep the status and what a fetching atomic found, and no other byte of
memory changes. -/
def Obligations.TargetOperations : Prop :=
  ∀ s (link : Fin 49) p a f,
    (let q := { p with op := 0x01 }
     Arrives s link q → Accepted s q a f → p.poison = 0 → p.len.toNat < 256 →
      ∃ t, exec (.put link p) s = .next t ∧ t.memWf = true ∧ Answered s t p stOk 0 0 ∧ Kept t p f stOk 0 ∧
        t.readLE a (pktBytes q) = p.payload.toNat % 2 ^ (8 * pktBytes q) ∧
        ∀ b, (b < a ∨ a + pktBytes q ≤ b) → t.byte b = s.byte b) ∧
    (let q := { p with op := 0x02 }
     Arrives s link q → Accepted s q a f → p.len.toNat < 256 →
      ∃ t, exec (.get link p) s = .next t ∧ t.mem = s.mem ∧
        Answered s t p stOk 0 (BitVec.ofNat 2048 (s.readLE a (pktBytes q))) ∧ Kept t p f stOk 0) ∧
    (let q := { p with op := 0x03 }
     Arrives s link q → Accepted s q a f → s.extentPoisoned a 8 = false → s.readLE a 8 < p.evalue.toNat →
      ∃ t, exec (.signal link p) s = .next t ∧ t.memWf = true ∧ Answered s t p stOk 0 0 ∧ Kept t p f stOk 0 ∧
        t.readLE a 8 = p.evalue.toNat ∧ ∀ b, (b < a ∨ a + 8 ≤ b) → t.byte b = s.byte b) ∧
    (∀ r ∈ remoteAtomics link p, let q := { p with op := r.2.1 }
      let n := if p.size64 then 8 else 4
      Arrives s link q → Accepted s q a f → s.extentPoisoned a n = false →
      let old := if r.2.2.2 then s.readLE a n else 0
      ∃ t, exec r.1 s = .next t ∧ t.memWf = true ∧ Answered s t p stOk old 0 ∧ Kept t p f stOk old ∧
        t.readLE a n = messageAtomic r.2.2.1 (8 * n) (s.readLE a n) p.operand.toNat p.compare.toNat %
          2 ^ (8 * n) ∧
        ∀ b, (b < a ∨ a + n ≤ b) → t.byte b = s.byte b)

/-- R331, R334: a packet that the filter has seen is answered from its record and performed no more; a stale one is dropped; one whose
checks fail is answered with their status and changes no memory. -/
def Sys2Proof.Claims.ExactlyOnce : Prop :=
  ∀ s (link : Fin 49) p, ∀ r ∈ [(Instr.put link p, (0x01 : BitVec 5)), (.signal link p, 0x03)] ++
      (remoteAtomics link p).map (fun r => (r.1, r.2.1)),
    let q := { p with op := r.2 }
    Arrives s link q →
    let found := filterPkt (SMap.find? s.el.filters p.src.toNat) p.incarn.toNat p.seq.toNat p.ackDelta.toNat
    (∀ f st v, found = (some f, .dup st v) → st < 256 → ∃ t, exec r.1 s = .next t ∧ t.mem = s.mem ∧ Answered s t p st v 0 ∧
      Bumped Fld.EL_STATS_DUPLICATE 0 0 s t) ∧
    (found.2 = .stale → ∃ t, exec r.1 s = .next t ∧ t.mem = s.mem ∧ t.sent = s.sent ∧ Bumped Fld.EL_STATS_DROPPED 0 0 s t) ∧
    (∀ f st, found = (some f, .goOn) → checkPkt s q = .error st → ∃ t, exec r.1 s = .next t ∧ t.mem = s.mem ∧
      Answered s t p st 0 0 ∧ Kept t p f st 0)

/-- R325, R326: RPOST of a descriptor that passes its checks puts its operation into the port and takes a credit; the path goes on. -/
def Sys2Proof.Claims.RemotePost : Prop :=
  ∀ o s x lane, CanIssue o s x → AllSent s → o.srcA.toNat % 16 = 0 → o.srcA.toNat + 16 ≤ x.L.regs → o.dst = 0 → o.srcB = 0 → o.srcC = 0 →
    o.fld 0 7 = 0 → x.clear (x.guards ++ regsOf o.srcA.toNat 16) = true → Mask.lowest x.on = some lane →
    let w := fun i => x.regsVal (o.srcA.toNat + 2 * i) 2 lane
    let op := bits (w 0) 0 5
    let j := bits (w 0) 16 6
    let n := if op = 1 ∨ op = 2 then bits (w 0) 48 16 + 1 else if Nat.testBit (w 0) 7 then 8 else 4
    let v := (x.L.windows[o.fld 7 6]?).getD {}
    (op = 1 ∨ op = 2 ∨ op = 3 ∨ isAtomOp op = true) → bits (w 0) 14 2 = 0 → bits (w 0) 22 10 = 0 → bits (w 1) 48 16 = 0 →
    bits (w 2) 48 16 = 0 → bits (w 5) 54 10 = 0 → bits (w 7) 54 10 = 0 → (op = 3 → bits (w 0) 5 1 = 0) →
    jsState s j = 1 → jsMember s j = true → s.rget Fld.EL_JOBSET_CONTEXT 0 j = x.L.context →
    (isAtomOp op = true → bits (w 1) 0 48 % n = 0) →
    (op = 1 ∨ op = 2 ∨ isFetchOp op = true → bits (w 2) 0 48 + n ≤ v.bound ∧ (if op = 1 then v.r else v.w) = true ∧
      isHost (v.base + bits (w 2) 0 48) = false) →
    (let u := (x.L.windows[bits (w 7) 48 6]?).getD {}
     bits (w 0) 6 1 = 1 → bits (w 7) 0 48 + 8 ≤ u.bound ∧ u.a = true ∧ isHost (u.base + bits (w 7) 0 48) = false ∧
       bits (w 7) 0 48 % 8 = 0) →
    x.released = true → 0 < (s.core o.core).remoteCredits →
    ∃ t y e, exec (.rpost o) s = .next t ∧ t.mem = s.mem ∧ t.tray o.core o.slot = some y ∧ y.regs = x.t.regs ∧ y.preds = x.t.preds ∧
      y.remotes = x.t.remotes + 1 ∧ (t.core o.core).remoteCredits + 1 = (s.core o.core).remoteCredits ∧
      SMap.find? t.el.ops s.el.nextOp = some e ∧ e.op = op ∧ e.jslot = j ∧ e.dst = bits (w 0) 32 16 ∧ e.dwin = bits (w 0) 8 6 ∧
      e.doff = bits (w 1) 0 48 ∧ e.len = n ∧ e.loc = v.base + bits (w 2) 0 48 ∧ e.operand = w 3 ∧ e.compare = w 4 ∧ e.evalue = w 6 ∧
      e.launch = x.L.serial ∧ e.slot = o.slot.val

/-- R326, R327, R335, R340: the last answer ends an operation, gives its credit back, and brings a GET's data into the local window; a
packet without an answer is sent again on another route and given up at last, when its operation fails and its job set is aborted; a
BSIGNAL sets its word on a member. -/
def Sys2Proof.Claims.RemoteEnds : Prop :=
  (∀ s (link : Fin 49) p e o, s.clocked = true → (link.val = 48 ∨ linkCarries s link = true) → p.dst.toNat = ownId s → OneOut s e o →
    e.pkt.dst = p.src → e.pkt.seq = p.seq → p.status.toNat = 0 →
    ∃ t, exec (.rsp link p) s = .next t ∧ SMap.find? t.el.ops e.op = none ∧ t.el.out = [] ∧
      (t.core o.core).remoteCredits = (s.core o.core).remoteCredits + 1 ∧
      (o.op = 1 → t.mem = s.mem) ∧
      (o.op = 2 → o.parts = [] → p.poison = 0 → e.pkt.len.toNat < 256 → let n := e.pkt.len.toNat + 1
        let a := o.loc + (e.pkt.doff.toNat - o.doff)
        t.readLE a n = p.payload.toNat % 2 ^ (8 * n) ∧ t.memWf = true ∧ ∀ b, (b < a ∨ a + n ≤ b) → t.byte b = s.byte b) ∧
      (isFetchOp o.op = true → e.pkt.op ≠ 0x03 → let n := if o.size64 then 8 else 4
        t.readLE o.loc n = p.operand.toNat % 2 ^ (8 * n) ∧ ∀ b, (b < o.loc ∨ o.loc + n ≤ b) → t.byte b = s.byte b)) ∧
  (∀ s k e, s.clocked = true → s.el.out[k]? = some e → e.sent = true → e.link ≠ 48 → timersStand s e = false →
    (e.pkt.dst.toNat ≠ ownId s → (pickSlot s e.pkt.dst.toNat e.link).isSome = true →
      ∃ t n q, exec (.resendTimer k) s = .next t ∧ Due (resendDue s e) s t ∧ t.mem = s.mem ∧ t.sent = s.sent ++ [.esrel n q] ∧
        q.seq = e.pkt.seq ∧ q.dst = e.pkt.dst ∧ q.op = e.pkt.op ∧ q.resend = true ∧ Bumped Fld.EL_STATS_RESENDS 0 0 s t) ∧
    (∀ o, s.el.ops = [(e.op, o)] → o.node = none → jsState s o.jslot = 1 → AllSent s →
      ∃ t, exec (.giveupTimer k) s = .next t ∧ SMap.find? t.el.ops e.op = none ∧ jsState t o.jslot = 2 ∧
        t.now = max s.now (giveupDue s e) ∧ Bumped Fld.EL_STATS_FAILURES 0 0 s t)) ∧
  (∀ s (k : Fin 48) p j slot a, s.clocked = true → s.domainStopped = false → linkCarries s k = true →
    slotOf s p.jobset.toNat = some j → jsState s j = 1 → s.rget Fld.EL_JOBSET_EPOCH 0 j = p.epoch.toNat → jsMember s j = true →
    checkPkt s { p with op := 0x03 } = .ok (slot, a) → s.extentPoisoned a 8 = false → NoEventWaits s → s.memWf = true →
    s.readLE a 8 < p.evalue.toNat →
    ∃ t, exec (.bsignal k p) s = .next t ∧ t.memWf = true ∧ t.readLE a 8 = p.evalue.toNat ∧
      ∀ b, (b < a ∨ a + 8 ≤ b) → t.byte b = s.byte b)

namespace Sys2Proof.Claims

/-- The data slots that a host request carries (R348): HREAD 0, HWRITE its bytes in 16s, HATOMIC 1. -/
def hostSlots (kind : Nat) (q : HostReq) : Nat := if kind = 0 then 0 else if kind = 1 then (q.len.toNat + 1 + 15) / 16 else 1

/-- The bytes that a host request names: LEN + 1, or the width of an atomic. -/
def hostBytes (kind : Nat) (q : HostReq) : Nat := if kind < 2 then q.len.toNat + 1 else if q.size64 then 8 else 4

/-- A host request that is well formed (R347, R348), at a device that answers it. -/
def HostArrives (kind : Nat) (q : HostReq) (s : State) : Prop :=
  s.clocked = true ∧ s.ucState = 2 ∧ s.domainStopped = false ∧ q.rsv = false ∧ q.slots.toNat = hostSlots kind q ∧
    (kind < 2 → q.addr.toNat % 256 + (q.len.toNat + 1) ≤ 256)

/-- Its bytes lie in HBM outside the carve-out (R351), aligned for an atomic, in lines that are free and clean and can be reached. -/
def HostReaches (kind : Nat) (q : HostReq) (s : State) : Prop :=
  HostArrives kind q s ∧ s.uc.held = [] ∧ s.memWf = true ∧ NoEventWaits s ∧ (2 ≤ kind → q.addr.toNat % hostBytes kind q = 0) ∧
    hostPlace s q.addr.toNat (hostBytes kind q) = .hbm ∧ s.extentPoisoned q.addr.toNat (hostBytes kind q) = false ∧
    ∀ l ∈ linesOf q.addr.toNat (hostBytes kind q), LineFree s l ∧ channelRead s l = some s ∧ reloadSource s l = none

/-- The request completes with a status and a value. -/
def HostDone (i : Instr) (q : HostReq) (s : State) (status value : Nat) (P : State → Prop) : Prop :=
  ∃ t, exec i s = .next t ∧ t.sent = s.sent ++ [.hostCpl q.rtag.toNat status value] ∧ P t

/-- Every host command, with its kind. -/
noncomputable def hostRows (q : HostReq) : List (Instr × Nat) :=
  [(.hread q, 0), (.hwrite q, 1), (.hatomicFetchadd q, 2), (.hatomicSwap q, 3), (.hatomicCas q, 4), (.hatomicSignal q, 5)]

/-- Nothing of the device's waits at the port. -/
def PortIdle (s : State) : Prop := AllSent s ∧ s.uc.out = [] ∧ s.uc.waiting = [] ∧ s.uc.outbox = []

/-- The port's state is `st`, and memory is as it was. -/
def PortIn (st : Nat) (s t : State) : Prop := t.ucState = st ∧ t.mem = s.mem

/-- The port's state is `st`, and a record says so. -/
def PortEnds (st : Nat) (s t : State) : Prop := t.ucState = st ∧ Recorded s t

/-- The request that is out under a tag is the one of a node's own action, its last (R353). -/
def BodyOut (s : State) (rtag : BitVec 16) (r : DevReq) (n : NodeRef) (x : Node) : Prop :=
  SMap.find? s.uc.out rtag.toNat = some r ∧ r.src = .body n ∧ s.node n = some x ∧ x.stage = .running ∧ x.aborting = false ∧
    x.waiting = 1 ∧ x.status = 0 ∧ x.typ ≠ ntSignal ∧ x.typ ≠ ntWait ∧ AllSent s

end Sys2Proof.Claims

/-- R348, R351, R352: a host read, write, atomic or signal of device memory completes with OK, its value and its effect; one that the
port refuses completes with its status and changes nothing; a malformed one is discarded and counted; in a domain reset each completes
with TARGET_RESET. -/
def Obligations.HostRequests : Prop :=
  ∀ s q, let a := q.addr.toNat
    (HostReaches 0 q s → HostDone (.hread q) q s stOk (s.readLE a (hostBytes 0 q)) (fun t => t.mem = s.mem)) ∧
    (HostReaches 1 q s → HostDone (.hwrite q) q s stOk 0 (fun t => t.memWf = true ∧
      t.readLE a (hostBytes 1 q) = q.data.toNat % 2 ^ (8 * hostBytes 1 q) ∧
      ∀ b, (b < a ∨ a + hostBytes 1 q ≤ b) → t.byte b = s.byte b)) ∧
    (∀ e ∈ [(Instr.hatomicFetchadd q, 2, AtomOp.add), (.hatomicSwap q, 3, .swap), (.hatomicCas q, 4, .cas)], let n := hostBytes e.2.1 q
      HostReaches e.2.1 q s → HostDone e.1 q s stOk (s.readLE a n) (fun t => t.memWf = true ∧
        t.readLE a n = messageAtomic e.2.2 (8 * n) (s.readLE a n) (bits q.data.toNat 0 64)
          (bits q.data.toNat 64 64) % 2 ^ (8 * n) ∧
        ∀ b, (b < a ∨ a + n ≤ b) → t.byte b = s.byte b)) ∧
    (HostReaches 5 q s → q.size64 = true → let v := q.data.toNat % 2 ^ 64
      (s.readLE a 8 < v → HostDone (.hatomicSignal q) q s stOk (s.readLE a 8) (fun t => t.readLE a 8 = v ∧
        ∀ b, (b < a ∨ a + 8 ≤ b) → t.byte b = s.byte b)) ∧
      (s.readLE a 8 = v → HostDone (.hatomicSignal q) q s stOk (s.readLE a 8) (fun t => t.mem = s.mem ∧
        Bumped Fld.FE_EVENT_STATS_STALE 0 0 s t))) ∧
    ∀ e ∈ hostRows q,
      (HostArrives e.2 q s → hostPlace s a (hostBytes e.2 q) = .other →
        HostDone e.1 q s stInvalidArgument 0 (fun t => t.mem = s.mem ∧ Bumped Fld.UC_STATS_REFUSED 0 0 s t)) ∧
      (HostArrives e.2 q s → hostPlace s a (hostBytes e.2 q) = .table → e.2 ≠ 0 → (e.2 ≠ 2 ∨ q.size64 = true) →
        HostDone e.1 q s stInvalidArgument 0 (fun t => t.mem = s.mem ∧ Bumped Fld.UC_STATS_REFUSED 0 0 s t)) ∧
      (HostArrives e.2 q s → hostPlace s a (hostBytes e.2 q) = .hbm → 2 ≤ e.2 → (e.2 = 5 → q.size64 = true) →
        a % hostBytes e.2 q ≠ 0 → HostDone e.1 q s stMisaligned 0 (fun t => t.mem = s.mem)) ∧
      (s.clocked = true → s.ucState = 2 → q.rsv = true ∨ q.slots.toNat ≠ hostSlots e.2 q →
        ∃ t, exec e.1 s = .next t ∧ t.mem = s.mem ∧ t.sent = s.sent ∧ Bumped Fld.UC_STATS_DISCARDED 0 0 s t) ∧
      (s.clocked = true → s.ucState = 2 → s.domainStopped = true → q.rsv = false → q.slots.toNat = hostSlots e.2 q →
        (e.2 < 2 → a % 256 + (q.len.toNat + 1) ≤ 256) → HostDone e.1 q s stTargetReset 0 (fun t => t.mem = s.mem ∧ t.regs = s.regs))

/-- R348, R349, R355: a completion ends the request whose tag it carries: a write for a node's action ends the action, a failed one
ends it DELIVERY_FAILURE with a record, the node's ERROR if its first, bytes for a mover are kept for it, and one that no request
waits for does nothing; a request without completion in time fails and is counted; returned credits add up. -/
def Sys2Proof.Claims.PortReplies : Prop :=
  ∀ s, s.clocked = true →
    (∀ rtag status slots data, s.ucState = 2 → slots ≤ 16#5 → SMap.find? s.uc.out rtag.toNat = none →
      exec (.dcpl rtag status slots false data) s = .next s) ∧
    (∀ rtag r n x data, BodyOut s rtag r n x → s.ucState = 2 → s.uc.waiting = [] → s.uc.outbox = [] → r.kind = .write →
      (∃ t, exec (.dcpl rtag 0 0 false data) s = .next t ∧ t.mem = s.mem ∧ SMap.find? t.uc.out rtag.toNat = none ∧
        t.node n = some { x with waiting := 0, stage := .acted }) ∧
      ∃ t, exec (.dcpl rtag 1 0 false data) s = .next t ∧ SMap.find? t.uc.out rtag.toNat = none ∧ Recorded s t ∧
        t.node n = some { x.caused s.nextErr with waiting := 0, stage := .acted, status := stDeliveryFailure }) ∧
    (∀ (rtag : BitVec 16) r b data, SMap.find? s.uc.out rtag.toNat = some r → r.src = .mover b → r.kind = .read → r.len ≤ 256 →
      0 < r.len → AllSent s → s.ucState = 2 → s.uc.waiting = [] → s.uc.outbox = [] →
      ∃ t, exec (.dcpl rtag 0 (BitVec.ofNat 5 r.cplSlots) false data) s = .next t ∧ t.mem = s.mem ∧
        (t.mover b).waiting = (s.mover b).waiting - 1 ∧ (t.mover b).failed = (s.mover b).failed ∧
        ∀ i, i < r.len → SMap.get (t.mover b).data (hostBase + r.off + i) 0 = bits data.toNat (8 * i) 8) ∧
    (∀ rtag r n x, BodyOut s rtag r n x → s.uc.waiting = [] → s.uc.outbox = [] → s.recovering = false →
      ∃ t, exec (.ucCplTimeoutExpire rtag) s = .next t ∧ SMap.find? t.uc.out rtag.toNat = none ∧ Recorded s t ∧
        Bumped Fld.UC_STATS_TIMEOUTS 0 0 s t ∧ t.upClock = max s.upClock (r.started + s.rget Fld.UC_CPL_TIMEOUT_NS) ∧
        t.node n = some { x.caused s.nextErr with waiting := 0, stage := .acted, status := stDeliveryFailure }) ∧
    (∀ z d k : BitVec 16, s.ucState = 2 → s.uc.waiting = [] → s.uc.outbox = [] →
      ∃ t, exec (.credit z d k false) s = .next t ∧
        t = { s with uc := { s.uc with zpkt := s.uc.zpkt + z.toNat, dreq := s.uc.dreq + d.toNat, slots := s.uc.slots + k.toNat } }) ∧
    (∀ z d k : BitVec 16, s.ucState = 2 → ∃ t, exec (.credit z d k true) s = .next t ∧ t.uc = s.uc ∧
      Bumped Fld.UC_STATS_DISCARDED 0 0 s t)

/-- R356 to R358: the port's states. A try of training that passes makes it ACTIVE at the rate tried with fresh tags, a failed one is
followed by the next, the last by FAILED; a retrain passes to ACTIVE or, failing the third time, ends FAILED; a failed flit is replayed
and the next after eight replays retrains, as do the partner, a lane repair and RETRAIN; DISABLE, ENABLE and the port's own retry. -/
def Sys2Proof.Claims.PortStates : Prop :=
  ∀ s, s.clocked = true → PortIdle s →
    (∀ qual half partner, s.ucState = 1 →
      (s.uc.attempts ≤ 11 → ∃ t, exec (.ucTrainingDone true true qual half partner) s = .next t ∧ PortIn 2 s t ∧
        t.rget Fld.UC_LINK_STATUS_RATE = 6 - s.uc.attempts / 2 ∧ t.rget Fld.UC_LINK_STATUS_HALF = half.toNat ∧ t.unanswered = [] ∧
        t.rget Fld.UC_PARTNER_VENDOR = bits partner.toNat 0 16 ∧ t.flag Fld.UC_LINK_STATUS_UNQUALIFIED = !qual) ∧
      (s.uc.attempts < 11 → ∃ t, exec (.ucTrainingDone false true qual half partner) s = .next t ∧ PortIn 1 s t ∧
        t.uc.attempts = s.uc.attempts + 1) ∧
      (s.uc.attempts = 11 → ∃ t, exec (.ucTrainingDone false true qual half partner) s = .next t ∧ PortEnds 6 s t ∧
        Bumped Fld.UC_ERRORS_TRAIN_FAILS 0 0 s t) ∧
      (∀ pass, ∃ t, exec (.ucTrainingDone pass false qual half partner) s = .next t ∧ PortEnds 6 s t)) ∧
    (∀ streaming qual half partner, s.ucState = 3 →
      (∃ t, exec (.ucTrainingDone true streaming qual half partner) s = .next t ∧ PortEnds 2 s t ∧ t.unanswered = s.unanswered) ∧
      (s.uc.attempts < 2 → ∃ t, exec (.ucTrainingDone false streaming qual half partner) s = .next t ∧ PortIn 3 s t ∧
        t.uc.attempts = s.uc.attempts + 1) ∧
      (s.uc.attempts = 2 → ∃ t, exec (.ucTrainingDone false streaming qual half partner) s = .next t ∧ PortEnds 6 s t)) ∧
    (s.ucState = 2 →
      (∃ t, exec (.flitReceive true) s = .next t ∧ PortIn 2 s t ∧ t.uc.replays = 0 ∧ t.regs = s.regs) ∧
      (s.uc.replays < 8 → ∃ t, exec (.flitReceive false) s = .next t ∧ PortIn 2 s t ∧ t.uc.replays = s.uc.replays + 1 ∧
        Bumped Fld.UC_ERRORS_CRC 0 0 s t ∧ Bumped Fld.UC_ERRORS_REPLAYS 0 0 s t) ∧
      (s.uc.replays = 8 → ∃ t, exec (.flitReceive false) s = .next t ∧ PortIn 3 s t ∧ t.uc.replays = 0) ∧
      (∀ i ∈ [Instr.sidebandRetrainRequest, .ucRetrain], ∃ t, exec i s = .next t ∧ PortIn 3 s t ∧
        Bumped Fld.UC_ERRORS_RETRAINS 0 0 s t ∧ bits (t.rget Fld.FE_RECOVERY_SOURCES) 4 1 = 1) ∧
      (∀ lanes, ∃ t, exec (.laneRepair lanes) s = .next t ∧ PortIn 3 s t ∧
        t.rget Fld.UC_ERRORS_LANE_REPAIRS = min (s.rget Fld.UC_ERRORS_LANE_REPAIRS + lanes.toNat) (2 ^ 8 - 1))) ∧
    (s.ucState = 1 ∨ s.ucState = 2 ∨ s.ucState = 3 → ∃ t, exec .ucDisable s = .next t ∧ PortIn 4 s t) ∧
    (s.ucState = 6 → ∃ t, exec .ucDisable s = .next t ∧ PortIn 5 s t) ∧
    (s.ucState = 4 → ∃ t, exec .ucEnable s = .next t ∧ PortIn 4 s t ∧ t.flag Fld.UC_LINK_STATUS_PENDING = true) ∧
    (s.ucState = 5 ∨ s.ucState = 6 → ∃ t, exec .ucEnable s = .next t ∧ PortIn 1 s t ∧ t.uc.attempts = 0) ∧
    (s.ucState = 4 → ∃ t, exec .ucDisablingEnd s = .next t ∧
      PortIn (if s.flag Fld.UC_LINK_STATUS_PENDING then 1 else 5) s t ∧ t.flag Fld.UC_LINK_STATUS_PENDING = false) ∧
    (s.ucState = 6 → ∃ t, exec .ucRetryTimer s = .next t ∧ PortIn 1 s t ∧ t.uc.attempts = 0)

namespace Sys2Proof.Claims

/-- The common point and the issue duty are as they were. -/
def SameClock (s t : State) : Prop := t.point = s.point ∧ t.duty = s.duty

/-- The common point has fallen by 1 to 20 steps, or, at the lowest point, the issue duty by one, to no less than 1 (R363, R365). -/
def SteppedDown (s t : State) : Prop :=
  if 0 < s.point then t.point < s.point ∧ s.point ≤ t.point + 20 ∧ t.duty = s.duty
  else t.point = 0 ∧ t.duty = max 1 (s.duty - 1)

/-- PM_CAP of `w` watts may stand (R362): 500 to 1,600 W, above 900 W with LIQUID only. -/
def CapOk (w liquid : Nat) : Prop := 500 ≤ w ∧ w ≤ 1600 ∧ (w ≤ 900 ∨ liquid = 1)

/-- A POWER_POLICY word passes its checks (R378). -/
def PolicyOk (w : Nat) : Prop :=
  (bits w 12 1 = 1 → CapOk (bits w 0 11) (bits w 11 1)) ∧ (bits w 21 1 = 1 → bits w 14 7 ≤ 60) ∧
    (bits w 29 1 = 1 → bits w 22 7 ≤ 60)

/-- A power setting after POWER_POLICY: the word's value where its SET bit is 1. -/
def takes (f : Fld) (set v : Nat) (s t : State) : Prop := t.rget f = if set = 1 then v else s.rget f

end Sys2Proof.Claims

/-- R26, R362, R378: PM_CAP, PM_CLK_MODE and POWER_POLICY are checked; a legal value stands in its register and takes effect at the next
boundary; an illegal one is refused with INVALID_ARGUMENT, a user's write with PRIVILEGE, and changes nothing. -/
def Sys2Proof.Claims.PowerPolicy : Prop :=
  ∀ s, s.clocked = true →
    (∀ v : Word, ∀ i ∈ [Instr.pmCapWrite false v, .pmClkModeWrite false v],
      ∃ t, exec i s = .next t ∧ t.status = stPrivilege ∧ t.regs = s.regs ∧ t.pw = s.pw) ∧
    (∀ v : Word, let w := bits v.toNat 0 11
      let liquid := bits v.toNat 16 1
      (CapOk w liquid → ∃ t, exec (.pmCapWrite true v) s = .next t ∧ t.status = stOk ∧ t.rget Fld.PM_CAP_WATTS = w ∧
        t.rget Fld.PM_CAP_LIQUID = liquid ∧ t.pw = s.pw ∧ t.mem = s.mem) ∧
      (¬ CapOk w liquid → ∃ t, exec (.pmCapWrite true v) s = .next t ∧ t.status = stInvalidArgument ∧ t.regs = s.regs)) ∧
    (∀ v : Word, let point := bits v.toNat 1 7
      (point ≤ 60 → ∃ t, exec (.pmClkModeWrite true v) s = .next t ∧ t.status = stOk ∧ t.rget Fld.PM_CLK_MODE_FIXED = bits v.toNat 0 1 ∧
        t.rget Fld.PM_CLK_MODE_POINT = point ∧ t.pw = s.pw ∧ t.mem = s.mem) ∧
      (60 < point → ∃ t, exec (.pmClkModeWrite true v) s = .next t ∧ t.status = stInvalidArgument ∧ t.regs = s.regs)) ∧
    ∀ r n, Acting s r ntPower n → let w := n.word 8
      (PolicyOk w → Ends (.powerPolicy r) r s n stOk 0 (fun t => t.mem = s.mem ∧ t.pw = s.pw ∧
        takes Fld.PM_CAP_WATTS (bits w 12 1) (bits w 0 11) s t ∧ takes Fld.PM_CAP_LIQUID (bits w 12 1) (bits w 11 1) s t ∧
        takes Fld.PM_CLK_MODE_FIXED (bits w 21 1) (bits w 13 1) s t ∧ takes Fld.PM_CLK_MODE_POINT (bits w 21 1) (bits w 14 7) s t ∧
        takes Fld.PM_LEND_POINT (bits w 29 1) (bits w 22 7) s t)) ∧
      (¬ PolicyOk w → Ends (.powerPolicy r) r s n stInvalidArgument 0 (fun t => t.regs = s.regs))

/-- R362 to R364: a sample moves the clock only where the mean since the last change is above 110 % of the cap, and then down; a
boundary takes the settings, begins a new epoch, and lowers the clock where the mean power is above the cap and no region is lent. -/
def Sys2Proof.Claims.PowerLoop : Prop :=
  ∀ s, s.clocked = true →
    (∀ (total r0 r1 r2 r3 : BitVec 32), ∃ t, exec (.powerSample total r0 r1 r2 r3) s = .next t ∧ t.mem = s.mem ∧
      let m : Mean := { num := s.pw.sum + total.toNat, den := s.pw.count + 1 }
      t.pw.samples = s.pw.samples + 1 ∧
      (s.flag Fld.PM_STATUS_TRIP = true ∨ s.pw.samples = 0 ∨ s.pw.skip = true ∨ above s m 110 = false → SameClock s t) ∧
      (s.flag Fld.PM_STATUS_TRIP = false → 0 < s.pw.samples → s.pw.skip = false → above s m 110 = true → SteppedDown s t)) ∧
    ∃ t, exec .powerEpochBoundary s = .next t ∧ t.mem = s.mem ∧ Due ((s.pw.lastEpoch / 10000 + 1) * 10000) s t ∧
      t.pw.cap = s.rget Fld.PM_CAP_WATTS ∧ t.pw.fixed = s.flag Fld.PM_CLK_MODE_FIXED ∧ t.pw.point = s.rget Fld.PM_CLK_MODE_POINT ∧
      t.pw.lendPoint = s.rget Fld.PM_LEND_POINT ∧ t.pw.lastEpoch = t.now ∧ t.pw.samples = 0 ∧
      (s.flag Fld.PM_STATUS_TRIP = false → 0 < s.pw.samples → 0 < s.pw.count →
        (∀ r, r < 4 → regionLent s r = false ∧ regionLends s r = false) →
        s.point ≤ (if s.flag Fld.PM_CLK_MODE_FIXED then s.rget Fld.PM_CLK_MODE_POINT else 70) →
        s.pw.count * (1000 * s.rget Fld.PM_CAP_WATTS) < s.pw.sum → SteppedDown s t)

/-- R291, R368, R371, R437, R443: an enabled droop detector stretches its region's clock and is counted; a failed regulator is recorded
and holds its region to what its voltage covers; at the end of a window the last-window registers are set and the window's counts start
anew. -/
def Sys2Proof.Claims.DroopAndWindows : Prop :=
  ∀ s, s.clocked = true →
    (∀ d : Fin 96, d.val ∉ s.pw.detOff → ∃ t, exec (.droopDetect d) s = .next t ∧ t.mem = s.mem ∧ SameClock s t ∧
      Bumped Fld.PM_DROOP_STATS_STRETCHES 0 (d.val / 24) s t ∧
      SMap.get t.pw.stretches (d.val / 24) 0 = SMap.get s.pw.stretches (d.val / 24) 0 + 1) ∧
    (∀ (r : Fin 4) requested sensed fault (covers : Fin 71), ∃ t, exec (.avsCommandFail r requested sensed fault covers) s = .next t ∧
      Recorded s t ∧ regionPoint t r ≤ covers ∧ ∀ k, k ≠ r.val → regionPoint t k = regionPoint s k) ∧
    ∀ (measured : BitVec 32) v0 v1 v2 v3, (∀ e ∈ s.queues, e.1 < 1024) →
      ∃ t, exec (.samplingWindowBoundary measured v0 v1 v2 v3 []) s = .next t ∧ t.mem = s.mem ∧
        Due ((s.lastWindow / 1000000 + 1) * 1000000) s t ∧ t.lastWindow = t.now ∧ t.sugar = [] ∧ t.windowNotified = false ∧
        t.windowDecreased = [] ∧ t.rget Fld.PM_ENERGY_WINDOW_MJ = measured.toNat ∧
        t.rget Fld.DB_SAMPLE_SEQ_WINDOWS = (s.rget Fld.DB_SAMPLE_SEQ_WINDOWS + 1) % 2 ^ Fld.DB_SAMPLE_SEQ_WINDOWS.len ∧
        ∀ q : Fin 1024, t.rget Fld.PM_QUEUE_ENERGY_UJ 0 q = 0

/-- R373, R375 to R377: a reading in range that has changed is shown and valid, one out of range invalid; 115 degrees start the trip
hold at the lowest point and duty, with a record; HOT_N is released after its millisecond unless something holds it; an alert counts
from 2 us on, and a shorter pulse is a glitch. -/
def Sys2Proof.Claims.Temperature : Prop :=
  ∀ s, s.clocked = true →
    (∀ (i : Fin 64) (raw : BitVec 12), i.val ∉ s.pw.bad → (∀ v t0, SMap.find? s.pw.seen i = some (v, t0) → v ≠ raw.toNat) →
      let v := signedOf 12 raw.toNat
      ∃ t, exec (.sensorRead i raw) s = .next t ∧ t.rget Fld.TH_SENSOR_TEMP 0 i = raw.toNat ∧
        (-320 ≤ v → v ≤ 1200 → t.flag Fld.TH_SENSOR_VALID 0 i = true) ∧
        (v < -320 ∨ 1200 < v → t.flag Fld.TH_SENSOR_VALID 0 i = false ∧ i.val ∈ t.pw.bad) ∧
        (920 ≤ v → v ≤ 1200 → s.flag Fld.PM_STATUS_TRIP = false → t.flag Fld.PM_STATUS_TRIP = true ∧ t.point = 0 ∧ t.duty = 1 ∧
          Recorded s t)) ∧
    (s.flag Fld.TH_STATUS_HOT_DRIVEN = true → ∃ t, exec .hotHoldExpire s = .next t ∧ t.mem = s.mem ∧
      Due (s.pw.hotSince + 1000000) s t ∧ t.flag Fld.TH_STATUS_HOT_DRIVEN =
        (anyAt s (s.rget Fld.TH_CTRL_HOT) || s.flag Fld.PM_STATUS_TRIP || !(allBelow s (s.rget Fld.TH_CTRL_HOT - 5)))) ∧
    (∀ ns, (ns < 2000 → ∀ i ∈ [Instr.thermAlertAssert ns, .thermAlertDeassert ns], ∃ t, exec i s = .next t ∧ t.mem = s.mem ∧
        SameClock s t ∧ Bumped Fld.TH_GLITCH_ALERT 0 0 s t ∧ t.flag Fld.PM_STATUS_ALERT = s.flag Fld.PM_STATUS_ALERT) ∧
      (2000 ≤ ns → (∃ t, exec (.thermAlertAssert ns) s = .next t ∧ t.mem = s.mem ∧ t.flag Fld.PM_STATUS_ALERT = true) ∧
        ∃ t, exec (.thermAlertDeassert ns) s = .next t ∧ t.mem = s.mem ∧ SameClock s t ∧ t.flag Fld.PM_STATUS_ALERT = false))

namespace Sys2Proof.Claims

/-- A range that a core can write and that is not shared and immutable: its contents do not outlive a domain reset (R234). -/
def losesContents (e : Nat × Range) : Bool :=
  decide (e.2.perm &&& (permW + permA) ≠ 0) && !(mattrImm e.2.mattr) && decide (4096 * e.2.pbase < hostBase)

/-- What the front-end pair runs as after a restart: 0 both, 1 and 2 one alone, 3 neither (R388). -/
def pairMode (fail0 fail1 : Bool) (mode : Nat) : Nat :=
  if fail0 && fail1 then 3 else if fail0 then 2 else if fail1 then 1 else mode

end Sys2Proof.Claims

/-- R386, R388, R391, R234: a silent core is marked offline, with a record, and takes nothing more; a mismatch of the front-end pair
starts its restart, whose end leaves the pair in the mode that the self-tests give, with a record unless both failed; recovery reported
for longer than its limit sets OVERRUN, and a microsecond without clears it; the end of a domain reset leaves no tray, no copy of a line
in any L1, and the bytes of what no core could write. -/
def Obligations.FaultEvents : Prop :=
  ∀ s, s.clocked = true →
    (∀ core : Fin 192, coreOffline s core = false → (s.core core).sheets = [] → ∃ t, exec (.coreSilent core) s = .next t ∧
      Recorded s t ∧ coreOffline t core = true ∧ (t.core core).silent = true ∧ (t.core core).ops = [] ∧ (t.core core).veq = [] ∧
      ∀ c, c < 192 → c ≠ core.val → coreOffline t c = coreOffline s c ∧ t.core c = s.core c) ∧
    (s.rget Fld.FE_PAIR_STATUS_MODE = 0 → bits (s.rget Fld.FE_RECOVERY_SOURCES) 5 1 = 0 →
      (∃ t, exec (.feMismatch []) s = .next t ∧ t.mem = s.mem ∧ bits (t.rget Fld.FE_RECOVERY_SOURCES) 5 1 = 1 ∧ t.feFault = true ∧
        t.feSince = s.now ∧ t.queues = s.queues) ∧
      ∀ r n, s.node r = some n → n.stage = .acted → n.fin = 0 → ∃ t, exec (.feMismatch [r]) s = .next t ∧
        t.node r = some { n with status := stContained } ∧ bits (t.rget Fld.FE_RECOVERY_SOURCES) 5 1 = 1) ∧
    (∀ fail0 fail1, bits (s.rget Fld.FE_RECOVERY_SOURCES) 5 1 = 1 →
      (s.feFault = false → ∃ t, exec (.feRestartDone fail0 fail1) s = .next t ∧ t.mem = s.mem ∧
        bits (t.rget Fld.FE_RECOVERY_SOURCES) 5 1 = 0 ∧ t.rget Fld.FE_PAIR_STATUS_MODE = s.rget Fld.FE_PAIR_STATUS_MODE) ∧
      (s.feFault = true → s.rget Fld.FE_PAIR_STATUS_MODE < 3 → ∃ t, exec (.feRestartDone fail0 fail1) s = .next t ∧
        bits (t.rget Fld.FE_RECOVERY_SOURCES) 5 1 = 0 ∧ t.feFault = false ∧ Bumped Fld.FE_PAIR_STATUS_RESTARTS 0 0 s t ∧
        t.rget Fld.FE_PAIR_STATUS_MODE = pairMode fail0 fail1 (s.rget Fld.FE_PAIR_STATUS_MODE) ∧
        (if fail0 && fail1 then t.mem = s.mem else Recorded s t))) ∧
    (∀ t0, s.recSince = some t0 → s.flag Fld.FE_RECOVERY_OVERRUN = false → ∃ t, exec .recoveryOverrun s = .next t ∧ Recorded s t ∧
      Due (t0 + 1000 * s.rget Fld.FE_RECOVERY_LIMIT_US) s t ∧ t.flag Fld.FE_RECOVERY_OVERRUN = true ∧
      Bumped Fld.FE_RECOVERY_OVERRUNS 0 0 s t) ∧
    (s.flag Fld.FE_RECOVERY_OVERRUN = true → s.rget Fld.FE_RECOVERY_SOURCES = 0 → ∃ t, exec .overrunClear s = .next t ∧
      t.mem = s.mem ∧ Due (s.calmSince + 1000) s t ∧ t.flag Fld.FE_RECOVERY_OVERRUN = false) ∧
    (s.domainStopped = true → s.queues = [] → (∀ j, j < 64 → jsMember s j = false) → s.uc.held = [] → s.el.waiting = [] →
      ∃ t, exec .domainResetDone s = .next t ∧ t.domainStopped = false ∧ t.domainResets = s.domainResets + 1 ∧
        (∀ c k, t.tray c k = none) ∧ (∀ l, (t.line l).l1 = []) ∧
        ∀ a, (∀ e ∈ s.ranges, losesContents e = true → a < 4096 * e.2.pbase ∨ 4096 * (e.2.pbase + e.2.ngran) ≤ a) →
          t.byte a = s.byte a)

namespace Sys2Proof.Claims

/-- Every register but RAILS_UP has its reset value, and the device is held in reset with its memory lost and its store kept (R398). -/
def HeldInReset (rails : Bool) (s t : State) : Prop :=
  t.boot.held = true ∧ t.clocked = false ∧ t.mem = [] ∧ t.store = s.store ∧ t.pending = s.pending ∧ t.sent = s.sent ∧
    t.now = 0 ∧ t.cores = [] ∧ t.launches = [] ∧ t.flag Fld.MC_STATUS_RAILS_UP = rails ∧
    ∀ f inst copy, f.offset inst copy ≠ Fld.MC_STATUS_RAILS_UP.offset 0 0 → t.rget f inst copy = State.reset.rget f inst copy

/-- The store holds no bank, and a valid image in the active slot of every kind. -/
def Bootable (s : State) : Prop := s.store.banks = [] ∧ ∀ k ∈ [1, 2, 3, 4], slotValid s k (s.activeSlot k) = true

/-- The boot has run to its end (R400), with the capacity found, INCARN one higher, the port in training, and nothing in memory. -/
def Booted (i : BootInput) (s t : State) : Prop :=
  t.boot.held = false ∧ t.rget Fld.SP_BOOT_STATUS_STAGE = 8 ∧ t.flag Fld.MC_STATUS_READY = true ∧ t.ucState = 1 ∧
    t.rget Fld.HM_CAPACITY_BYTES = min (i.capacity.toNat / 16384 * 16384) (2 ^ 39) ∧
    t.rget Fld.EL_DEVICE_ID_INCARN = (s.store.incarn + 1) % 2 ^ 16 ∧ t.point = 0

/-- The boot waits for images over the chain (R399, R401). -/
def InRecovery (kinds : Nat) (s t : State) : Prop :=
  t.boot.held = false ∧ t.clocked = false ∧ t.rget Fld.SP_BOOT_STATUS_STAGE = 15 ∧
    t.rget Fld.SP_BOOT_STATUS_RECOVERY_KINDS = kinds ∧ t.rget Fld.EL_DEVICE_ID_INCARN = (s.store.incarn + 1) % 2 ^ 16

/-- The device has been iced by a cause (R425, R426): its clocks stand 2,000 ns after recognition. -/
def Iced (cause : Nat) (s t : State) : Prop :=
  t.clocked = false ∧ t.flag Fld.MC_FREEZE_STATUS_FROZEN = true ∧
    t.rget Fld.MC_FREEZE_STATUS_CAUSE = (s.rget Fld.MC_FREEZE_STATUS_CAUSE ||| cause) ∧ t.rget Fld.MC_FREEZE_TIME_COUNT = s.now % 2 ^ 64 ∧
    t.now = s.now + 2000 ∧ t.mem = s.mem ∧ t.cores = s.cores ∧ t.launches = s.launches

end Sys2Proof.Claims

/-- R398 to R401, R444: power-on, RESET_N low for 2 us, a rail out of range for more than 1 us and the loss of VDD_IO reset the device and
hold it; a shorter pulse does nothing; a release boots it, normally with a valid image of every kind, else into recovery, which the strap
can also ask for. -/
def Obligations.ResetAndBoot : Prop :=
  ∀ s, (∀ i, railsUp s = true → exec (.powerOnReset i) s = .next s) ∧
    (∀ i : BootInput, railsUp s = false → i.pinLow = true → ∃ t, exec (.powerOnReset i) s = .next t ∧ HeldInReset true s t) ∧
    (∀ i : BootInput, railsUp s = false → i.pinLow = false → i.strap ≠ 0 → ∃ t, exec (.powerOnReset i) s = .next t ∧
      InRecovery 15 s t ∧ t.mem = []) ∧
    (∀ i : BootInput, railsUp s = false → i.pinLow = false → i.strap = 0 → Bootable s → ∃ t, exec (.powerOnReset i) s = .next t ∧
      Booted i s t ∧ t.mem = []) ∧
    (∀ ns, ns < 2000 ∨ s.boot.bypass = true → exec (.resetN ns) s = .next s) ∧
    (∀ ns, 2000 ≤ ns → s.boot.bypass = false → ∃ t, exec (.resetN ns) s = .next t ∧ HeldInReset (railsUp s) s t ∧
      t.boot.pinLow = true) ∧
    (∀ i, s.boot.pinLow = false → exec (.resetNRelease i) s = .next s) ∧
    (∀ i : BootInput, s.boot.pinLow = true → railsUp s = true → i.strap ≠ 0 → ∃ t, exec (.resetNRelease i) s = .next t ∧
      InRecovery 15 s t ∧ t.mem = s.mem) ∧
    (∀ i : BootInput, s.boot.pinLow = true → railsUp s = true → i.strap = 0 → Bootable s →
      ∃ t, exec (.resetNRelease i) s = .next t ∧ Booted i s t) ∧
    (∀ i : BootInput, s.boot.pinLow = true → railsUp s = true → i.strap = 0 → (∀ k b, slotValid s k b = false) →
      ∃ t, exec (.resetNRelease i) s = .next t ∧ InRecovery 1 s t) ∧
    (∀ ns, ns ≤ 1000 → exec (.railOutOfRange ns) s = .next s) ∧
    (∀ ns, 1000 < ns → ∃ t, exec (.railOutOfRange ns) s = .next t ∧ HeldInReset false s t) ∧
    ∃ t, exec .vddIoLoss s = .next t ∧ HeldInReset false s t ∧ t.boot.bypass = true

/-- R418, R425, R426: a calibration that is due or started makes its regions BUSY, and its end counts it, with what lies out of its
limits; FREEZE_N low for 2 us ices a device that is neither reset nor off, a second cause is only noted, a shorter pulse is a glitch. -/
def Obligations.CalibrationAndIcing : Prop :=
  ∀ s, (s.clocked = true →
      (∀ r : Fin 4, ∃ t, exec (.calibrationDue r) s = .next t ∧ t.mem = s.mem ∧ Due (SMap.get s.pw.calDue r s.now) s t ∧
        t.rget Fld.PM_CAL_STATUS_BUSY = (s.rget Fld.PM_CAL_STATUS_BUSY ||| 2 ^ r.val) ∧
        SMap.get t.pw.calDue r 0 = SMap.get s.pw.calDue r s.now + 1000000000 * s.rget Fld.PM_CAL_CTRL_PERIOD) ∧
      (∀ regions : BitVec 4, (∃ t, exec (.calibrationStart true regions) s = .next t ∧ t.status = stOk ∧ t.mem = s.mem ∧
          t.rget Fld.PM_CAL_STATUS_BUSY = (s.rget Fld.PM_CAL_STATUS_BUSY ||| regions.toNat)) ∧
        ∃ t, exec (.calibrationStart false regions) s = .next t ∧ t.status = stPrivilege ∧ t.regs = s.regs) ∧
      ∀ (r : Fin 4) monitors (detectors : List (Fin 96)), bits (s.rget Fld.PM_CAL_STATUS_BUSY) r.val 1 = 1 →
        ∃ t, exec (.calibrationDone r monitors [] detectors) s = .next t ∧ t.mem = s.mem ∧
          t.rget Fld.PM_CAL_STATUS_BUSY = s.rget Fld.PM_CAL_STATUS_BUSY - 2 ^ r.val ∧ Bumped Fld.PM_CAL_STATUS_RUNS 0 0 s t ∧
          ∀ d : Fin 96, d.val ∈ t.pw.detOff ↔ d.val ∈ s.pw.detOff ∨ (d ∈ detectors ∧ d.val / 24 = r.val)) ∧
    (∀ ns, ns < 2000 → ∃ t, exec (.freezeN ns) s = .next t ∧ t.mem = s.mem ∧ t.now = s.now ∧ t.clocked = s.clocked ∧
      Bumped Fld.MC_FREEZE_STATUS_GLITCH 0 0 s t) ∧
    ∀ ns, 2000 ≤ ns →
      (freezable s = false → exec (.freezeN ns) s = .next s) ∧
      (freezable s = true → s.flag Fld.MC_FREEZE_STATUS_FROZEN = false → ∃ t, exec (.freezeN ns) s = .next t ∧ Iced 1 s t) ∧
      (freezable s = true → s.flag Fld.MC_FREEZE_STATUS_FROZEN = true → ∃ t, exec (.freezeN ns) s = .next t ∧ t.mem = s.mem ∧
        t.now = s.now ∧ t.rget Fld.MC_FREEZE_STATUS_CAUSE = (s.rget Fld.MC_FREEZE_STATUS_CAUSE ||| 1))

namespace Sys2Proof.Claims

/-- No operation on the store waits for its turn (R413). -/
def NoStoreJobs (s : State) : Prop := s.sp.jobs = []

/-- The node is still running, as it was. -/
def StillRuns (t : State) (r : NodeRef) (n : Node) : Prop := t.node r = some n

end Sys2Proof.Claims

/-- R402, R403, R414 to R417: STAGE puts the image of its address into the inactive slot where it is valid, and leaves that slot empty
where it is not, with the reason; SWITCH makes a valid inactive slot the active one; an image that is not ready in time gives its place
back. The active slot is never touched by STAGE. -/
def Sys2Proof.Claims.Images : Prop :=
  ∀ s r n, NoStoreJobs s → let k := fwKind n
    let a := n.phys.getD 0 0
    let len := bits (n.word 10) 0 32
    let slot := 1 - s.activeSlot k
    (ActingOp s r ntFw 1 n →
      (fwBad n = true → Ends (.stage r) r s n stInvalidArgument 1 (fun t => t.mem = s.mem ∧ t.store = s.store)) ∧
      (fwBad n = false → slotBytes k < len → Ends (.stage r) r s n stInvalidArgument 6 (fun t => t.mem = s.mem ∧
        t.image k slot = [] ∧ t.activeSlot k = s.activeSlot k)) ∧
      (fwBad n = false → len ≤ slotBytes k → isHost a = false → s.extentPoisoned a len = false →
        (∀ l ∈ linesOf a len, channelRead s l = some s) → let img := toBytes len (s.readLE a len)
        let why := imageReason s k img
        Ends (.stage r) r s n (reasonStatus why) why (fun t => t.mem = s.mem ∧ t.activeSlot k = s.activeSlot k ∧
          t.image k slot = (if why = 0 then img else []) ∧
          ∀ b, b ≤ 1 → b ≠ slot → t.image k b = s.image k b))) ∧
    (ActingOp s r ntFw 2 n →
      (fwBad n = true → Ends (.switch r) r s n stInvalidArgument 1 (fun t => t.store = s.store)) ∧
      (fwBad n = false → slotValid s k slot = false → Ends (.switch r) r s n stInvalidState 8 (fun t => t.store = s.store)) ∧
      (fwBad n = false → slotValid s k slot = true → Ends (.switch r) r s n stOk 0 (fun t => t.mem = s.mem ∧ t.activeSlot k = slot ∧
        t.store.slots = s.store.slots ∧ (k = 2 → bits (t.rget Fld.FE_RECOVERY_SOURCES) 5 1 = 1) ∧ (k = 1 → t.sp.tree = none)))) ∧
    ∀ w, s.clocked = true → switchOpen s = some w → s.node w.node = some n →
      Ends .imageReadyTimeout w.node s n stInvalidState 7 (fun t => t.activeSlot w.kind = w.was ∧ t.store.slots = s.store.slots ∧
        t.sp.switching = none ∧ (if w.kind = 2 then Recorded s t else t.mem = s.mem))

/-- R404, R406, R407, R414: COMMIT_SVN raises a kind's fused SVN to its active image's; REVOKE blows a key slot's fuse where no image
uses it; ATTEST signs its report with the next leaf and writes it to its address, or fails when no leaf is left. -/
def Sys2Proof.Claims.FusesAndReports : Prop :=
  ∀ s r n, NoStoreJobs s → let k := fwKind n
    let key := bits (n.word 8) 8 2
    let a := n.phys.getD 0 0
    (ActingOp s r ntFw 3 n → fwBad n = false → Ends (.commitSvn r) r s n stOk 0 (fun t => t.mem = s.mem ∧
      SMap.get t.store.svn k 0 = max (SMap.get s.store.svn k 0) (imgSvn (s.image k (s.activeSlot k))) ∧
      t.store.slots = s.store.slots ∧ ∀ j, j ≠ k → SMap.get t.store.svn j 0 = SMap.get s.store.svn j 0)) ∧
    (ActingOp s r ntFw 4 n →
      ((∃ e ∈ s.store.slots, imgKeySlot e.2 = key) → Ends (.revoke r) r s n stInvalidState 10 (fun t => t.store = s.store)) ∧
      ((∀ e ∈ s.store.slots, imgKeySlot e.2 ≠ key) → Ends (.revoke r) r s n stOk 0 (fun t => t.mem = s.mem ∧
        t.store = { s.store with revoked := s.store.revoked ||| 2 ^ key }))) ∧
    (ActingOp s r ntFw 5 n → n.waiting = 0 →
      (nextLeaf s = none → Ends (.attest r) r s n stInvalidState 9 (fun t => t.mem = s.mem ∧
        t.flag Fld.SP_ATTEST_STATUS_EXHAUSTED = true)) ∧
      (∀ u middle leaf, nextLeaf s = some (u, middle, leaf) → bits (n.word 8) 7 1 = 0 → isHost a = false → NoEventWaits s →
        s.memWf = true → Ends (.attest r) r s n stOk 0 (fun t => t.memWf = true ∧ t.sp.tree = some (middle, leaf + 1) ∧
          (middle < 32768 → s.sp.tree = none → t.store.middle = middle + 1) ∧ Bumped Fld.SP_ATTEST_STATUS_REPORTS 0 0 s t ∧
          t.readLE a 512 = ofBytes (reportBody u n) ∧ ∀ b, (b < a ∨ a + 8192 ≤ b) → t.byte b = s.byte b)))

/-- R409 to R412: STORE_SETTINGS takes its snapshot and its commit begins in the bank not used last, unless the store is worn or a
commit is under way; the commit's end makes that bank the last one, counts it and ends its node; REVERT puts the committed values back
and leaves the retired list. -/
def Sys2Proof.Claims.SettingsStore : Prop :=
  ∀ s r n, NoStoreJobs s →
    (ActingOp s r ntSettings 1 n → s.sp.job = none →
      (100000 ≤ s.store.commits → Ends (.storeSettings r) r s n stInvalidState 0 (fun t => t.store = s.store ∧ t.mem = s.mem)) ∧
      (s.store.commits < 100000 → ∃ t, exec (.storeSettings r) s = .next t ∧ t.mem = s.mem ∧ StillRuns t r n ∧
        t.sp.job = some (snapshot s, some r) ∧ t.flag Fld.ST_STATUS_BUSY = true ∧
        SMap.find? t.store.banks (1 - s.store.last) = none ∧ t.store.commits = s.store.commits ∧
        (s.store.last ≤ 1 → SMap.find? t.store.banks s.store.last = SMap.find? s.store.banks s.store.last))) ∧
    (ActingOp s r ntSettings 1 n → s.sp.job.isSome = true → exec (.storeSettings r) s = .next s) ∧
    (∀ b, s.clocked = true → s.sp.job = some (b, some r) → s.node r = some n → n.stage = .running → n.aborting = false →
      s.store.last ≤ 1 → Ends .settingsCommitDone r s n stOk (s.store.commits + 1) (fun t => t.mem = s.mem ∧ t.sp.job = none ∧
        t.store.last = 1 - s.store.last ∧ SMap.find? t.store.banks (1 - s.store.last) = some b ∧
        t.store.commits = s.store.commits + 1 ∧ t.flag Fld.ST_STATUS_BUSY = false ∧
        t.rget Fld.ST_STATUS_BANK = 1 - s.store.last ∧ t.rget Fld.ST_STATUS_COMMITS = (s.store.commits + 1) % 2 ^ 17 ∧
        (s.store.commits = 99999 → t.flag Fld.ST_STATUS_WORN = true))) ∧
    (ActingOp s r ntSettings 2 n → Ends (.revert r) r s n stOk 0 (fun t => t.mem = s.mem ∧ t.retired = s.retired ∧
      t.store = s.store ∧ ∀ x ∈ persistentRegs, PlainWrite x → writeLegal x (committed s x) = true →
        x.kept t = committed s x &&& keptBits x.map))

namespace Sys2Proof.Claims

/-- A frame of a command reaches this stage whole: its header's code is right (R420), and the stage is not in bypass. -/
def FrameWhole (s : State) (cmd : Nat) (f : Frame) : Prop :=
  s.boot.bypass = false ∧ f.cmd = BitVec.ofNat 4 cmd ∧ f.hcrc = hcrcOf f

/-- It names this device's chain address. -/
def FrameForMe (s : State) (cmd : Nat) (f : Frame) : Prop :=
  FrameWhole s cmd f ∧ f.addr ≠ 0 ∧ f.addr ≠ 255 ∧ f.addr.toNat = s.rget Fld.MC_STATUS_ADDR

/-- The stage passes on `g`; what has changed satisfies `P`. -/
def PassesOn (i : Instr) (s : State) (g : Frame) (P : State → Prop) : Prop :=
  ∃ t, exec i s = .next t ∧ t.sent = s.sent ++ [.chain g] ∧ P t

/-- The commands of the chain with their codes (R422). -/
noncomputable def chainRows (f : Frame) (b : BootInput) : List (Instr × Nat) :=
  [(.nop f, 0), (.enumerate f, 1), (.chainRead .clean f, 2), (.chainWrite false f, 3), (.chainStatus f, 4), (.chainFreeze f, 5),
   (.chainReset b f, 6), (.park f, 7), (.image f, 8), (.imageDone f, 9)]

/-- The state as a stage finds it that has counted a frame for it. -/
def counted (s : State) : State := s.rbump Fld.MC_STATS_FRAMES

/-- The security processor runs, and nothing holds an operation on the store back. -/
def StoreFree (s : State) : Prop := spRuns s = true ∧ s.sp.jobs = [] ∧ s.sp.job = none ∧ switchOpen s = none ∧ s.queues = []

/-- The instruction that the TAP has selected (R433). -/
def Selected (ir : Nat) (s t : State) : Prop := t.chain.ir = ir ∧ t.mem = s.mem ∧ t.now = s.now

end Sys2Proof.Claims

/-- R420 to R424: a frame whose header fails its code is passed on unchanged and counted, and so is one for another device; an addressed
one is counted and acknowledged, and acts: NOP, ENUMERATE, READ of the register before and the start of the next, WRITE, STATUS. -/
def Sys2Proof.Claims.ChainFrames : Prop :=
  ∀ s f b,
    (∀ e ∈ chainRows f b,
      (s.boot.bypass = true → f.cmd = BitVec.ofNat 4 e.2 → PassesOn e.1 s f (fun t => t.regs = s.regs ∧ t.mem = s.mem)) ∧
      (s.boot.bypass = false → f.cmd = BitVec.ofNat 4 e.2 → f.hcrc ≠ hcrcOf f →
        PassesOn e.1 s f (fun t => t.mem = s.mem ∧ Bumped Fld.MC_STATS_HCRC_ERR 0 0 s t)) ∧
      (FrameWhole s e.2 f → f.addr ≠ 255 → f.addr = 0 ∨ f.addr.toNat ≠ s.rget Fld.MC_STATUS_ADDR →
        PassesOn e.1 s f (fun t => t.regs = s.regs ∧ t.mem = s.mem))) ∧
    (FrameForMe s 0 f → PassesOn (.nop f) s { f with ack := true } (fun t => t.regs = (counted s).regs ∧ t.mem = s.mem)) ∧
    (FrameWhole s 1 f → f.addr = 255 → let n := bits f.arg.toNat 0 8
      (0 < n → n < 255 → let g := { f with arg := f.arg + 1 }
        PassesOn (.enumerate f) s { g with hcrc := hcrcOf g } (fun t => t.rget Fld.MC_STATUS_ADDR = n ∧ t.mem = s.mem)) ∧
      (n = 255 → PassesOn (.enumerate f) s f (fun t => t.rget Fld.MC_STATUS_ADDR = 0 ∧ t.flag Fld.MC_STATUS_OVERFLOW = true))) ∧
    (∀ x, FrameForMe s 2 f → regNamed f.arg.toNat = some x → reaches s x = true → isScanData x = false →
      PassesOn (.chainRead .clean f) s
        { (match s.chain.prev with
           | some v => driveData f v.toNat
           | none => { f with err := true }) with ack := true }
        (fun t => t.mem = s.mem ∧ t.chain.prev = some (BitVec.ofNat 64 (regRead (counted s) x).2))) ∧
    (FrameForMe s 3 f →
      (f.dcrc ≠ dcrcOf f → PassesOn (.chainWrite false f) s { f with ack := false } (fun t => t.mem = s.mem ∧
        Bumped Fld.MC_STATS_DCRC_ERR 0 0 s t)) ∧
      (f.dcrc = dcrcOf f → regNamed f.arg.toNat = none → PassesOn (.chainWrite false f) s { f with ack := true, err := true }
        (fun t => t.regs = (counted s).regs)) ∧
      ∀ x, f.dcrc = dcrcOf f → regNamed f.arg.toNat = some x → PlainWrite x → x.gated s = false → writeLegal x f.data.toNat = true →
        (x.unit = 10 ∨ (railsUp s = true ∧ s.flag Fld.MC_FREEZE_STATUS_FROZEN = false ∧ s.boot.held = false)) →
        PassesOn (.chainWrite false f) s { f with ack := true } (fun t => t.mem = s.mem ∧
          x.raw t = x.written true (x.raw (counted s)) f.data.toNat % 2 ^ 64)) ∧
    (∀ x, FrameForMe s 4 f → regNamed (regOffset 10 0 0) = some x →
      PassesOn (.chainStatus f) s { driveData f (x.shown (regShow (counted s) x)) with ack := true } (fun t => t.mem = s.mem))

/-- R398, R422, R425: FREEZE ices the device, or is refused; RESET resets it, and boots it where pin and rails allow; PARK sends links and
port to DISABLING and sets PARKED; IMAGE keeps eight bytes; IMAGE_DONE stages the buffer's image, or, in recovery, gives the boot an
image that it waits for. -/
def Sys2Proof.Claims.ChainActions : Prop :=
  ∀ s f,
    (FrameForMe s 5 f →
      (freezable s = true → s.flag Fld.MC_FREEZE_STATUS_FROZEN = false →
        PassesOn (.chainFreeze f) s { f with ack := true } (Iced 2 s)) ∧
      (freezable s = false → PassesOn (.chainFreeze f) s { f with ack := false } (fun t => t.regs = (counted s).regs ∧ t.now = s.now))) ∧
    (∀ b : BootInput, FrameForMe s 6 f →
      (s.boot.pinLow = true → PassesOn (.chainReset b f) s { f with ack := true } (fun t => t.boot.held = true ∧ t.clocked = false ∧
        t.mem = [] ∧ t.store = s.store ∧ t.now = 0)) ∧
      (s.boot.pinLow = false → railsUp s = true → b.strap ≠ 0 → PassesOn (.chainReset b f) s { f with ack := true } (InRecovery 15 s)) ∧
      (s.boot.pinLow = false → railsUp s = true → b.strap = 0 → Bootable s →
        PassesOn (.chainReset b f) s { f with ack := true } (Booted b s))) ∧
    (FrameForMe s 7 f →
      (spRuns s = false → PassesOn (.park f) s { f with ack := true, err := true } (fun t => t.regs = (counted s).regs)) ∧
      (spRuns s = true → s.sp.job = none → s.el.ops = [] → s.queues = [] → PortIdle s → s.ucState = 2 →
        ∃ t, exec (.park f) s = .next t ∧ t.sent.getLast? = some (.chain { f with ack := true }) ∧ t.flag Fld.MC_STATUS_PARKED = true ∧
          t.mem = s.mem ∧ t.ucState = 4 ∧
          ∀ n, n < 48 → t.lkState n = linkNext 1 (s.lkState n))) ∧
    (FrameForMe s 8 f →
      (f.dcrc ≠ dcrcOf f → PassesOn (.image f) s { f with ack := false } (fun t => t.chain = s.chain ∧
        Bumped Fld.MC_STATS_DCRC_ERR 0 0 s t)) ∧
      (f.dcrc = dcrcOf f → 8192 ≤ f.arg.toNat ∨ spRuns s = false →
        PassesOn (.image f) s { f with ack := true, err := true } (fun t => t.chain = s.chain)) ∧
      (f.dcrc = dcrcOf f → f.arg.toNat < 8192 → spRuns s = true → PassesOn (.image f) s { f with ack := true } (fun t =>
        t.mem = s.mem ∧ SMap.get t.chain.buf f.arg.toNat 0 = f.data ∧
        ∀ i, i ≠ f.arg.toNat → SMap.get t.chain.buf i 0 = SMap.get s.chain.buf i 0))) ∧
    (FrameForMe s 9 f → let k := bits f.arg.toNat 0 3
      let img := bufferImage s
      let why := if slotBytes k < img.length then 6 else imageReason s k img
      (k = 0 ∨ 4 < k ∨ spRuns s = false → PassesOn (.imageDone f) s { f with ack := true, err := true } (fun t => t.store = s.store)) ∧
      (0 < k → k ≤ 4 → StoreFree s → s.rget Fld.SP_BOOT_STATUS_STAGE ≠ 15 → PassesOn (.imageDone f) s { f with ack := true } (fun t =>
        t.image k (1 - s.activeSlot k) = (if why = 0 then img else []) ∧ t.activeSlot k = s.activeSlot k ∧ t.mem = s.mem)) ∧
      (0 < k → k ≤ 4 → spRuns s = true → s.rget Fld.SP_BOOT_STATUS_STAGE = 15 → why = 0 →
        let rest := s.rget Fld.SP_BOOT_STATUS_RECOVERY_KINDS - bits (s.rget Fld.SP_BOOT_STATUS_RECOVERY_KINDS) (k - 1) 1 * 2 ^ (k - 1)
        rest ≠ 0 → PassesOn (.imageDone f) s { f with ack := true } (fun t => t.image k (t.activeSlot k) = img ∧
          t.activeSlot k = 1 - s.activeSlot k ∧ t.rget Fld.SP_BOOT_STATUS_RECOVERY_KINDS = rest ∧ t.clocked = false)))

/-- R432, R433: the TAP selects the instruction; IDCODE shifts its code out, FREEZE ices the device, and the instructions that need an
iced device select BYPASS on one that runs; SCAN_SEL sets what SCAN_DATA reads, unless the chain has just read, and SCAN_DATA shifts
the word out and goes on to the next. -/
def Obligations.TestAccessPort : Prop :=
  ∀ s,
    (s.boot.bypass = true → ∀ i ∈ [Instr.extest, .idcode, .samplePreload, .tapFreeze, .bypass], exec i s = .next s) ∧
    (s.boot.bypass = false →
      (∃ t, exec .idcode s = .next t ∧ Selected 0x01 s t ∧ t.regs = s.regs ∧ t.sent = s.sent ++ [.tap 0x64000A6B]) ∧
      (∃ t, exec .samplePreload s = .next t ∧ Selected 0x02 s t ∧ t.regs = s.regs) ∧
      (∃ t, exec .bypass s = .next t ∧ Selected 0xFF s t ∧ t.regs = s.regs) ∧
      (freezable s = true → s.flag Fld.MC_FREEZE_STATUS_FROZEN = false → ∃ t, exec .tapFreeze s = .next t ∧ Iced 2 s t ∧
        t.chain.ir = 0x10) ∧
      (freezable s = false → ∃ t, exec .tapFreeze s = .next t ∧ Selected 0x10 s t ∧ t.regs = s.regs) ∧
      (s.flag Fld.MC_FREEZE_STATUS_FROZEN = false → ∀ v recent e, ∀ i ∈ [Instr.extest, .scanSel v recent, .scanData e],
        ∃ t, exec i s = .next t ∧ Selected 0xFF s t ∧ t.regs = s.regs ∧ t.sent = s.sent) ∧
      (s.flag Fld.MC_FREEZE_STATUS_FROZEN = true →
        (∃ t, exec .extest s = .next t ∧ Selected 0x00 s t ∧ t.regs = s.regs) ∧
        (∀ v : Word, bits v.toNat 0 4 ≤ 9 → ∃ t, exec (.scanSel v false) s = .next t ∧ Selected 0x11 s t ∧
          t.rget Fld.MC_SCAN_SEL_SEG = bits v.toNat 0 4 ∧ t.rget Fld.MC_SCAN_SEL_UNIT = bits v.toNat 4 8 ∧
          t.rget Fld.MC_SCAN_SEL_OFFSET = bits v.toNat 16 31 ∧ t.flag Fld.MC_SCAN_STATUS_BUSY = false) ∧
        (∀ v : Word, s.chain.reader = some false → ∃ t, exec (.scanSel v true) s = .next t ∧ Selected 0x11 s t ∧
          t.flag Fld.MC_SCAN_STATUS_BUSY = true ∧ t.rget Fld.MC_SCAN_SEL_OFFSET = s.rget Fld.MC_SCAN_SEL_OFFSET) ∧
        (∃ t, exec (.scanData .clean) s = .next t ∧ Selected 0x12 s t ∧ t.sent = s.sent ++ [.tap (scanData s)] ∧
          t.rget Fld.MC_SCAN_SEL_OFFSET = (s.rget Fld.MC_SCAN_SEL_OFFSET + 1) % 2 ^ 31) ∧
        ∃ t, exec (.scanData .uncorrectable) s = .next t ∧ Selected 0x12 s t ∧ Bumped Fld.MC_SCAN_STATUS_UNCORRECTABLE 0 0 s t ∧
          (s.rget Fld.MC_SCAN_STATUS_UNCORRECTABLE = 0 →
            t.rget Fld.MC_SCAN_STATUS_FIRST_BAD = s.rget Fld.MC_SCAN_SEL_OFFSET)))

namespace Sys2Proof.Claims

/-- The commands that run from the I/O rail, the pins and the rails, whatever the device's clocks do (R398, R419, R425, R433, R444). -/
def onIoRail (c : Instr) : Bool :=
  match c with
  | .powerOnReset _ => true
  | .resetN _ => true
  | .resetNRelease _ => true
  | .railOutOfRange _ => true
  | .vddIoLoss => true
  | .freezeN _ => true
  | .nop _ => true
  | .enumerate _ => true
  | .chainRead _ _ => true
  | .chainWrite _ _ => true
  | .chainStatus _ => true
  | .chainFreeze _ => true
  | .chainReset _ _ => true
  | .park _ => true
  | .image _ => true
  | .imageDone _ => true
  | .extest => true
  | .idcode => true
  | .samplePreload => true
  | .tapFreeze => true
  | .scanSel _ _ => true
  | .scanData _ => true
  | .bypass => true
  | _ => false

/-- Machine time as one number in units of 2^-32 ns (R27). -/
def fineTime (s : State) : Nat := s.now * 2 ^ 32 + s.nowFrac

/-- The magnitude of a finite pattern without sign. -/
def magnitude (f : FFmt) (b : Nat) : Rat :=
  match f.decode b with
  | .fin _ m e => (m : Rat) * (2 : Rat) ^ e
  | _ => 0

/-- How far apart two numbers lie. -/
def distance (a b : Rat) : Rat := max (a - b) (b - a)

end Sys2Proof.Claims

/-- A step takes the command at the front of the queue and is that command's effect on the state with the rest of the queue; on an empty
queue, which no rule of the manual speaks of, a device whose clocks run lets one period of MTCLK pass (log entry 20), and any other
idles. -/
def Obligations.StepRunsFront : Prop :=
  (∀ c rest s, s.pending = c :: rest → step s = exec c { s with pending := rest }) ∧
  (∀ s, s.pending = [] → s.clocked = false → step s = .next s) ∧
  ∀ s, s.pending = [] → s.clocked = true → ∃ t, step s = .next t ∧ t.pending = [] ∧ t.mem = s.mem ∧ t.regs = s.regs ∧
    t.cores = s.cores ∧ t.queues = s.queues ∧
    (s.nowFrac < 2 ^ 32 → s.now + 2 < 2 ^ 64 → (fineTime t : Int) = (fineTime s : Int) + 2 ^ 32 + mtIncrement s)

/-- Every command answers a next state, and leaves the queue of commands that wait behind it alone. -/
def Obligations.QueueUntouched : Prop := ∀ c s, ∃ t, exec c s = .next t ∧ t.pending = s.pending

/-- R398, R401, R426: while the device's clocks stand (held in reset, iced, or waiting for an image), a step changes nothing but the
queue, unless its command comes from the chain, the TAP, a pin or a rail; and so the clocks still stand after it. -/
def Obligations.ClocksStand : Prop :=
  ∀ s t, s.clocked = false → (∀ c rest, s.pending = c :: rest → onIoRail c = false) → step s = .next t →
    t = { s with pending := s.pending.tail } ∧ t.clocked = false

/-- R36, R268, R312, R356, R379, R398: what reset leaves: machine time unset at zero, queue 0 ACTIVE with priority 3, no other queue, every link
and the port in their reset states, the power cap 700 W at 0.50 GHz plus 60 steps, nothing listed in memory, and memory in its form. -/
def Obligations.ResetValues : Prop :=
  let s := State.reset
  s.now = 0 ∧ s.mtState = 0 ∧ s.qState 0 = 1 ∧ s.rget Fld.FE_QUEUE_STATUS_PRIO = 3 ∧ (∀ q : Fin 1024, q ≠ 0 → s.qState q = 0) ∧
    (∀ n : Fin 48, s.lkState n = 0) ∧ s.ucState = 0 ∧ s.rget Fld.PM_CAP_WATTS = 700 ∧ s.point = 60 ∧ s.duty = 16 ∧
    s.rget Fld.PM_CLK_MODE_POINT = 60 ∧ (∀ b : Fin 24, s.rget Fld.BK_CORE_OFFLINE_CELLS b = 0) ∧ s.mem = [] ∧ s.memWf = true ∧
    s.cores = [] ∧ s.pending = []

/-- R42, R44, R47: the words that these encodings spell decode to their instructions, and a word of a reserved class or opcode to none. -/
def Obligations.TrayWords : Prop :=
  ∀ o : TrayOp,
    (∃ p, decodeTray o 0x0007_0405_8787_1000 = some (.add p) ∧ p.dst = 4 ∧ p.srcA = 5 ∧ p.pred.val = 7 ∧ p.pneg = false) ∧
    (∃ p, decodeTray o 0x0118_0203_0487_0000 = some (.max p) ∧ p.dst = 2 ∧ p.srcA = 3 ∧ p.srcB = 4 ∧ p.pred.val = 0 ∧ p.pneg = true) ∧
    (∃ p, decodeTray o 0x100F_0A0B_0C0D_0000 = some (.fadd p) ∧ p.dst = 10 ∧ p.srcA = 11 ∧ p.srcB = 12 ∧ p.srcC = 13) ∧
    decodeTray o 0x0050_0000_0000_0000 = none ∧ decodeTray o 0x8000_0000_0000_0000 = none ∧ decodeTray o 0xF0FF_0000_0000_0000 = none

/-- R42 to R44: decoding the word of a tray instruction gives the instruction back, every operand and class-specific bit of it. -/
def Obligations.TrayRoundTrip : Prop :=
  ∀ i c p o, trayCode i = some (c, p, o) → decodeTray o (trayWord c p o) = some i

/-- R48, R115, R134, R155: rounding to a format gives a nearest pattern, and of two the even one. -/
def Obligations.RoundNearest : Prop :=
  ∀ f ∈ [fp64, fp32, bf16, fp16], ∀ m e x, let r := f.roundMag m e false
    let v := (m : Rat) * (2 : Rat) ^ e
    r < f.infBits → x < f.infBits → distance (magnitude f r) v ≤ distance (magnitude f x) v ∧
      (distance (magnitude f r) v = distance (magnitude f x) v → x ≠ r → r % 2 = 0)

/-- R27: a period of MTCLK adds 1 ns and the rounded increment to machine time, in units of 2^-32 ns; the increment is RATE x 2^24 / 10^9
to the nearest integer, ties to even; and RATE, in units of ppb x 2^-8, is the sum of its trims clamped to 500,000 ppb either way. -/
def Obligations.RateOfMachineTime : Prop :=
  (∀ s : State, s.nowFrac < 2 ^ 32 → s.now + 2 < 2 ^ 64 → (fineTime s.tick : Int) = (fineTime s : Int) + 2 ^ 32 + mtIncrement s) ∧
  (∀ s : State, let r := signedOf 32 (s.rget Fld.MT_RATE_RATE) * 2 ^ 24
    let i := mtIncrement s
    2 * (r - i * 1000000000) ≤ 1000000000 ∧ -1000000000 ≤ 2 * (r - i * 1000000000) ∧
      (2 * (r - i * 1000000000) = 1000000000 ∨ 2 * (r - i * 1000000000) = -1000000000 → i % 2 = 0)) ∧
  ∀ s : State, signedOf 32 ((setRate s).rget Fld.MT_RATE_RATE) =
    max (-(500000 * 256)) (min (500000 * 256) (signedOf 32 (s.rget Fld.MT_FREQ_TRIM_TRIM) + s.mt.phase))

/-- R399: the strap is sampled when reset is released; code 0 boots from the slots, and codes 1 to 3 boot no image from them and wait
for images over the chain. -/
def Obligations.StrapBoot : Prop :=
  ∀ s (i : BootInput), s.boot.pinLow = true → railsUp s = true → ∃ t, exec (.resetNRelease i) s = .next t ∧
    t.rget Fld.SP_BOOT_STATUS_STRAP = i.strap.toNat ∧ t.boot.held = false ∧
    (i.strap = 0 → Bootable s → t.rget Fld.SP_BOOT_STATUS_STAGE = 8 ∧ t.flag Fld.MC_STATUS_READY = true) ∧
    (i.strap ≠ 0 → t.rget Fld.SP_BOOT_STATUS_STAGE = 15 ∧ t.rget Fld.SP_BOOT_STATUS_RECOVERY_KINDS = 15 ∧
      t.store.active = s.store.active ∧ t.flag Fld.MC_STATUS_READY = s.flag Fld.MC_STATUS_READY ∧
      ∀ c, onIoRail c = false → exec c t = .next t)

/-! ### Statements that are several of the above together -/

/-- R47: IntegerArithmetic, IntegerLogic and IntegerMoves together. -/
def Obligations.IntegerInstructions : Prop :=
  Sys2Proof.Claims.IntegerArithmetic ∧ Sys2Proof.Claims.IntegerLogic ∧ Sys2Proof.Claims.IntegerMoves

/-- R48: FloatArithmetic and FloatConvert together. -/
def Obligations.FloatInstructions : Prop :=
  Sys2Proof.Claims.FloatArithmetic ∧ Sys2Proof.Claims.FloatConvert

/-- R47, R48, R49: Compares and PredicateLogic together. -/
def Obligations.PredicateInstructions : Prop :=
  Sys2Proof.Claims.Compares ∧ Sys2Proof.Claims.PredicateLogic

/-- R49, R56, R60, R61, R62: Branches, Reconverges and YieldAndExit together. -/
def Obligations.ControlFlow : Prop :=
  Sys2Proof.Claims.Branches ∧ Sys2Proof.Claims.Reconverges ∧ Sys2Proof.Claims.YieldAndExit

/-- R50, R72, R73, R187, R190, R353, R354: WindowAccess, HostWindowAccess and WindowFault together. -/
def Obligations.WindowInstructions : Prop :=
  Sys2Proof.Claims.WindowAccess ∧ Sys2Proof.Claims.HostWindowAccess ∧ Sys2Proof.Claims.WindowFault

/-- R50, R65, R67, R70: AtomicIssue, AtomicMisaligned and LocktryIssue together. -/
def Obligations.AtomicInstructions : Prop :=
  Sys2Proof.Claims.AtomicIssue ∧ Sys2Proof.Claims.AtomicMisaligned ∧ Sys2Proof.Claims.LocktryIssue

/-- R189, R222, R229: LoadReturn and StoreAccepted together. -/
def Obligations.AccessesEnd : Prop :=
  Sys2Proof.Claims.LoadReturn ∧ Sys2Proof.Claims.StoreAccepted

/-- R74: ScratchLoads and ScratchStore together. -/
def Obligations.ScratchpadInstructions : Prop :=
  Sys2Proof.Claims.ScratchLoads ∧ Sys2Proof.Claims.ScratchStore

/-- R71, R239, R244: StoreConditional and Fences together. -/
def Obligations.ReservationsAndFences : Prop :=
  Sys2Proof.Claims.StoreConditional ∧ Sys2Proof.Claims.Fences

/-- R64, R247, R249, R250, R252: SyncCounters, CounterRead, CounterReached and SheetBarrier together. -/
def Obligations.CountersAndBarriers : Prop :=
  Sys2Proof.Claims.SyncCounters ∧ Sys2Proof.Claims.CounterRead ∧ Sys2Proof.Claims.CounterReached ∧ Sys2Proof.Claims.SheetBarrier

/-- R255, R256, R262, R304: EventWords and RemoteFlagAndRealign together. -/
def Obligations.EventInstructions : Prop :=
  Sys2Proof.Claims.EventWords ∧ Sys2Proof.Claims.RemoteFlagAndRealign

/-- R248, R260, R261, R262: WaitTimeout, LongWaits and RealignDue together. -/
def Obligations.TimedWaits : Prop :=
  Sys2Proof.Claims.WaitTimeout ∧ Sys2Proof.Claims.LongWaits ∧ Sys2Proof.Claims.RealignDue

/-- R54, R56, R76, R77: ActiveSlots and Debugger together. -/
def Obligations.SlotsAndDebugger : Prop :=
  Sys2Proof.Claims.ActiveSlots ∧ Sys2Proof.Claims.Debugger

/-- R39, R40, R41, R102, R184: TrayRetires and SheetPlaced together. -/
def Obligations.SheetPlaces : Prop :=
  Sys2Proof.Claims.TrayRetires ∧ Sys2Proof.Claims.SheetPlaced

/-- R82, R90, R91, R92, R100, R114: RowsEntriesSets and DrainAndSugar together. -/
def Obligations.TilesAndRows : Prop :=
  Sys2Proof.Claims.RowsEntriesSets ∧ Sys2Proof.Claims.DrainAndSugar

/-- R144, R145, R149, R152, R156, R161: VectorIssue and VectorStart together. -/
def Obligations.VectorQueue : Prop :=
  Sys2Proof.Claims.VectorIssue ∧ Sys2Proof.Claims.VectorStart

/-- R125, R129, R142, R149, R151, R164: StreamReadsBack, VectorComplete and SliceDigits together. -/
def Obligations.VectorResults : Prop :=
  Sys2Proof.Claims.StreamReadsBack ∧ Sys2Proof.Claims.VectorComplete ∧ Sys2Proof.Claims.SliceDigits

/-- R170, R171, R172, R173, R202, R203, R277: MoverPost, MoverMoves and GranuleCopies together. -/
def Obligations.BlockMover : Prop :=
  Sys2Proof.Claims.MoverPost ∧ Sys2Proof.Claims.MoverMoves ∧ Sys2Proof.Claims.GranuleCopies

/-- R222, R223, R226, R228, R233, R243: HomeRequests and SnoopsAndHolds together. -/
def Obligations.CoherenceMessages : Prop :=
  Sys2Proof.Claims.HomeRequests ∧ Sys2Proof.Claims.SnoopsAndHolds

/-- R206, R207, R208, R209: ChannelCommands and ChannelEvents together. -/
def Obligations.HbmChannels : Prop :=
  Sys2Proof.Claims.ChannelCommands ∧ Sys2Proof.Claims.ChannelEvents

/-- R265, R266, R268, R269, R272, R274: PacketChecks and Submit together. -/
def Obligations.PacketsAndSubmit : Prop :=
  Sys2Proof.Claims.PacketChecks ∧ Sys2Proof.Claims.Submit

/-- R268, R270, R271: QueueCommands and QueuesAndContexts together. -/
def Obligations.QueuesByPacket : Prop :=
  Sys2Proof.Claims.QueueCommands ∧ Sys2Proof.Claims.QueuesAndContexts

/-- R9, R13, R266, R285: QueryPackets and RegisterAccess together. -/
def Obligations.ReadsByPacket : Prop :=
  Sys2Proof.Claims.QueryPackets ∧ Sys2Proof.Claims.RegisterAccess

/-- R255, R276, R279, R280, R304, R305, R453: SimpleNodes and EventNodes together. -/
def Obligations.FrontEndNodes : Prop :=
  Sys2Proof.Claims.SimpleNodes ∧ Sys2Proof.Claims.EventNodes

/-- R197, R201, R262, R277, R396: CopiesAndFills, LockGroups and RealignSet together. -/
def Obligations.CopyAndLockNodes : Prop :=
  Sys2Proof.Claims.CopiesAndFills ∧ Sys2Proof.Claims.LockGroups ∧ Sys2Proof.Claims.RealignSet

/-- R269, R270, R278, R283, R284, R286, R287, R288, R302: NodeLife and QueueAborts together. -/
def Obligations.NodesEnd : Prop :=
  Sys2Proof.Claims.NodeLife ∧ Sys2Proof.Claims.QueueAborts

/-- R18, R19, R280, R289, R290: RegionControl and LaunchCompetition together. -/
def Obligations.RegionsAndPlaces : Prop :=
  Sys2Proof.Claims.RegionControl ∧ Sys2Proof.Claims.LaunchCompetition

/-- R310, R311, R312, R314, R315, R321: LinkFrames and LinkStates together. -/
def Obligations.LinkEvents : Prop :=
  Sys2Proof.Claims.LinkFrames ∧ Sys2Proof.Claims.LinkStates

/-- R27, R29, R30, R31, R32, R33, R35, R341, R342: TimeSync, TimeWrites and TimeEvents together. -/
def Obligations.MachineTime : Prop :=
  Sys2Proof.Claims.TimeSync ∧ Sys2Proof.Claims.TimeWrites ∧ Sys2Proof.Claims.TimeEvents

/-- R330, R336, R337, R338, R339: JobSetNodes and JobAborts together. -/
def Obligations.JobSets : Prop :=
  Sys2Proof.Claims.JobSetNodes ∧ Sys2Proof.Claims.JobAborts

/-- R325, R326, R327, R331, R334, R335, R340: RemotePost, ExactlyOnce and RemoteEnds together. -/
def Obligations.RemoteOperations : Prop :=
  Sys2Proof.Claims.RemotePost ∧ Sys2Proof.Claims.ExactlyOnce ∧ Sys2Proof.Claims.RemoteEnds

/-- R348, R349, R355, R356, R358: PortReplies and PortStates together. -/
def Obligations.PortOfTheDevice : Prop :=
  Sys2Proof.Claims.PortReplies ∧ Sys2Proof.Claims.PortStates

/-- R26, R362, R364, R378: PowerPolicy and PowerLoop together. -/
def Obligations.PowerCap : Prop :=
  Sys2Proof.Claims.PowerPolicy ∧ Sys2Proof.Claims.PowerLoop

/-- R291, R368, R371, R373, R375, R377, R437, R443: DroopAndWindows and Temperature together. -/
def Obligations.SensorsAndWindows : Prop :=
  Sys2Proof.Claims.DroopAndWindows ∧ Sys2Proof.Claims.Temperature

/-- R402, R403, R404, R406, R407, R409, R412, R414, R417: Images, FusesAndReports and SettingsStore together. -/
def Obligations.ImagesAndSettings : Prop :=
  Sys2Proof.Claims.Images ∧ Sys2Proof.Claims.FusesAndReports ∧ Sys2Proof.Claims.SettingsStore

/-- R398, R420, R422, R424, R425: ChainFrames and ChainActions together. -/
def Obligations.ManagementChain : Prop :=
  Sys2Proof.Claims.ChainFrames ∧ Sys2Proof.Claims.ChainActions
end

