-- ==== Sys2Proof/Laws/Map.lean ====
section
/-!
SUPPORT. Laws/Map.lean: what a sparse map holds after each of its operations, and that each keeps its keys rising.
-/
namespace Sys2Proof

variable {α : Type}

/-! ### Lookup after an operation -/

@[simp] theorem SMap.find?_nil (k : Nat) : SMap.find? ([] : SMap α) k = none := rfl

@[simp] theorem SMap.find?_put_same (m : SMap α) (k : Nat) (v : α) : SMap.find? (SMap.put m k v) k = some v := by
  induction m with
  | nil => simp [SMap.put, SMap.find?]
  | cons e m ih =>
    obtain ⟨j, w⟩ := e
    by_cases h : j = k
    · simp [SMap.put, SMap.find?, h]
    · by_cases g : k < j
      · simp [SMap.put, SMap.find?, h, g]
      · simp [SMap.put, SMap.find?, h, g, ih]

@[simp] theorem SMap.find?_put_other (m : SMap α) (k j : Nat) (v : α) (h : j ≠ k) :
    SMap.find? (SMap.put m k v) j = SMap.find? m j := by
  induction m with
  | nil => simp [SMap.put, SMap.find?, Ne.symm h]
  | cons e m ih =>
    obtain ⟨i, w⟩ := e
    by_cases g : i = k
    · simp [SMap.put, SMap.find?, g, Ne.symm h]
    · by_cases l : k < i
      · simp [SMap.put, SMap.find?, g, l, Ne.symm h]
      · simp [SMap.put, SMap.find?, g, l, ih]

@[simp] theorem SMap.find?_del_same (m : SMap α) (k : Nat) : SMap.find? (SMap.del m k) k = none := by
  induction m with
  | nil => rfl
  | cons e m ih =>
    obtain ⟨i, w⟩ := e
    by_cases g : i = k
    · simp [SMap.del, g, ih]
    · simp [SMap.del, SMap.find?, g, ih]

@[simp] theorem SMap.find?_del_other (m : SMap α) (k j : Nat) (h : j ≠ k) : SMap.find? (SMap.del m k) j = SMap.find? m j := by
  induction m with
  | nil => rfl
  | cons e m ih =>
    obtain ⟨i, w⟩ := e
    by_cases g : i = k
    · simp [SMap.del, SMap.find?, g, ih, Ne.symm h]
    · simp [SMap.del, SMap.find?, g, ih]

@[simp] theorem SMap.find?_update_same (m : SMap α) (k : Nat) (f : α → α) :
    SMap.find? (SMap.update m k f) k = (SMap.find? m k).map f := by
  induction m with
  | nil => rfl
  | cons e m ih =>
    obtain ⟨i, w⟩ := e
    by_cases g : i = k
    · simp [SMap.update, SMap.find?, g]
    · simp [SMap.update, SMap.find?, g, ih]

@[simp] theorem SMap.find?_update_other (m : SMap α) (k j : Nat) (f : α → α) (h : j ≠ k) :
    SMap.find? (SMap.update m k f) j = SMap.find? m j := by
  induction m with
  | nil => rfl
  | cons e m ih =>
    obtain ⟨i, w⟩ := e
    by_cases g : i = k
    · simp [SMap.update, SMap.find?, g, Ne.symm h]
    · simp [SMap.update, SMap.find?, g, ih]

@[simp] theorem SMap.get_put_same (m : SMap α) (k : Nat) (v d : α) : SMap.get (SMap.put m k v) k d = v := by
  simp [SMap.get]

@[simp] theorem SMap.get_put_other (m : SMap α) (k j : Nat) (v d : α) (h : j ≠ k) :
    SMap.get (SMap.put m k v) j d = SMap.get m j d := by
  simp [SMap.get, h]

@[simp] theorem SMap.get_del_same (m : SMap α) (k : Nat) (d : α) : SMap.get (SMap.del m k) k d = d := by
  simp [SMap.get]

@[simp] theorem SMap.get_del_other (m : SMap α) (k j : Nat) (d : α) (h : j ≠ k) :
    SMap.get (SMap.del m k) j d = SMap.get m j d := by
  simp [SMap.get, h]

@[simp] theorem SMap.get_store_same [DecidableEq α] (m : SMap α) (k : Nat) (d v : α) :
    SMap.get (SMap.store m k d v) k d = v := by
  unfold SMap.store
  split
  · simp_all
  · simp

@[simp] theorem SMap.get_store_other [DecidableEq α] (m : SMap α) (k j : Nat) (d e v : α) (h : j ≠ k) :
    SMap.get (SMap.store m k d v) j e = SMap.get m j e := by
  unfold SMap.store
  split <;> simp [h]

theorem SMap.find?_store_other [DecidableEq α] (m : SMap α) (k j : Nat) (d v : α) (h : j ≠ k) :
    SMap.find? (SMap.store m k d v) j = SMap.find? m j := by
  unfold SMap.store
  split <;> simp [h]

/-! ### Rising keys -/

namespace Machine

/-- Every key of the map lies above a bound. -/
def keysAbove (lo : Nat) (m : List (Nat × α)) : Prop := ∀ e ∈ m, lo < e.1

theorem rising_cons (k : Nat) (v : α) (m : List (Nat × α)) :
    risingKeys ((k, v) :: m) = true ↔ keysAbove k m ∧ risingKeys m = true := by
  induction m generalizing k v with
  | nil => simp [risingKeys, keysAbove]
  | cons e m ih =>
    obtain ⟨j, w⟩ := e
    simp only [risingKeys, Bool.and_eq_true, decide_eq_true_eq]
    constructor
    · rintro ⟨h, g⟩
      refine ⟨?_, g⟩
      intro x hx
      rcases List.mem_cons.mp hx with rfl | hx
      · exact h
      · exact Nat.lt_trans h (((ih j w).mp g).1 x hx)
    · rintro ⟨h, g⟩
      exact ⟨h (j, w) (by simp), g⟩

theorem keysAbove_put (lo k : Nat) (v : α) (m : SMap α) (h : lo < k) (hm : keysAbove lo m) : keysAbove lo (SMap.put m k v) := by
  induction m with
  | nil => intro e he; simp [SMap.put] at he; simp [he, h]
  | cons e m ih =>
    obtain ⟨j, w⟩ := e
    have hj : lo < j := hm (j, w) (by simp)
    have hm' : keysAbove lo m := fun x hx => hm x (by simp [hx])
    intro x hx
    simp only [SMap.put] at hx
    split at hx
    · rcases List.mem_cons.mp hx with rfl | hx
      · exact h
      · exact hm' x hx
    · split at hx
      · rcases List.mem_cons.mp hx with rfl | hx
        · exact h
        · exact hm x hx
      · rcases List.mem_cons.mp hx with rfl | hx
        · exact hj
        · exact ih hm' x hx

theorem keysAbove_del (lo k : Nat) (m : SMap α) (hm : keysAbove lo m) : keysAbove lo (SMap.del m k) := by
  induction m with
  | nil => exact hm
  | cons e m ih =>
    obtain ⟨j, w⟩ := e
    have hm' : keysAbove lo m := fun x hx => hm x (by simp [hx])
    intro x hx
    simp only [SMap.del] at hx
    split at hx
    · exact ih hm' x hx
    · rcases List.mem_cons.mp hx with rfl | hx
      · exact hm (j, w) (by simp)
      · exact ih hm' x hx

theorem rising_put (m : SMap α) (k : Nat) (v : α) (h : risingKeys m = true) : risingKeys (SMap.put m k v) = true := by
  induction m with
  | nil => rfl
  | cons e m ih =>
    obtain ⟨j, w⟩ := e
    obtain ⟨ha, hm⟩ := (rising_cons j w m).mp h
    simp only [SMap.put]
    split
    · rename_i g; subst g
      exact (rising_cons _ v m).mpr ⟨ha, hm⟩
    · split
      · rename_i l
        refine (rising_cons k v _).mpr ⟨?_, h⟩
        intro x hx
        rcases List.mem_cons.mp hx with rfl | hx
        · exact l
        · exact Nat.lt_trans l (ha x hx)
      · rename_i g l
        exact (rising_cons j w _).mpr ⟨keysAbove_put j k v m (by omega) ha, ih hm⟩

theorem rising_del (m : SMap α) (k : Nat) (h : risingKeys m = true) : risingKeys (SMap.del m k) = true := by
  induction m with
  | nil => rfl
  | cons e m ih =>
    obtain ⟨j, w⟩ := e
    obtain ⟨ha, hm⟩ := (rising_cons j w m).mp h
    simp only [SMap.del]
    split
    · exact ih hm
    · exact (rising_cons j w _).mpr ⟨keysAbove_del j k m ha, ih hm⟩

theorem rising_store [DecidableEq α] (m : SMap α) (k : Nat) (d v : α) (h : risingKeys m = true) :
    risingKeys (SMap.store m k d v) = true := by
  unfold SMap.store
  split
  · exact rising_del m k h
  · exact rising_put m k v h

theorem rising_filter (m : SMap α) (p : Nat × α → Bool) (h : risingKeys m = true) : risingKeys (m.filter p) = true := by
  induction m with
  | nil => rfl
  | cons e m ih =>
    obtain ⟨j, w⟩ := e
    obtain ⟨ha, hm⟩ := (rising_cons j w m).mp h
    by_cases g : p (j, w) = true
    · rw [List.filter_cons_of_pos g]
      exact (rising_cons j w _).mpr ⟨fun x hx => ha x (List.mem_filter.mp hx).1, ih hm⟩
    · rw [List.filter_cons_of_neg g]
      exact ih hm

theorem mem_put (m : SMap α) (k : Nat) (v : α) (e : Nat × α) (h : e ∈ SMap.put m k v) : e = (k, v) ∨ e ∈ m := by
  induction m with
  | nil => simpa [SMap.put] using h
  | cons x m ih =>
    obtain ⟨j, w⟩ := x
    simp only [SMap.put] at h
    split at h
    · rcases List.mem_cons.mp h with rfl | h
      · exact .inl rfl
      · exact .inr (by simp [h])
    · split at h
      · rcases List.mem_cons.mp h with rfl | h
        · exact .inl rfl
        · exact .inr h
      · rcases List.mem_cons.mp h with rfl | h
        · exact .inr (by simp)
        · rcases ih h with g | g
          · exact .inl g
          · exact .inr (by simp [g])

theorem mem_del (m : SMap α) (k : Nat) (e : Nat × α) (h : e ∈ SMap.del m k) : e ∈ m ∧ e.1 ≠ k := by
  induction m with
  | nil => simp [SMap.del] at h
  | cons x m ih =>
    obtain ⟨j, w⟩ := x
    simp only [SMap.del] at h
    split at h
    · exact ⟨by simp [(ih h).1], (ih h).2⟩
    · rcases List.mem_cons.mp h with rfl | h
      · exact ⟨by simp, by assumption⟩
      · exact ⟨by simp [(ih h).1], (ih h).2⟩

end Machine
end Sys2Proof
end

