-- ==== Sys2Proof/Laws/Memory.lean ====
section
/-!
SUPPORT. Laws/Memory.lean: bytes read back as they were written, a write leaves every other byte, and every memory operation
keeps the canonical form of the memory.
-/
namespace Sys2Proof.Machine

/-! ### One byte -/

@[simp] theorem byte_putByte_same (s : State) (a : Nat) (b : Byte) : (s.putByte a b).byte a = b := by
  simp [State.byte, State.putByte]

@[simp] theorem byte_putByte_other (s : State) (a c : Nat) (b : Byte) (h : c ≠ a) : (s.putByte a b).byte c = s.byte c := by
  simp [State.byte, State.putByte, h]

/-! ### Values of several bytes -/

theorem get_memWriteLE_outside (u : List (Nat × Nat × Option Nat)) (d : Byte) (n : Nat) :
    ∀ (m : SMap Byte) (a v c : Nat), (c < a ∨ a + n ≤ c) → SMap.get (memWriteLE u m a n v) c d = SMap.get m c d := by
  induction n with
  | zero => intro m a v c _; rfl
  | succ n ih =>
    intro m a v c h
    have hc : c ≠ a := by omega
    simp only [memWriteLE]
    rw [ih _ _ _ _ (by omega), SMap.get_store_other _ _ _ _ _ _ hc]

theorem get_memWriteLE_inside (u : List (Nat × Nat × Option Nat)) (n : Nat) :
    ∀ (m : SMap Byte) (a v i : Nat), i < n →
      SMap.get (memWriteLE u m a n v) (a + i) (unlisted u (a + i)) = BitVec.ofNat 8 (v >>> (8 * i)) := by
  induction n with
  | zero => intro m a v i h; omega
  | succ n ih =>
    intro m a v i h
    simp only [memWriteLE]
    cases i with
    | zero =>
      rw [Nat.add_zero, get_memWriteLE_outside u _ n _ _ _ _ (by omega)]
      simp
    | succ i =>
      have e : a + (i + 1) = a + 1 + i := by omega
      rw [e, ih _ _ _ _ (by omega)]
      congr 1
      rw [show 8 * (i + 1) = 8 + 8 * i by omega, Nat.shiftRight_add]
      simp [Nat.shiftRight_eq_div_pow]

/-- A byte outside the extent of a write reads as before. -/
theorem byte_putLE_outside (s : State) (a n v c : Nat) (h : c < a ∨ a + n ≤ c) : (s.putLE a n v).byte c = s.byte c :=
  get_memWriteLE_outside s.undef _ n s.mem a v c h

/-- Byte `i` of the extent of a write reads as byte `i` of the value. -/
theorem byte_putLE_inside (s : State) (a n v i : Nat) (h : i < n) : (s.putLE a n v).byte (a + i) = BitVec.ofNat 8 (v >>> (8 * i)) :=
  get_memWriteLE_inside s.undef n s.mem a v i h

theorem readLE_congr (s t : State) (n : Nat) : ∀ a, (∀ i, i < n → s.byte (a + i) = t.byte (a + i)) → s.readLE a n = t.readLE a n := by
  induction n with
  | zero => intro a _; rfl
  | succ n ih =>
    intro a h
    simp only [State.readLE]
    have h0 := h 0 (by omega)
    rw [Nat.add_zero] at h0
    rw [h0, ih (a + 1) (fun i hi => by have := h (i + 1) (by omega); rwa [show a + (i + 1) = a + 1 + i by omega] at this)]

theorem readLE_of_bytes (s : State) (n : Nat) : ∀ a v, (∀ i, i < n → s.byte (a + i) = BitVec.ofNat 8 (v >>> (8 * i))) →
    s.readLE a n = v % 2 ^ (8 * n) := by
  induction n with
  | zero => intro a v _; simp [State.readLE, Nat.mod_one]
  | succ n ih =>
    intro a v h
    have h0 := h 0 (by omega)
    rw [Nat.add_zero] at h0
    have hr : s.readLE (a + 1) n = (v / 256) % 2 ^ (8 * n) := by
      apply ih
      intro i hi
      have := h (i + 1) (by omega)
      rw [show a + (i + 1) = a + 1 + i by omega] at this
      rw [this]
      congr 1
      rw [show 8 * (i + 1) = 8 + 8 * i by omega, Nat.shiftRight_add]
      simp [Nat.shiftRight_eq_div_pow]
    simp only [State.readLE, h0, hr]
    have e : (2 : Nat) ^ (8 * (n + 1)) = 256 * 2 ^ (8 * n) := by
      rw [show 8 * (n + 1) = 8 + 8 * n by omega, Nat.pow_add]
    rw [e, Nat.mod_mul]
    simp

/-- What is written is what is read. -/
theorem readLE_putLE_same (s : State) (a n v : Nat) : (s.putLE a n v).readLE a n = v % 2 ^ (8 * n) :=
  readLE_of_bytes _ n a v (fun i h => byte_putLE_inside s a n v i h)

/-- A read of an extent that the write does not meet is as before. -/
theorem readLE_putLE_apart (s : State) (a n v c k : Nat) (h : c + k ≤ a ∨ a + n ≤ c) : (s.putLE a n v).readLE c k = s.readLE c k :=
  readLE_congr _ _ k c (fun i hi => byte_putLE_outside s a n v (c + i) (by omega))

/-! ### The canonical form -/

theorem wf_iff (u : List (Nat × Nat × Option Nat)) (m : List Host.Cell) :
    Memory.wf u m = true ↔ risingKeys m = true ∧ ∀ c ∈ m, c.2 ≠ unlisted u c.1 := by
  simp [Memory.wf, List.all_eq_true]

theorem wf_store (u : List (Nat × Nat × Option Nat)) (m : SMap Byte) (a : Nat) (b : Byte) (h : Memory.wf u m = true) :
    Memory.wf u (SMap.store m a (unlisted u a) b) = true := by
  obtain ⟨hr, hd⟩ := (wf_iff u m).mp h
  refine (wf_iff u _).mpr ⟨rising_store m a _ b hr, ?_⟩
  intro c hc
  unfold SMap.store at hc
  split at hc
  · exact hd c (mem_del m a c hc).1
  · rcases mem_put m a b c hc with rfl | g
    · assumption
    · exact hd c g

theorem wf_memWriteLE (u : List (Nat × Nat × Option Nat)) (n : Nat) :
    ∀ (m : SMap Byte) (a v : Nat), Memory.wf u m = true → Memory.wf u (memWriteLE u m a n v) = true := by
  induction n with
  | zero => intro m a v h; exact h
  | succ n ih => intro m a v h; exact ih _ _ _ (wf_store u m a _ h)

theorem wf_filter (u : List (Nat × Nat × Option Nat)) (m : SMap Byte) (p : Nat × Byte → Bool) (h : Memory.wf u m = true) :
    Memory.wf u (m.filter p) = true := by
  obtain ⟨hr, hd⟩ := (wf_iff u m).mp h
  exact (wf_iff u _).mpr ⟨rising_filter m p hr, fun c hc => hd c (List.mem_filter.mp hc).1⟩

/-- The form of a state's memory in two parts: its bytes and its poison. -/
theorem memWf_iff (s : State) : s.memWf = true ↔ Memory.wf s.undef s.mem = true ∧ risingKeys s.poison = true := by
  simp [State.memWf]

theorem memWf_putByte (s : State) (a : Nat) (b : Byte) (h : s.memWf = true) : (s.putByte a b).memWf = true := by
  obtain ⟨hm, hp⟩ := (memWf_iff s).mp h
  exact (memWf_iff _).mpr ⟨wf_store s.undef s.mem a b hm, hp⟩

theorem memWf_putLE (s : State) (a n v : Nat) (h : s.memWf = true) : (s.putLE a n v).memWf = true := by
  obtain ⟨hm, hp⟩ := (memWf_iff s).mp h
  exact (memWf_iff _).mpr ⟨wf_memWriteLE s.undef n s.mem a v hm, hp⟩

theorem memWf_setPoison (s : State) (w : Nat) (b : Bool) (h : s.memWf = true) : (s.setPoison w b).memWf = true := by
  obtain ⟨hm, hp⟩ := (memWf_iff s).mp h
  exact (memWf_iff _).mpr ⟨hm, rising_store s.poison w _ b hp⟩

/-- An operation that keeps a property keeps it when it is folded over a list. -/
theorem foldl_keeps {β σ : Type} (P : σ → Prop) (f : σ → β → σ) (hf : ∀ s b, P s → P (f s b)) :
    ∀ (l : List β) (s : σ), P s → P (l.foldl f s) := by
  intro l
  induction l with
  | nil => intro s h; exact h
  | cons b l ih => intro s h; exact ih _ (hf s b h)

theorem memWf_clearWhole (s : State) (a n : Nat) (h : s.memWf = true) : (s.clearWhole a n).memWf = true :=
  foldl_keeps (fun t => t.memWf = true) _ (fun t _ ht => memWf_setPoison t _ false ht) _ s h

theorem memWf_write (s : State) (a n v : Nat) (h : s.memWf = true) : (s.write a n v).memWf = true :=
  memWf_clearWhole _ a n (memWf_putLE s a n v h)

theorem memWf_writeBytes (s : State) (a : Nat) (bs : List Byte) (h : s.memWf = true) : (s.writeBytes a bs).memWf = true := by
  obtain ⟨hm, hp⟩ := (memWf_iff s).mp h
  refine memWf_clearWhole _ a _ ((memWf_iff _).mpr ⟨?_, hp⟩)
  exact foldl_keeps (fun (x : SMap Byte × Nat) => Memory.wf s.undef x.1 = true) _
    (fun x b hx => wf_store s.undef x.1 x.2 b hx) bs (s.mem, a) hm

theorem memWf_writeWords (ws : List Nat) : ∀ (s : State) (a : Nat), s.memWf = true → (s.writeWords a ws).memWf = true := by
  induction ws with
  | nil => intro s a h; exact h
  | cons w ws ih => intro s a h; exact ih _ _ (memWf_putLE s a 8 w h)

theorem memWf_writeRecord (s : State) (a : Nat) (ws : List Nat) (h : s.memWf = true) : (s.writeRecord a ws).memWf = true :=
  memWf_clearWhole _ a _ (memWf_writeWords ws s a h)

theorem memWf_writePieces (s : State) (ps : List Piece) (h : s.memWf = true) : (s.writePieces ps).memWf = true := by
  unfold State.writePieces
  refine foldl_keeps (fun t => State.memWf t = true) _ ?_ _ _ ?_
  · intro t w ht
    split
    · exact memWf_setPoison t w false ht
    · exact ht
  · exact foldl_keeps (fun t => State.memWf t = true) _ (fun t p ht => memWf_putLE t _ _ _ ht) ps s h

theorem unlisted_cons_none (u : List (Nat × Nat × Option Nat)) (a n c : Nat) (h : c < a ∨ a + n ≤ c) :
    unlisted ((a, n, none) :: u) c = unlisted u c := by
  have : (decide (a ≤ c) && decide (c < a + n)) = false := by
    simp only [Bool.and_eq_false_iff, decide_eq_false_iff_not]
    omega
  simp [unlisted, List.find?, this]

theorem memWf_zeroExtent (s : State) (a n : Nat) (h : s.memWf = true) : (s.zeroExtent a n).memWf = true := by
  obtain ⟨hm, hp⟩ := (memWf_iff s).mp h
  have hf := wf_filter s.undef s.mem (fun c => !(decide (a ≤ c.1) && decide (c.1 < a + n))) hm
  unfold State.zeroExtent
  dsimp only
  split
  · refine (memWf_iff _).mpr ⟨?_, rising_filter s.poison _ hp⟩
    obtain ⟨hr, hd⟩ := (wf_iff _ _).mp hf
    refine (wf_iff _ _).mpr ⟨hr, ?_⟩
    intro c hc
    have ho := (List.mem_filter.mp hc).2
    have hout : c.1 < a ∨ a + n ≤ c.1 := by
      simp only [Bool.not_eq_true', Bool.and_eq_false_iff, decide_eq_false_iff_not] at ho
      omega
    show c.2 ≠ unlisted ((a, n, none) :: s.undef) c.1
    rw [unlisted_cons_none s.undef a n c.1 hout]
    exact hd c hc
  · exact (memWf_iff _).mpr ⟨hf, rising_filter s.poison _ hp⟩

/-- The memory right after reset is in its form. -/
theorem memWf_reset : State.reset.memWf = true := by decide

end Sys2Proof.Machine
end

