-- ==== Sys2Proof/Laws/State.lean ====
section
/-!
SUPPORT. Laws/State.lean: every update of the state leaves every field that it does not write, one lemma per field and update.
-/
namespace Sys2Proof.Machine

/-! ### rput -/

@[simp] theorem rput_pending (s : State) (f : Fld) (v i c : Nat) : (s.rput f v i c).pending = s.pending := rfl
@[simp] theorem rput_now (s : State) (f : Fld) (v i c : Nat) : (s.rput f v i c).now = s.now := rfl
@[simp] theorem rput_nowFrac (s : State) (f : Fld) (v i c : Nat) : (s.rput f v i c).nowFrac = s.nowFrac := rfl
@[simp] theorem rput_upClock (s : State) (f : Fld) (v i c : Nat) : (s.rput f v i c).upClock = s.upClock := rfl
@[simp] theorem rput_ctxStall (s : State) (f : Fld) (v i c : Nat) : (s.rput f v i c).ctxStall = s.ctxStall := rfl
@[simp] theorem rput_mem (s : State) (f : Fld) (v i c : Nat) : (s.rput f v i c).mem = s.mem := rfl
@[simp] theorem rput_undef (s : State) (f : Fld) (v i c : Nat) : (s.rput f v i c).undef = s.undef := rfl
@[simp] theorem rput_poison (s : State) (f : Fld) (v i c : Nat) : (s.rput f v i c).poison = s.poison := rfl
@[simp] theorem rput_cores (s : State) (f : Fld) (v i c : Nat) : (s.rput f v i c).cores = s.cores := rfl
@[simp] theorem rput_launches (s : State) (f : Fld) (v i c : Nat) : (s.rput f v i c).launches = s.launches := rfl
@[simp] theorem rput_nextLaunch (s : State) (f : Fld) (v i c : Nat) : (s.rput f v i c).nextLaunch = s.nextLaunch := rfl
@[simp] theorem rput_nextUid (s : State) (f : Fld) (v i c : Nat) : (s.rput f v i c).nextUid = s.nextUid := rfl
@[simp] theorem rput_movers (s : State) (f : Fld) (v i c : Nat) : (s.rput f v i c).movers = s.movers := rfl
@[simp] theorem rput_windowNotified (s : State) (f : Fld) (v i c : Nat) : (s.rput f v i c).windowNotified = s.windowNotified := rfl
@[simp] theorem rput_windowDecreased (s : State) (f : Fld) (v i c : Nat) : (s.rput f v i c).windowDecreased = s.windowDecreased := rfl
@[simp] theorem rput_contexts (s : State) (f : Fld) (v i c : Nat) : (s.rput f v i c).contexts = s.contexts := rfl
@[simp] theorem rput_queues (s : State) (f : Fld) (v i c : Nat) : (s.rput f v i c).queues = s.queues := rfl
@[simp] theorem rput_ranges (s : State) (f : Fld) (v i c : Nat) : (s.rput f v i c).ranges = s.ranges := rfl
@[simp] theorem rput_allocs (s : State) (f : Fld) (v i c : Nat) : (s.rput f v i c).allocs = s.allocs := rfl
@[simp] theorem rput_eventObjs (s : State) (f : Fld) (v i c : Nat) : (s.rput f v i c).eventObjs = s.eventObjs := rfl
@[simp] theorem rput_unanswered (s : State) (f : Fld) (v i c : Nat) : (s.rput f v i c).unanswered = s.unanswered := rfl
@[simp] theorem rput_sent (s : State) (f : Fld) (v i c : Nat) : (s.rput f v i c).sent = s.sent := rfl
@[simp] theorem rput_value (s : State) (f : Fld) (v i c : Nat) : (s.rput f v i c).value = s.value := rfl
@[simp] theorem rput_status (s : State) (f : Fld) (v i c : Nat) : (s.rput f v i c).status = s.status := rfl
@[simp] theorem rput_channels (s : State) (f : Fld) (v i c : Nat) : (s.rput f v i c).channels = s.channels := rfl
@[simp] theorem rput_retireCand (s : State) (f : Fld) (v i c : Nat) : (s.rput f v i c).retireCand = s.retireCand := rfl
@[simp] theorem rput_wayCand (s : State) (f : Fld) (v i c : Nat) : (s.rput f v i c).wayCand = s.wayCand := rfl
@[simp] theorem rput_retired (s : State) (f : Fld) (v i c : Nat) : (s.rput f v i c).retired = s.retired := rfl
@[simp] theorem rput_partitions (s : State) (f : Fld) (v i c : Nat) : (s.rput f v i c).partitions = s.partitions := rfl
@[simp] theorem rput_mt (s : State) (f : Fld) (v i c : Nat) : (s.rput f v i c).mt = s.mt := rfl
@[simp] theorem rput_pw (s : State) (f : Fld) (v i c : Nat) : (s.rput f v i c).pw = s.pw := rfl
@[simp] theorem rput_el (s : State) (f : Fld) (v i c : Nat) : (s.rput f v i c).el = s.el := rfl
@[simp] theorem rput_exportObj (s : State) (f : Fld) (v i c : Nat) : (s.rput f v i c).exportObj = s.exportObj := rfl
@[simp] theorem rput_lastWindow (s : State) (f : Fld) (v i c : Nat) : (s.rput f v i c).lastWindow = s.lastWindow := rfl
@[simp] theorem rput_sugar (s : State) (f : Fld) (v i c : Nat) : (s.rput f v i c).sugar = s.sugar := rfl
@[simp] theorem rput_uc (s : State) (f : Fld) (v i c : Nat) : (s.rput f v i c).uc = s.uc := rfl
@[simp] theorem rput_submits (s : State) (f : Fld) (v i c : Nat) : (s.rput f v i c).submits = s.submits := rfl
@[simp] theorem rput_tuLookups (s : State) (f : Fld) (v i c : Nat) : (s.rput f v i c).tuLookups = s.tuLookups := rfl
@[simp] theorem rput_rescrubbed (s : State) (f : Fld) (v i c : Nat) : (s.rput f v i c).rescrubbed = s.rescrubbed := rfl
@[simp] theorem rput_groupHeld (s : State) (f : Fld) (v i c : Nat) : (s.rput f v i c).groupHeld = s.groupHeld := rfl
@[simp] theorem rput_groupLoad (s : State) (f : Fld) (v i c : Nat) : (s.rput f v i c).groupLoad = s.groupLoad := rfl
@[simp] theorem rput_lines (s : State) (f : Fld) (v i c : Nat) : (s.rput f v i c).lines = s.lines := rfl
@[simp] theorem rput_l2Clock (s : State) (f : Fld) (v i c : Nat) : (s.rput f v i c).l2Clock = s.l2Clock := rfl
@[simp] theorem rput_l2Off (s : State) (f : Fld) (v i c : Nat) : (s.rput f v i c).l2Off = s.l2Off := rfl
@[simp] theorem rput_victimUsed (s : State) (f : Fld) (v i c : Nat) : (s.rput f v i c).victimUsed = s.victimUsed := rfl
@[simp] theorem rput_victimBudget (s : State) (f : Fld) (v i c : Nat) : (s.rput f v i c).victimBudget = s.victimBudget := rfl
@[simp] theorem rput_domainStopped (s : State) (f : Fld) (v i c : Nat) : (s.rput f v i c).domainStopped = s.domainStopped := rfl
@[simp] theorem rput_domainErr (s : State) (f : Fld) (v i c : Nat) : (s.rput f v i c).domainErr = s.domainErr := rfl
@[simp] theorem rput_domainResets (s : State) (f : Fld) (v i c : Nat) : (s.rput f v i c).domainResets = s.domainResets := rfl
@[simp] theorem rput_boot (s : State) (f : Fld) (v i c : Nat) : (s.rput f v i c).boot = s.boot := rfl
@[simp] theorem rput_store (s : State) (f : Fld) (v i c : Nat) : (s.rput f v i c).store = s.store := rfl
@[simp] theorem rput_sp (s : State) (f : Fld) (v i c : Nat) : (s.rput f v i c).sp = s.sp := rfl
@[simp] theorem rput_chain (s : State) (f : Fld) (v i c : Nat) : (s.rput f v i c).chain = s.chain := rfl
@[simp] theorem rput_regions (s : State) (f : Fld) (v i c : Nat) : (s.rput f v i c).regions = s.regions := rfl
@[simp] theorem rput_recSince (s : State) (f : Fld) (v i c : Nat) : (s.rput f v i c).recSince = s.recSince := rfl
@[simp] theorem rput_calmSince (s : State) (f : Fld) (v i c : Nat) : (s.rput f v i c).calmSince = s.calmSince := rfl
@[simp] theorem rput_feSince (s : State) (f : Fld) (v i c : Nat) : (s.rput f v i c).feSince = s.feSince := rfl
@[simp] theorem rput_feFault (s : State) (f : Fld) (v i c : Nat) : (s.rput f v i c).feFault = s.feFault := rfl
@[simp] theorem rput_reads (s : State) (f : Fld) (v i c : Nat) : (s.rput f v i c).reads = s.reads := rfl

/-! ### rbump -/

@[simp] theorem rbump_pending (s : State) (f : Fld) (n i c : Nat) : (s.rbump f n i c).pending = s.pending := rfl
@[simp] theorem rbump_now (s : State) (f : Fld) (n i c : Nat) : (s.rbump f n i c).now = s.now := rfl
@[simp] theorem rbump_nowFrac (s : State) (f : Fld) (n i c : Nat) : (s.rbump f n i c).nowFrac = s.nowFrac := rfl
@[simp] theorem rbump_upClock (s : State) (f : Fld) (n i c : Nat) : (s.rbump f n i c).upClock = s.upClock := rfl
@[simp] theorem rbump_ctxStall (s : State) (f : Fld) (n i c : Nat) : (s.rbump f n i c).ctxStall = s.ctxStall := rfl
@[simp] theorem rbump_mem (s : State) (f : Fld) (n i c : Nat) : (s.rbump f n i c).mem = s.mem := rfl
@[simp] theorem rbump_undef (s : State) (f : Fld) (n i c : Nat) : (s.rbump f n i c).undef = s.undef := rfl
@[simp] theorem rbump_poison (s : State) (f : Fld) (n i c : Nat) : (s.rbump f n i c).poison = s.poison := rfl
@[simp] theorem rbump_cores (s : State) (f : Fld) (n i c : Nat) : (s.rbump f n i c).cores = s.cores := rfl
@[simp] theorem rbump_launches (s : State) (f : Fld) (n i c : Nat) : (s.rbump f n i c).launches = s.launches := rfl
@[simp] theorem rbump_nextLaunch (s : State) (f : Fld) (n i c : Nat) : (s.rbump f n i c).nextLaunch = s.nextLaunch := rfl
@[simp] theorem rbump_nextUid (s : State) (f : Fld) (n i c : Nat) : (s.rbump f n i c).nextUid = s.nextUid := rfl
@[simp] theorem rbump_movers (s : State) (f : Fld) (n i c : Nat) : (s.rbump f n i c).movers = s.movers := rfl
@[simp] theorem rbump_windowNotified (s : State) (f : Fld) (n i c : Nat) : (s.rbump f n i c).windowNotified = s.windowNotified := rfl
@[simp] theorem rbump_windowDecreased (s : State) (f : Fld) (n i c : Nat) : (s.rbump f n i c).windowDecreased = s.windowDecreased := rfl
@[simp] theorem rbump_contexts (s : State) (f : Fld) (n i c : Nat) : (s.rbump f n i c).contexts = s.contexts := rfl
@[simp] theorem rbump_queues (s : State) (f : Fld) (n i c : Nat) : (s.rbump f n i c).queues = s.queues := rfl
@[simp] theorem rbump_ranges (s : State) (f : Fld) (n i c : Nat) : (s.rbump f n i c).ranges = s.ranges := rfl
@[simp] theorem rbump_allocs (s : State) (f : Fld) (n i c : Nat) : (s.rbump f n i c).allocs = s.allocs := rfl
@[simp] theorem rbump_eventObjs (s : State) (f : Fld) (n i c : Nat) : (s.rbump f n i c).eventObjs = s.eventObjs := rfl
@[simp] theorem rbump_unanswered (s : State) (f : Fld) (n i c : Nat) : (s.rbump f n i c).unanswered = s.unanswered := rfl
@[simp] theorem rbump_sent (s : State) (f : Fld) (n i c : Nat) : (s.rbump f n i c).sent = s.sent := rfl
@[simp] theorem rbump_value (s : State) (f : Fld) (n i c : Nat) : (s.rbump f n i c).value = s.value := rfl
@[simp] theorem rbump_status (s : State) (f : Fld) (n i c : Nat) : (s.rbump f n i c).status = s.status := rfl
@[simp] theorem rbump_channels (s : State) (f : Fld) (n i c : Nat) : (s.rbump f n i c).channels = s.channels := rfl
@[simp] theorem rbump_retireCand (s : State) (f : Fld) (n i c : Nat) : (s.rbump f n i c).retireCand = s.retireCand := rfl
@[simp] theorem rbump_wayCand (s : State) (f : Fld) (n i c : Nat) : (s.rbump f n i c).wayCand = s.wayCand := rfl
@[simp] theorem rbump_retired (s : State) (f : Fld) (n i c : Nat) : (s.rbump f n i c).retired = s.retired := rfl
@[simp] theorem rbump_partitions (s : State) (f : Fld) (n i c : Nat) : (s.rbump f n i c).partitions = s.partitions := rfl
@[simp] theorem rbump_mt (s : State) (f : Fld) (n i c : Nat) : (s.rbump f n i c).mt = s.mt := rfl
@[simp] theorem rbump_pw (s : State) (f : Fld) (n i c : Nat) : (s.rbump f n i c).pw = s.pw := rfl
@[simp] theorem rbump_el (s : State) (f : Fld) (n i c : Nat) : (s.rbump f n i c).el = s.el := rfl
@[simp] theorem rbump_exportObj (s : State) (f : Fld) (n i c : Nat) : (s.rbump f n i c).exportObj = s.exportObj := rfl
@[simp] theorem rbump_lastWindow (s : State) (f : Fld) (n i c : Nat) : (s.rbump f n i c).lastWindow = s.lastWindow := rfl
@[simp] theorem rbump_sugar (s : State) (f : Fld) (n i c : Nat) : (s.rbump f n i c).sugar = s.sugar := rfl
@[simp] theorem rbump_uc (s : State) (f : Fld) (n i c : Nat) : (s.rbump f n i c).uc = s.uc := rfl
@[simp] theorem rbump_submits (s : State) (f : Fld) (n i c : Nat) : (s.rbump f n i c).submits = s.submits := rfl
@[simp] theorem rbump_tuLookups (s : State) (f : Fld) (n i c : Nat) : (s.rbump f n i c).tuLookups = s.tuLookups := rfl
@[simp] theorem rbump_rescrubbed (s : State) (f : Fld) (n i c : Nat) : (s.rbump f n i c).rescrubbed = s.rescrubbed := rfl
@[simp] theorem rbump_groupHeld (s : State) (f : Fld) (n i c : Nat) : (s.rbump f n i c).groupHeld = s.groupHeld := rfl
@[simp] theorem rbump_groupLoad (s : State) (f : Fld) (n i c : Nat) : (s.rbump f n i c).groupLoad = s.groupLoad := rfl
@[simp] theorem rbump_lines (s : State) (f : Fld) (n i c : Nat) : (s.rbump f n i c).lines = s.lines := rfl
@[simp] theorem rbump_l2Clock (s : State) (f : Fld) (n i c : Nat) : (s.rbump f n i c).l2Clock = s.l2Clock := rfl
@[simp] theorem rbump_l2Off (s : State) (f : Fld) (n i c : Nat) : (s.rbump f n i c).l2Off = s.l2Off := rfl
@[simp] theorem rbump_victimUsed (s : State) (f : Fld) (n i c : Nat) : (s.rbump f n i c).victimUsed = s.victimUsed := rfl
@[simp] theorem rbump_victimBudget (s : State) (f : Fld) (n i c : Nat) : (s.rbump f n i c).victimBudget = s.victimBudget := rfl
@[simp] theorem rbump_domainStopped (s : State) (f : Fld) (n i c : Nat) : (s.rbump f n i c).domainStopped = s.domainStopped := rfl
@[simp] theorem rbump_domainErr (s : State) (f : Fld) (n i c : Nat) : (s.rbump f n i c).domainErr = s.domainErr := rfl
@[simp] theorem rbump_domainResets (s : State) (f : Fld) (n i c : Nat) : (s.rbump f n i c).domainResets = s.domainResets := rfl
@[simp] theorem rbump_boot (s : State) (f : Fld) (n i c : Nat) : (s.rbump f n i c).boot = s.boot := rfl
@[simp] theorem rbump_store (s : State) (f : Fld) (n i c : Nat) : (s.rbump f n i c).store = s.store := rfl
@[simp] theorem rbump_sp (s : State) (f : Fld) (n i c : Nat) : (s.rbump f n i c).sp = s.sp := rfl
@[simp] theorem rbump_chain (s : State) (f : Fld) (n i c : Nat) : (s.rbump f n i c).chain = s.chain := rfl
@[simp] theorem rbump_regions (s : State) (f : Fld) (n i c : Nat) : (s.rbump f n i c).regions = s.regions := rfl
@[simp] theorem rbump_recSince (s : State) (f : Fld) (n i c : Nat) : (s.rbump f n i c).recSince = s.recSince := rfl
@[simp] theorem rbump_calmSince (s : State) (f : Fld) (n i c : Nat) : (s.rbump f n i c).calmSince = s.calmSince := rfl
@[simp] theorem rbump_feSince (s : State) (f : Fld) (n i c : Nat) : (s.rbump f n i c).feSince = s.feSince := rfl
@[simp] theorem rbump_feFault (s : State) (f : Fld) (n i c : Nat) : (s.rbump f n i c).feFault = s.feFault := rfl
@[simp] theorem rbump_reads (s : State) (f : Fld) (n i c : Nat) : (s.rbump f n i c).reads = s.reads := rfl

/-! ### setRaw -/

@[simp] theorem setRaw_pending (s : State) (r : RegName) (v : Nat) : (RegName.setRaw s r v).pending = s.pending := rfl
@[simp] theorem setRaw_now (s : State) (r : RegName) (v : Nat) : (RegName.setRaw s r v).now = s.now := rfl
@[simp] theorem setRaw_nowFrac (s : State) (r : RegName) (v : Nat) : (RegName.setRaw s r v).nowFrac = s.nowFrac := rfl
@[simp] theorem setRaw_upClock (s : State) (r : RegName) (v : Nat) : (RegName.setRaw s r v).upClock = s.upClock := rfl
@[simp] theorem setRaw_ctxStall (s : State) (r : RegName) (v : Nat) : (RegName.setRaw s r v).ctxStall = s.ctxStall := rfl
@[simp] theorem setRaw_mem (s : State) (r : RegName) (v : Nat) : (RegName.setRaw s r v).mem = s.mem := rfl
@[simp] theorem setRaw_undef (s : State) (r : RegName) (v : Nat) : (RegName.setRaw s r v).undef = s.undef := rfl
@[simp] theorem setRaw_poison (s : State) (r : RegName) (v : Nat) : (RegName.setRaw s r v).poison = s.poison := rfl
@[simp] theorem setRaw_cores (s : State) (r : RegName) (v : Nat) : (RegName.setRaw s r v).cores = s.cores := rfl
@[simp] theorem setRaw_launches (s : State) (r : RegName) (v : Nat) : (RegName.setRaw s r v).launches = s.launches := rfl
@[simp] theorem setRaw_nextLaunch (s : State) (r : RegName) (v : Nat) : (RegName.setRaw s r v).nextLaunch = s.nextLaunch := rfl
@[simp] theorem setRaw_nextUid (s : State) (r : RegName) (v : Nat) : (RegName.setRaw s r v).nextUid = s.nextUid := rfl
@[simp] theorem setRaw_movers (s : State) (r : RegName) (v : Nat) : (RegName.setRaw s r v).movers = s.movers := rfl
@[simp] theorem setRaw_windowNotified (s : State) (r : RegName) (v : Nat) : (RegName.setRaw s r v).windowNotified = s.windowNotified := rfl
@[simp] theorem setRaw_windowDecreased (s : State) (r : RegName) (v : Nat) : (RegName.setRaw s r v).windowDecreased = s.windowDecreased := rfl
@[simp] theorem setRaw_contexts (s : State) (r : RegName) (v : Nat) : (RegName.setRaw s r v).contexts = s.contexts := rfl
@[simp] theorem setRaw_queues (s : State) (r : RegName) (v : Nat) : (RegName.setRaw s r v).queues = s.queues := rfl
@[simp] theorem setRaw_ranges (s : State) (r : RegName) (v : Nat) : (RegName.setRaw s r v).ranges = s.ranges := rfl
@[simp] theorem setRaw_allocs (s : State) (r : RegName) (v : Nat) : (RegName.setRaw s r v).allocs = s.allocs := rfl
@[simp] theorem setRaw_eventObjs (s : State) (r : RegName) (v : Nat) : (RegName.setRaw s r v).eventObjs = s.eventObjs := rfl
@[simp] theorem setRaw_unanswered (s : State) (r : RegName) (v : Nat) : (RegName.setRaw s r v).unanswered = s.unanswered := rfl
@[simp] theorem setRaw_sent (s : State) (r : RegName) (v : Nat) : (RegName.setRaw s r v).sent = s.sent := rfl
@[simp] theorem setRaw_value (s : State) (r : RegName) (v : Nat) : (RegName.setRaw s r v).value = s.value := rfl
@[simp] theorem setRaw_status (s : State) (r : RegName) (v : Nat) : (RegName.setRaw s r v).status = s.status := rfl
@[simp] theorem setRaw_channels (s : State) (r : RegName) (v : Nat) : (RegName.setRaw s r v).channels = s.channels := rfl
@[simp] theorem setRaw_retireCand (s : State) (r : RegName) (v : Nat) : (RegName.setRaw s r v).retireCand = s.retireCand := rfl
@[simp] theorem setRaw_wayCand (s : State) (r : RegName) (v : Nat) : (RegName.setRaw s r v).wayCand = s.wayCand := rfl
@[simp] theorem setRaw_retired (s : State) (r : RegName) (v : Nat) : (RegName.setRaw s r v).retired = s.retired := rfl
@[simp] theorem setRaw_partitions (s : State) (r : RegName) (v : Nat) : (RegName.setRaw s r v).partitions = s.partitions := rfl
@[simp] theorem setRaw_mt (s : State) (r : RegName) (v : Nat) : (RegName.setRaw s r v).mt = s.mt := rfl
@[simp] theorem setRaw_pw (s : State) (r : RegName) (v : Nat) : (RegName.setRaw s r v).pw = s.pw := rfl
@[simp] theorem setRaw_el (s : State) (r : RegName) (v : Nat) : (RegName.setRaw s r v).el = s.el := rfl
@[simp] theorem setRaw_exportObj (s : State) (r : RegName) (v : Nat) : (RegName.setRaw s r v).exportObj = s.exportObj := rfl
@[simp] theorem setRaw_lastWindow (s : State) (r : RegName) (v : Nat) : (RegName.setRaw s r v).lastWindow = s.lastWindow := rfl
@[simp] theorem setRaw_sugar (s : State) (r : RegName) (v : Nat) : (RegName.setRaw s r v).sugar = s.sugar := rfl
@[simp] theorem setRaw_uc (s : State) (r : RegName) (v : Nat) : (RegName.setRaw s r v).uc = s.uc := rfl
@[simp] theorem setRaw_submits (s : State) (r : RegName) (v : Nat) : (RegName.setRaw s r v).submits = s.submits := rfl
@[simp] theorem setRaw_tuLookups (s : State) (r : RegName) (v : Nat) : (RegName.setRaw s r v).tuLookups = s.tuLookups := rfl
@[simp] theorem setRaw_rescrubbed (s : State) (r : RegName) (v : Nat) : (RegName.setRaw s r v).rescrubbed = s.rescrubbed := rfl
@[simp] theorem setRaw_groupHeld (s : State) (r : RegName) (v : Nat) : (RegName.setRaw s r v).groupHeld = s.groupHeld := rfl
@[simp] theorem setRaw_groupLoad (s : State) (r : RegName) (v : Nat) : (RegName.setRaw s r v).groupLoad = s.groupLoad := rfl
@[simp] theorem setRaw_lines (s : State) (r : RegName) (v : Nat) : (RegName.setRaw s r v).lines = s.lines := rfl
@[simp] theorem setRaw_l2Clock (s : State) (r : RegName) (v : Nat) : (RegName.setRaw s r v).l2Clock = s.l2Clock := rfl
@[simp] theorem setRaw_l2Off (s : State) (r : RegName) (v : Nat) : (RegName.setRaw s r v).l2Off = s.l2Off := rfl
@[simp] theorem setRaw_victimUsed (s : State) (r : RegName) (v : Nat) : (RegName.setRaw s r v).victimUsed = s.victimUsed := rfl
@[simp] theorem setRaw_victimBudget (s : State) (r : RegName) (v : Nat) : (RegName.setRaw s r v).victimBudget = s.victimBudget := rfl
@[simp] theorem setRaw_domainStopped (s : State) (r : RegName) (v : Nat) : (RegName.setRaw s r v).domainStopped = s.domainStopped := rfl
@[simp] theorem setRaw_domainErr (s : State) (r : RegName) (v : Nat) : (RegName.setRaw s r v).domainErr = s.domainErr := rfl
@[simp] theorem setRaw_domainResets (s : State) (r : RegName) (v : Nat) : (RegName.setRaw s r v).domainResets = s.domainResets := rfl
@[simp] theorem setRaw_boot (s : State) (r : RegName) (v : Nat) : (RegName.setRaw s r v).boot = s.boot := rfl
@[simp] theorem setRaw_store (s : State) (r : RegName) (v : Nat) : (RegName.setRaw s r v).store = s.store := rfl
@[simp] theorem setRaw_sp (s : State) (r : RegName) (v : Nat) : (RegName.setRaw s r v).sp = s.sp := rfl
@[simp] theorem setRaw_chain (s : State) (r : RegName) (v : Nat) : (RegName.setRaw s r v).chain = s.chain := rfl
@[simp] theorem setRaw_regions (s : State) (r : RegName) (v : Nat) : (RegName.setRaw s r v).regions = s.regions := rfl
@[simp] theorem setRaw_recSince (s : State) (r : RegName) (v : Nat) : (RegName.setRaw s r v).recSince = s.recSince := rfl
@[simp] theorem setRaw_calmSince (s : State) (r : RegName) (v : Nat) : (RegName.setRaw s r v).calmSince = s.calmSince := rfl
@[simp] theorem setRaw_feSince (s : State) (r : RegName) (v : Nat) : (RegName.setRaw s r v).feSince = s.feSince := rfl
@[simp] theorem setRaw_feFault (s : State) (r : RegName) (v : Nat) : (RegName.setRaw s r v).feFault = s.feFault := rfl
@[simp] theorem setRaw_reads (s : State) (r : RegName) (v : Nat) : (RegName.setRaw s r v).reads = s.reads := rfl

/-! ### answer -/

@[simp] theorem answer_pending (s : State) (st v : Nat) : (s.answer st v).pending = s.pending := rfl
@[simp] theorem answer_now (s : State) (st v : Nat) : (s.answer st v).now = s.now := rfl
@[simp] theorem answer_nowFrac (s : State) (st v : Nat) : (s.answer st v).nowFrac = s.nowFrac := rfl
@[simp] theorem answer_upClock (s : State) (st v : Nat) : (s.answer st v).upClock = s.upClock := rfl
@[simp] theorem answer_ctxStall (s : State) (st v : Nat) : (s.answer st v).ctxStall = s.ctxStall := rfl
@[simp] theorem answer_regs (s : State) (st v : Nat) : (s.answer st v).regs = s.regs := rfl
@[simp] theorem answer_mem (s : State) (st v : Nat) : (s.answer st v).mem = s.mem := rfl
@[simp] theorem answer_undef (s : State) (st v : Nat) : (s.answer st v).undef = s.undef := rfl
@[simp] theorem answer_poison (s : State) (st v : Nat) : (s.answer st v).poison = s.poison := rfl
@[simp] theorem answer_cores (s : State) (st v : Nat) : (s.answer st v).cores = s.cores := rfl
@[simp] theorem answer_launches (s : State) (st v : Nat) : (s.answer st v).launches = s.launches := rfl
@[simp] theorem answer_nextLaunch (s : State) (st v : Nat) : (s.answer st v).nextLaunch = s.nextLaunch := rfl
@[simp] theorem answer_nextUid (s : State) (st v : Nat) : (s.answer st v).nextUid = s.nextUid := rfl
@[simp] theorem answer_movers (s : State) (st v : Nat) : (s.answer st v).movers = s.movers := rfl
@[simp] theorem answer_windowNotified (s : State) (st v : Nat) : (s.answer st v).windowNotified = s.windowNotified := rfl
@[simp] theorem answer_windowDecreased (s : State) (st v : Nat) : (s.answer st v).windowDecreased = s.windowDecreased := rfl
@[simp] theorem answer_contexts (s : State) (st v : Nat) : (s.answer st v).contexts = s.contexts := rfl
@[simp] theorem answer_queues (s : State) (st v : Nat) : (s.answer st v).queues = s.queues := rfl
@[simp] theorem answer_ranges (s : State) (st v : Nat) : (s.answer st v).ranges = s.ranges := rfl
@[simp] theorem answer_allocs (s : State) (st v : Nat) : (s.answer st v).allocs = s.allocs := rfl
@[simp] theorem answer_eventObjs (s : State) (st v : Nat) : (s.answer st v).eventObjs = s.eventObjs := rfl
@[simp] theorem answer_unanswered (s : State) (st v : Nat) : (s.answer st v).unanswered = s.unanswered := rfl
@[simp] theorem answer_sent (s : State) (st v : Nat) : (s.answer st v).sent = s.sent := rfl
@[simp] theorem answer_channels (s : State) (st v : Nat) : (s.answer st v).channels = s.channels := rfl
@[simp] theorem answer_retireCand (s : State) (st v : Nat) : (s.answer st v).retireCand = s.retireCand := rfl
@[simp] theorem answer_wayCand (s : State) (st v : Nat) : (s.answer st v).wayCand = s.wayCand := rfl
@[simp] theorem answer_retired (s : State) (st v : Nat) : (s.answer st v).retired = s.retired := rfl
@[simp] theorem answer_partitions (s : State) (st v : Nat) : (s.answer st v).partitions = s.partitions := rfl
@[simp] theorem answer_mt (s : State) (st v : Nat) : (s.answer st v).mt = s.mt := rfl
@[simp] theorem answer_pw (s : State) (st v : Nat) : (s.answer st v).pw = s.pw := rfl
@[simp] theorem answer_el (s : State) (st v : Nat) : (s.answer st v).el = s.el := rfl
@[simp] theorem answer_exportObj (s : State) (st v : Nat) : (s.answer st v).exportObj = s.exportObj := rfl
@[simp] theorem answer_lastWindow (s : State) (st v : Nat) : (s.answer st v).lastWindow = s.lastWindow := rfl
@[simp] theorem answer_sugar (s : State) (st v : Nat) : (s.answer st v).sugar = s.sugar := rfl
@[simp] theorem answer_uc (s : State) (st v : Nat) : (s.answer st v).uc = s.uc := rfl
@[simp] theorem answer_submits (s : State) (st v : Nat) : (s.answer st v).submits = s.submits := rfl
@[simp] theorem answer_tuLookups (s : State) (st v : Nat) : (s.answer st v).tuLookups = s.tuLookups := rfl
@[simp] theorem answer_rescrubbed (s : State) (st v : Nat) : (s.answer st v).rescrubbed = s.rescrubbed := rfl
@[simp] theorem answer_groupHeld (s : State) (st v : Nat) : (s.answer st v).groupHeld = s.groupHeld := rfl
@[simp] theorem answer_groupLoad (s : State) (st v : Nat) : (s.answer st v).groupLoad = s.groupLoad := rfl
@[simp] theorem answer_lines (s : State) (st v : Nat) : (s.answer st v).lines = s.lines := rfl
@[simp] theorem answer_l2Clock (s : State) (st v : Nat) : (s.answer st v).l2Clock = s.l2Clock := rfl
@[simp] theorem answer_l2Off (s : State) (st v : Nat) : (s.answer st v).l2Off = s.l2Off := rfl
@[simp] theorem answer_victimUsed (s : State) (st v : Nat) : (s.answer st v).victimUsed = s.victimUsed := rfl
@[simp] theorem answer_victimBudget (s : State) (st v : Nat) : (s.answer st v).victimBudget = s.victimBudget := rfl
@[simp] theorem answer_domainStopped (s : State) (st v : Nat) : (s.answer st v).domainStopped = s.domainStopped := rfl
@[simp] theorem answer_domainErr (s : State) (st v : Nat) : (s.answer st v).domainErr = s.domainErr := rfl
@[simp] theorem answer_domainResets (s : State) (st v : Nat) : (s.answer st v).domainResets = s.domainResets := rfl
@[simp] theorem answer_boot (s : State) (st v : Nat) : (s.answer st v).boot = s.boot := rfl
@[simp] theorem answer_store (s : State) (st v : Nat) : (s.answer st v).store = s.store := rfl
@[simp] theorem answer_sp (s : State) (st v : Nat) : (s.answer st v).sp = s.sp := rfl
@[simp] theorem answer_chain (s : State) (st v : Nat) : (s.answer st v).chain = s.chain := rfl
@[simp] theorem answer_regions (s : State) (st v : Nat) : (s.answer st v).regions = s.regions := rfl
@[simp] theorem answer_recSince (s : State) (st v : Nat) : (s.answer st v).recSince = s.recSince := rfl
@[simp] theorem answer_calmSince (s : State) (st v : Nat) : (s.answer st v).calmSince = s.calmSince := rfl
@[simp] theorem answer_feSince (s : State) (st v : Nat) : (s.answer st v).feSince = s.feSince := rfl
@[simp] theorem answer_feFault (s : State) (st v : Nat) : (s.answer st v).feFault = s.feFault := rfl
@[simp] theorem answer_reads (s : State) (st v : Nat) : (s.answer st v).reads = s.reads := rfl

/-! ### putByte -/

@[simp] theorem putByte_pending (s : State) (a : Nat) (b : Byte) : (s.putByte a b).pending = s.pending := rfl
@[simp] theorem putByte_now (s : State) (a : Nat) (b : Byte) : (s.putByte a b).now = s.now := rfl
@[simp] theorem putByte_nowFrac (s : State) (a : Nat) (b : Byte) : (s.putByte a b).nowFrac = s.nowFrac := rfl
@[simp] theorem putByte_upClock (s : State) (a : Nat) (b : Byte) : (s.putByte a b).upClock = s.upClock := rfl
@[simp] theorem putByte_ctxStall (s : State) (a : Nat) (b : Byte) : (s.putByte a b).ctxStall = s.ctxStall := rfl
@[simp] theorem putByte_regs (s : State) (a : Nat) (b : Byte) : (s.putByte a b).regs = s.regs := rfl
@[simp] theorem putByte_undef (s : State) (a : Nat) (b : Byte) : (s.putByte a b).undef = s.undef := rfl
@[simp] theorem putByte_poison (s : State) (a : Nat) (b : Byte) : (s.putByte a b).poison = s.poison := rfl
@[simp] theorem putByte_cores (s : State) (a : Nat) (b : Byte) : (s.putByte a b).cores = s.cores := rfl
@[simp] theorem putByte_launches (s : State) (a : Nat) (b : Byte) : (s.putByte a b).launches = s.launches := rfl
@[simp] theorem putByte_nextLaunch (s : State) (a : Nat) (b : Byte) : (s.putByte a b).nextLaunch = s.nextLaunch := rfl
@[simp] theorem putByte_nextUid (s : State) (a : Nat) (b : Byte) : (s.putByte a b).nextUid = s.nextUid := rfl
@[simp] theorem putByte_movers (s : State) (a : Nat) (b : Byte) : (s.putByte a b).movers = s.movers := rfl
@[simp] theorem putByte_windowNotified (s : State) (a : Nat) (b : Byte) : (s.putByte a b).windowNotified = s.windowNotified := rfl
@[simp] theorem putByte_windowDecreased (s : State) (a : Nat) (b : Byte) : (s.putByte a b).windowDecreased = s.windowDecreased := rfl
@[simp] theorem putByte_contexts (s : State) (a : Nat) (b : Byte) : (s.putByte a b).contexts = s.contexts := rfl
@[simp] theorem putByte_queues (s : State) (a : Nat) (b : Byte) : (s.putByte a b).queues = s.queues := rfl
@[simp] theorem putByte_ranges (s : State) (a : Nat) (b : Byte) : (s.putByte a b).ranges = s.ranges := rfl
@[simp] theorem putByte_allocs (s : State) (a : Nat) (b : Byte) : (s.putByte a b).allocs = s.allocs := rfl
@[simp] theorem putByte_eventObjs (s : State) (a : Nat) (b : Byte) : (s.putByte a b).eventObjs = s.eventObjs := rfl
@[simp] theorem putByte_unanswered (s : State) (a : Nat) (b : Byte) : (s.putByte a b).unanswered = s.unanswered := rfl
@[simp] theorem putByte_sent (s : State) (a : Nat) (b : Byte) : (s.putByte a b).sent = s.sent := rfl
@[simp] theorem putByte_value (s : State) (a : Nat) (b : Byte) : (s.putByte a b).value = s.value := rfl
@[simp] theorem putByte_status (s : State) (a : Nat) (b : Byte) : (s.putByte a b).status = s.status := rfl
@[simp] theorem putByte_channels (s : State) (a : Nat) (b : Byte) : (s.putByte a b).channels = s.channels := rfl
@[simp] theorem putByte_retireCand (s : State) (a : Nat) (b : Byte) : (s.putByte a b).retireCand = s.retireCand := rfl
@[simp] theorem putByte_wayCand (s : State) (a : Nat) (b : Byte) : (s.putByte a b).wayCand = s.wayCand := rfl
@[simp] theorem putByte_retired (s : State) (a : Nat) (b : Byte) : (s.putByte a b).retired = s.retired := rfl
@[simp] theorem putByte_partitions (s : State) (a : Nat) (b : Byte) : (s.putByte a b).partitions = s.partitions := rfl
@[simp] theorem putByte_mt (s : State) (a : Nat) (b : Byte) : (s.putByte a b).mt = s.mt := rfl
@[simp] theorem putByte_pw (s : State) (a : Nat) (b : Byte) : (s.putByte a b).pw = s.pw := rfl
@[simp] theorem putByte_el (s : State) (a : Nat) (b : Byte) : (s.putByte a b).el = s.el := rfl
@[simp] theorem putByte_exportObj (s : State) (a : Nat) (b : Byte) : (s.putByte a b).exportObj = s.exportObj := rfl
@[simp] theorem putByte_lastWindow (s : State) (a : Nat) (b : Byte) : (s.putByte a b).lastWindow = s.lastWindow := rfl
@[simp] theorem putByte_sugar (s : State) (a : Nat) (b : Byte) : (s.putByte a b).sugar = s.sugar := rfl
@[simp] theorem putByte_uc (s : State) (a : Nat) (b : Byte) : (s.putByte a b).uc = s.uc := rfl
@[simp] theorem putByte_submits (s : State) (a : Nat) (b : Byte) : (s.putByte a b).submits = s.submits := rfl
@[simp] theorem putByte_tuLookups (s : State) (a : Nat) (b : Byte) : (s.putByte a b).tuLookups = s.tuLookups := rfl
@[simp] theorem putByte_rescrubbed (s : State) (a : Nat) (b : Byte) : (s.putByte a b).rescrubbed = s.rescrubbed := rfl
@[simp] theorem putByte_groupHeld (s : State) (a : Nat) (b : Byte) : (s.putByte a b).groupHeld = s.groupHeld := rfl
@[simp] theorem putByte_groupLoad (s : State) (a : Nat) (b : Byte) : (s.putByte a b).groupLoad = s.groupLoad := rfl
@[simp] theorem putByte_lines (s : State) (a : Nat) (b : Byte) : (s.putByte a b).lines = s.lines := rfl
@[simp] theorem putByte_l2Clock (s : State) (a : Nat) (b : Byte) : (s.putByte a b).l2Clock = s.l2Clock := rfl
@[simp] theorem putByte_l2Off (s : State) (a : Nat) (b : Byte) : (s.putByte a b).l2Off = s.l2Off := rfl
@[simp] theorem putByte_victimUsed (s : State) (a : Nat) (b : Byte) : (s.putByte a b).victimUsed = s.victimUsed := rfl
@[simp] theorem putByte_victimBudget (s : State) (a : Nat) (b : Byte) : (s.putByte a b).victimBudget = s.victimBudget := rfl
@[simp] theorem putByte_domainStopped (s : State) (a : Nat) (b : Byte) : (s.putByte a b).domainStopped = s.domainStopped := rfl
@[simp] theorem putByte_domainErr (s : State) (a : Nat) (b : Byte) : (s.putByte a b).domainErr = s.domainErr := rfl
@[simp] theorem putByte_domainResets (s : State) (a : Nat) (b : Byte) : (s.putByte a b).domainResets = s.domainResets := rfl
@[simp] theorem putByte_boot (s : State) (a : Nat) (b : Byte) : (s.putByte a b).boot = s.boot := rfl
@[simp] theorem putByte_store (s : State) (a : Nat) (b : Byte) : (s.putByte a b).store = s.store := rfl
@[simp] theorem putByte_sp (s : State) (a : Nat) (b : Byte) : (s.putByte a b).sp = s.sp := rfl
@[simp] theorem putByte_chain (s : State) (a : Nat) (b : Byte) : (s.putByte a b).chain = s.chain := rfl
@[simp] theorem putByte_regions (s : State) (a : Nat) (b : Byte) : (s.putByte a b).regions = s.regions := rfl
@[simp] theorem putByte_recSince (s : State) (a : Nat) (b : Byte) : (s.putByte a b).recSince = s.recSince := rfl
@[simp] theorem putByte_calmSince (s : State) (a : Nat) (b : Byte) : (s.putByte a b).calmSince = s.calmSince := rfl
@[simp] theorem putByte_feSince (s : State) (a : Nat) (b : Byte) : (s.putByte a b).feSince = s.feSince := rfl
@[simp] theorem putByte_feFault (s : State) (a : Nat) (b : Byte) : (s.putByte a b).feFault = s.feFault := rfl
@[simp] theorem putByte_reads (s : State) (a : Nat) (b : Byte) : (s.putByte a b).reads = s.reads := rfl

/-! ### putLE -/

@[simp] theorem putLE_pending (s : State) (a n v : Nat) : (s.putLE a n v).pending = s.pending := rfl
@[simp] theorem putLE_now (s : State) (a n v : Nat) : (s.putLE a n v).now = s.now := rfl
@[simp] theorem putLE_nowFrac (s : State) (a n v : Nat) : (s.putLE a n v).nowFrac = s.nowFrac := rfl
@[simp] theorem putLE_upClock (s : State) (a n v : Nat) : (s.putLE a n v).upClock = s.upClock := rfl
@[simp] theorem putLE_ctxStall (s : State) (a n v : Nat) : (s.putLE a n v).ctxStall = s.ctxStall := rfl
@[simp] theorem putLE_regs (s : State) (a n v : Nat) : (s.putLE a n v).regs = s.regs := rfl
@[simp] theorem putLE_undef (s : State) (a n v : Nat) : (s.putLE a n v).undef = s.undef := rfl
@[simp] theorem putLE_poison (s : State) (a n v : Nat) : (s.putLE a n v).poison = s.poison := rfl
@[simp] theorem putLE_cores (s : State) (a n v : Nat) : (s.putLE a n v).cores = s.cores := rfl
@[simp] theorem putLE_launches (s : State) (a n v : Nat) : (s.putLE a n v).launches = s.launches := rfl
@[simp] theorem putLE_nextLaunch (s : State) (a n v : Nat) : (s.putLE a n v).nextLaunch = s.nextLaunch := rfl
@[simp] theorem putLE_nextUid (s : State) (a n v : Nat) : (s.putLE a n v).nextUid = s.nextUid := rfl
@[simp] theorem putLE_movers (s : State) (a n v : Nat) : (s.putLE a n v).movers = s.movers := rfl
@[simp] theorem putLE_windowNotified (s : State) (a n v : Nat) : (s.putLE a n v).windowNotified = s.windowNotified := rfl
@[simp] theorem putLE_windowDecreased (s : State) (a n v : Nat) : (s.putLE a n v).windowDecreased = s.windowDecreased := rfl
@[simp] theorem putLE_contexts (s : State) (a n v : Nat) : (s.putLE a n v).contexts = s.contexts := rfl
@[simp] theorem putLE_queues (s : State) (a n v : Nat) : (s.putLE a n v).queues = s.queues := rfl
@[simp] theorem putLE_ranges (s : State) (a n v : Nat) : (s.putLE a n v).ranges = s.ranges := rfl
@[simp] theorem putLE_allocs (s : State) (a n v : Nat) : (s.putLE a n v).allocs = s.allocs := rfl
@[simp] theorem putLE_eventObjs (s : State) (a n v : Nat) : (s.putLE a n v).eventObjs = s.eventObjs := rfl
@[simp] theorem putLE_unanswered (s : State) (a n v : Nat) : (s.putLE a n v).unanswered = s.unanswered := rfl
@[simp] theorem putLE_sent (s : State) (a n v : Nat) : (s.putLE a n v).sent = s.sent := rfl
@[simp] theorem putLE_value (s : State) (a n v : Nat) : (s.putLE a n v).value = s.value := rfl
@[simp] theorem putLE_status (s : State) (a n v : Nat) : (s.putLE a n v).status = s.status := rfl
@[simp] theorem putLE_channels (s : State) (a n v : Nat) : (s.putLE a n v).channels = s.channels := rfl
@[simp] theorem putLE_retireCand (s : State) (a n v : Nat) : (s.putLE a n v).retireCand = s.retireCand := rfl
@[simp] theorem putLE_wayCand (s : State) (a n v : Nat) : (s.putLE a n v).wayCand = s.wayCand := rfl
@[simp] theorem putLE_retired (s : State) (a n v : Nat) : (s.putLE a n v).retired = s.retired := rfl
@[simp] theorem putLE_partitions (s : State) (a n v : Nat) : (s.putLE a n v).partitions = s.partitions := rfl
@[simp] theorem putLE_mt (s : State) (a n v : Nat) : (s.putLE a n v).mt = s.mt := rfl
@[simp] theorem putLE_pw (s : State) (a n v : Nat) : (s.putLE a n v).pw = s.pw := rfl
@[simp] theorem putLE_el (s : State) (a n v : Nat) : (s.putLE a n v).el = s.el := rfl
@[simp] theorem putLE_exportObj (s : State) (a n v : Nat) : (s.putLE a n v).exportObj = s.exportObj := rfl
@[simp] theorem putLE_lastWindow (s : State) (a n v : Nat) : (s.putLE a n v).lastWindow = s.lastWindow := rfl
@[simp] theorem putLE_sugar (s : State) (a n v : Nat) : (s.putLE a n v).sugar = s.sugar := rfl
@[simp] theorem putLE_uc (s : State) (a n v : Nat) : (s.putLE a n v).uc = s.uc := rfl
@[simp] theorem putLE_submits (s : State) (a n v : Nat) : (s.putLE a n v).submits = s.submits := rfl
@[simp] theorem putLE_tuLookups (s : State) (a n v : Nat) : (s.putLE a n v).tuLookups = s.tuLookups := rfl
@[simp] theorem putLE_rescrubbed (s : State) (a n v : Nat) : (s.putLE a n v).rescrubbed = s.rescrubbed := rfl
@[simp] theorem putLE_groupHeld (s : State) (a n v : Nat) : (s.putLE a n v).groupHeld = s.groupHeld := rfl
@[simp] theorem putLE_groupLoad (s : State) (a n v : Nat) : (s.putLE a n v).groupLoad = s.groupLoad := rfl
@[simp] theorem putLE_lines (s : State) (a n v : Nat) : (s.putLE a n v).lines = s.lines := rfl
@[simp] theorem putLE_l2Clock (s : State) (a n v : Nat) : (s.putLE a n v).l2Clock = s.l2Clock := rfl
@[simp] theorem putLE_l2Off (s : State) (a n v : Nat) : (s.putLE a n v).l2Off = s.l2Off := rfl
@[simp] theorem putLE_victimUsed (s : State) (a n v : Nat) : (s.putLE a n v).victimUsed = s.victimUsed := rfl
@[simp] theorem putLE_victimBudget (s : State) (a n v : Nat) : (s.putLE a n v).victimBudget = s.victimBudget := rfl
@[simp] theorem putLE_domainStopped (s : State) (a n v : Nat) : (s.putLE a n v).domainStopped = s.domainStopped := rfl
@[simp] theorem putLE_domainErr (s : State) (a n v : Nat) : (s.putLE a n v).domainErr = s.domainErr := rfl
@[simp] theorem putLE_domainResets (s : State) (a n v : Nat) : (s.putLE a n v).domainResets = s.domainResets := rfl
@[simp] theorem putLE_boot (s : State) (a n v : Nat) : (s.putLE a n v).boot = s.boot := rfl
@[simp] theorem putLE_store (s : State) (a n v : Nat) : (s.putLE a n v).store = s.store := rfl
@[simp] theorem putLE_sp (s : State) (a n v : Nat) : (s.putLE a n v).sp = s.sp := rfl
@[simp] theorem putLE_chain (s : State) (a n v : Nat) : (s.putLE a n v).chain = s.chain := rfl
@[simp] theorem putLE_regions (s : State) (a n v : Nat) : (s.putLE a n v).regions = s.regions := rfl
@[simp] theorem putLE_recSince (s : State) (a n v : Nat) : (s.putLE a n v).recSince = s.recSince := rfl
@[simp] theorem putLE_calmSince (s : State) (a n v : Nat) : (s.putLE a n v).calmSince = s.calmSince := rfl
@[simp] theorem putLE_feSince (s : State) (a n v : Nat) : (s.putLE a n v).feSince = s.feSince := rfl
@[simp] theorem putLE_feFault (s : State) (a n v : Nat) : (s.putLE a n v).feFault = s.feFault := rfl
@[simp] theorem putLE_reads (s : State) (a n v : Nat) : (s.putLE a n v).reads = s.reads := rfl

/-! ### setPoison -/

@[simp] theorem setPoison_pending (s : State) (w : Nat) (b : Bool) : (s.setPoison w b).pending = s.pending := rfl
@[simp] theorem setPoison_now (s : State) (w : Nat) (b : Bool) : (s.setPoison w b).now = s.now := rfl
@[simp] theorem setPoison_nowFrac (s : State) (w : Nat) (b : Bool) : (s.setPoison w b).nowFrac = s.nowFrac := rfl
@[simp] theorem setPoison_upClock (s : State) (w : Nat) (b : Bool) : (s.setPoison w b).upClock = s.upClock := rfl
@[simp] theorem setPoison_ctxStall (s : State) (w : Nat) (b : Bool) : (s.setPoison w b).ctxStall = s.ctxStall := rfl
@[simp] theorem setPoison_regs (s : State) (w : Nat) (b : Bool) : (s.setPoison w b).regs = s.regs := rfl
@[simp] theorem setPoison_mem (s : State) (w : Nat) (b : Bool) : (s.setPoison w b).mem = s.mem := rfl
@[simp] theorem setPoison_undef (s : State) (w : Nat) (b : Bool) : (s.setPoison w b).undef = s.undef := rfl
@[simp] theorem setPoison_cores (s : State) (w : Nat) (b : Bool) : (s.setPoison w b).cores = s.cores := rfl
@[simp] theorem setPoison_launches (s : State) (w : Nat) (b : Bool) : (s.setPoison w b).launches = s.launches := rfl
@[simp] theorem setPoison_nextLaunch (s : State) (w : Nat) (b : Bool) : (s.setPoison w b).nextLaunch = s.nextLaunch := rfl
@[simp] theorem setPoison_nextUid (s : State) (w : Nat) (b : Bool) : (s.setPoison w b).nextUid = s.nextUid := rfl
@[simp] theorem setPoison_movers (s : State) (w : Nat) (b : Bool) : (s.setPoison w b).movers = s.movers := rfl
@[simp] theorem setPoison_windowNotified (s : State) (w : Nat) (b : Bool) : (s.setPoison w b).windowNotified = s.windowNotified := rfl
@[simp] theorem setPoison_windowDecreased (s : State) (w : Nat) (b : Bool) : (s.setPoison w b).windowDecreased = s.windowDecreased := rfl
@[simp] theorem setPoison_contexts (s : State) (w : Nat) (b : Bool) : (s.setPoison w b).contexts = s.contexts := rfl
@[simp] theorem setPoison_queues (s : State) (w : Nat) (b : Bool) : (s.setPoison w b).queues = s.queues := rfl
@[simp] theorem setPoison_ranges (s : State) (w : Nat) (b : Bool) : (s.setPoison w b).ranges = s.ranges := rfl
@[simp] theorem setPoison_allocs (s : State) (w : Nat) (b : Bool) : (s.setPoison w b).allocs = s.allocs := rfl
@[simp] theorem setPoison_eventObjs (s : State) (w : Nat) (b : Bool) : (s.setPoison w b).eventObjs = s.eventObjs := rfl
@[simp] theorem setPoison_unanswered (s : State) (w : Nat) (b : Bool) : (s.setPoison w b).unanswered = s.unanswered := rfl
@[simp] theorem setPoison_sent (s : State) (w : Nat) (b : Bool) : (s.setPoison w b).sent = s.sent := rfl
@[simp] theorem setPoison_value (s : State) (w : Nat) (b : Bool) : (s.setPoison w b).value = s.value := rfl
@[simp] theorem setPoison_status (s : State) (w : Nat) (b : Bool) : (s.setPoison w b).status = s.status := rfl
@[simp] theorem setPoison_channels (s : State) (w : Nat) (b : Bool) : (s.setPoison w b).channels = s.channels := rfl
@[simp] theorem setPoison_retireCand (s : State) (w : Nat) (b : Bool) : (s.setPoison w b).retireCand = s.retireCand := rfl
@[simp] theorem setPoison_wayCand (s : State) (w : Nat) (b : Bool) : (s.setPoison w b).wayCand = s.wayCand := rfl
@[simp] theorem setPoison_retired (s : State) (w : Nat) (b : Bool) : (s.setPoison w b).retired = s.retired := rfl
@[simp] theorem setPoison_partitions (s : State) (w : Nat) (b : Bool) : (s.setPoison w b).partitions = s.partitions := rfl
@[simp] theorem setPoison_mt (s : State) (w : Nat) (b : Bool) : (s.setPoison w b).mt = s.mt := rfl
@[simp] theorem setPoison_pw (s : State) (w : Nat) (b : Bool) : (s.setPoison w b).pw = s.pw := rfl
@[simp] theorem setPoison_el (s : State) (w : Nat) (b : Bool) : (s.setPoison w b).el = s.el := rfl
@[simp] theorem setPoison_exportObj (s : State) (w : Nat) (b : Bool) : (s.setPoison w b).exportObj = s.exportObj := rfl
@[simp] theorem setPoison_lastWindow (s : State) (w : Nat) (b : Bool) : (s.setPoison w b).lastWindow = s.lastWindow := rfl
@[simp] theorem setPoison_sugar (s : State) (w : Nat) (b : Bool) : (s.setPoison w b).sugar = s.sugar := rfl
@[simp] theorem setPoison_uc (s : State) (w : Nat) (b : Bool) : (s.setPoison w b).uc = s.uc := rfl
@[simp] theorem setPoison_submits (s : State) (w : Nat) (b : Bool) : (s.setPoison w b).submits = s.submits := rfl
@[simp] theorem setPoison_tuLookups (s : State) (w : Nat) (b : Bool) : (s.setPoison w b).tuLookups = s.tuLookups := rfl
@[simp] theorem setPoison_rescrubbed (s : State) (w : Nat) (b : Bool) : (s.setPoison w b).rescrubbed = s.rescrubbed := rfl
@[simp] theorem setPoison_groupHeld (s : State) (w : Nat) (b : Bool) : (s.setPoison w b).groupHeld = s.groupHeld := rfl
@[simp] theorem setPoison_groupLoad (s : State) (w : Nat) (b : Bool) : (s.setPoison w b).groupLoad = s.groupLoad := rfl
@[simp] theorem setPoison_lines (s : State) (w : Nat) (b : Bool) : (s.setPoison w b).lines = s.lines := rfl
@[simp] theorem setPoison_l2Clock (s : State) (w : Nat) (b : Bool) : (s.setPoison w b).l2Clock = s.l2Clock := rfl
@[simp] theorem setPoison_l2Off (s : State) (w : Nat) (b : Bool) : (s.setPoison w b).l2Off = s.l2Off := rfl
@[simp] theorem setPoison_victimUsed (s : State) (w : Nat) (b : Bool) : (s.setPoison w b).victimUsed = s.victimUsed := rfl
@[simp] theorem setPoison_victimBudget (s : State) (w : Nat) (b : Bool) : (s.setPoison w b).victimBudget = s.victimBudget := rfl
@[simp] theorem setPoison_domainStopped (s : State) (w : Nat) (b : Bool) : (s.setPoison w b).domainStopped = s.domainStopped := rfl
@[simp] theorem setPoison_domainErr (s : State) (w : Nat) (b : Bool) : (s.setPoison w b).domainErr = s.domainErr := rfl
@[simp] theorem setPoison_domainResets (s : State) (w : Nat) (b : Bool) : (s.setPoison w b).domainResets = s.domainResets := rfl
@[simp] theorem setPoison_boot (s : State) (w : Nat) (b : Bool) : (s.setPoison w b).boot = s.boot := rfl
@[simp] theorem setPoison_store (s : State) (w : Nat) (b : Bool) : (s.setPoison w b).store = s.store := rfl
@[simp] theorem setPoison_sp (s : State) (w : Nat) (b : Bool) : (s.setPoison w b).sp = s.sp := rfl
@[simp] theorem setPoison_chain (s : State) (w : Nat) (b : Bool) : (s.setPoison w b).chain = s.chain := rfl
@[simp] theorem setPoison_regions (s : State) (w : Nat) (b : Bool) : (s.setPoison w b).regions = s.regions := rfl
@[simp] theorem setPoison_recSince (s : State) (w : Nat) (b : Bool) : (s.setPoison w b).recSince = s.recSince := rfl
@[simp] theorem setPoison_calmSince (s : State) (w : Nat) (b : Bool) : (s.setPoison w b).calmSince = s.calmSince := rfl
@[simp] theorem setPoison_feSince (s : State) (w : Nat) (b : Bool) : (s.setPoison w b).feSince = s.feSince := rfl
@[simp] theorem setPoison_feFault (s : State) (w : Nat) (b : Bool) : (s.setPoison w b).feFault = s.feFault := rfl
@[simp] theorem setPoison_reads (s : State) (w : Nat) (b : Bool) : (s.setPoison w b).reads = s.reads := rfl

/-! ### setCore -/

@[simp] theorem setCore_pending (s : State) (n : Nat) (c : Core) : (s.setCore n c).pending = s.pending := rfl
@[simp] theorem setCore_now (s : State) (n : Nat) (c : Core) : (s.setCore n c).now = s.now := rfl
@[simp] theorem setCore_nowFrac (s : State) (n : Nat) (c : Core) : (s.setCore n c).nowFrac = s.nowFrac := rfl
@[simp] theorem setCore_upClock (s : State) (n : Nat) (c : Core) : (s.setCore n c).upClock = s.upClock := rfl
@[simp] theorem setCore_ctxStall (s : State) (n : Nat) (c : Core) : (s.setCore n c).ctxStall = s.ctxStall := rfl
@[simp] theorem setCore_regs (s : State) (n : Nat) (c : Core) : (s.setCore n c).regs = s.regs := rfl
@[simp] theorem setCore_mem (s : State) (n : Nat) (c : Core) : (s.setCore n c).mem = s.mem := rfl
@[simp] theorem setCore_undef (s : State) (n : Nat) (c : Core) : (s.setCore n c).undef = s.undef := rfl
@[simp] theorem setCore_poison (s : State) (n : Nat) (c : Core) : (s.setCore n c).poison = s.poison := rfl
@[simp] theorem setCore_launches (s : State) (n : Nat) (c : Core) : (s.setCore n c).launches = s.launches := rfl
@[simp] theorem setCore_nextLaunch (s : State) (n : Nat) (c : Core) : (s.setCore n c).nextLaunch = s.nextLaunch := rfl
@[simp] theorem setCore_nextUid (s : State) (n : Nat) (c : Core) : (s.setCore n c).nextUid = s.nextUid := rfl
@[simp] theorem setCore_movers (s : State) (n : Nat) (c : Core) : (s.setCore n c).movers = s.movers := rfl
@[simp] theorem setCore_windowNotified (s : State) (n : Nat) (c : Core) : (s.setCore n c).windowNotified = s.windowNotified := rfl
@[simp] theorem setCore_windowDecreased (s : State) (n : Nat) (c : Core) : (s.setCore n c).windowDecreased = s.windowDecreased := rfl
@[simp] theorem setCore_contexts (s : State) (n : Nat) (c : Core) : (s.setCore n c).contexts = s.contexts := rfl
@[simp] theorem setCore_queues (s : State) (n : Nat) (c : Core) : (s.setCore n c).queues = s.queues := rfl
@[simp] theorem setCore_ranges (s : State) (n : Nat) (c : Core) : (s.setCore n c).ranges = s.ranges := rfl
@[simp] theorem setCore_allocs (s : State) (n : Nat) (c : Core) : (s.setCore n c).allocs = s.allocs := rfl
@[simp] theorem setCore_eventObjs (s : State) (n : Nat) (c : Core) : (s.setCore n c).eventObjs = s.eventObjs := rfl
@[simp] theorem setCore_unanswered (s : State) (n : Nat) (c : Core) : (s.setCore n c).unanswered = s.unanswered := rfl
@[simp] theorem setCore_sent (s : State) (n : Nat) (c : Core) : (s.setCore n c).sent = s.sent := rfl
@[simp] theorem setCore_value (s : State) (n : Nat) (c : Core) : (s.setCore n c).value = s.value := rfl
@[simp] theorem setCore_status (s : State) (n : Nat) (c : Core) : (s.setCore n c).status = s.status := rfl
@[simp] theorem setCore_channels (s : State) (n : Nat) (c : Core) : (s.setCore n c).channels = s.channels := rfl
@[simp] theorem setCore_retireCand (s : State) (n : Nat) (c : Core) : (s.setCore n c).retireCand = s.retireCand := rfl
@[simp] theorem setCore_wayCand (s : State) (n : Nat) (c : Core) : (s.setCore n c).wayCand = s.wayCand := rfl
@[simp] theorem setCore_retired (s : State) (n : Nat) (c : Core) : (s.setCore n c).retired = s.retired := rfl
@[simp] theorem setCore_partitions (s : State) (n : Nat) (c : Core) : (s.setCore n c).partitions = s.partitions := rfl
@[simp] theorem setCore_mt (s : State) (n : Nat) (c : Core) : (s.setCore n c).mt = s.mt := rfl
@[simp] theorem setCore_pw (s : State) (n : Nat) (c : Core) : (s.setCore n c).pw = s.pw := rfl
@[simp] theorem setCore_el (s : State) (n : Nat) (c : Core) : (s.setCore n c).el = s.el := rfl
@[simp] theorem setCore_exportObj (s : State) (n : Nat) (c : Core) : (s.setCore n c).exportObj = s.exportObj := rfl
@[simp] theorem setCore_lastWindow (s : State) (n : Nat) (c : Core) : (s.setCore n c).lastWindow = s.lastWindow := rfl
@[simp] theorem setCore_sugar (s : State) (n : Nat) (c : Core) : (s.setCore n c).sugar = s.sugar := rfl
@[simp] theorem setCore_uc (s : State) (n : Nat) (c : Core) : (s.setCore n c).uc = s.uc := rfl
@[simp] theorem setCore_submits (s : State) (n : Nat) (c : Core) : (s.setCore n c).submits = s.submits := rfl
@[simp] theorem setCore_tuLookups (s : State) (n : Nat) (c : Core) : (s.setCore n c).tuLookups = s.tuLookups := rfl
@[simp] theorem setCore_rescrubbed (s : State) (n : Nat) (c : Core) : (s.setCore n c).rescrubbed = s.rescrubbed := rfl
@[simp] theorem setCore_groupHeld (s : State) (n : Nat) (c : Core) : (s.setCore n c).groupHeld = s.groupHeld := rfl
@[simp] theorem setCore_groupLoad (s : State) (n : Nat) (c : Core) : (s.setCore n c).groupLoad = s.groupLoad := rfl
@[simp] theorem setCore_lines (s : State) (n : Nat) (c : Core) : (s.setCore n c).lines = s.lines := rfl
@[simp] theorem setCore_l2Clock (s : State) (n : Nat) (c : Core) : (s.setCore n c).l2Clock = s.l2Clock := rfl
@[simp] theorem setCore_l2Off (s : State) (n : Nat) (c : Core) : (s.setCore n c).l2Off = s.l2Off := rfl
@[simp] theorem setCore_victimUsed (s : State) (n : Nat) (c : Core) : (s.setCore n c).victimUsed = s.victimUsed := rfl
@[simp] theorem setCore_victimBudget (s : State) (n : Nat) (c : Core) : (s.setCore n c).victimBudget = s.victimBudget := rfl
@[simp] theorem setCore_domainStopped (s : State) (n : Nat) (c : Core) : (s.setCore n c).domainStopped = s.domainStopped := rfl
@[simp] theorem setCore_domainErr (s : State) (n : Nat) (c : Core) : (s.setCore n c).domainErr = s.domainErr := rfl
@[simp] theorem setCore_domainResets (s : State) (n : Nat) (c : Core) : (s.setCore n c).domainResets = s.domainResets := rfl
@[simp] theorem setCore_boot (s : State) (n : Nat) (c : Core) : (s.setCore n c).boot = s.boot := rfl
@[simp] theorem setCore_store (s : State) (n : Nat) (c : Core) : (s.setCore n c).store = s.store := rfl
@[simp] theorem setCore_sp (s : State) (n : Nat) (c : Core) : (s.setCore n c).sp = s.sp := rfl
@[simp] theorem setCore_chain (s : State) (n : Nat) (c : Core) : (s.setCore n c).chain = s.chain := rfl
@[simp] theorem setCore_regions (s : State) (n : Nat) (c : Core) : (s.setCore n c).regions = s.regions := rfl
@[simp] theorem setCore_recSince (s : State) (n : Nat) (c : Core) : (s.setCore n c).recSince = s.recSince := rfl
@[simp] theorem setCore_calmSince (s : State) (n : Nat) (c : Core) : (s.setCore n c).calmSince = s.calmSince := rfl
@[simp] theorem setCore_feSince (s : State) (n : Nat) (c : Core) : (s.setCore n c).feSince = s.feSince := rfl
@[simp] theorem setCore_feFault (s : State) (n : Nat) (c : Core) : (s.setCore n c).feFault = s.feFault := rfl
@[simp] theorem setCore_reads (s : State) (n : Nat) (c : Core) : (s.setCore n c).reads = s.reads := rfl

/-! ### mapCore -/

@[simp] theorem mapCore_pending (s : State) (n : Nat) (f : Core → Core) : (s.mapCore n f).pending = s.pending := rfl
@[simp] theorem mapCore_now (s : State) (n : Nat) (f : Core → Core) : (s.mapCore n f).now = s.now := rfl
@[simp] theorem mapCore_nowFrac (s : State) (n : Nat) (f : Core → Core) : (s.mapCore n f).nowFrac = s.nowFrac := rfl
@[simp] theorem mapCore_upClock (s : State) (n : Nat) (f : Core → Core) : (s.mapCore n f).upClock = s.upClock := rfl
@[simp] theorem mapCore_ctxStall (s : State) (n : Nat) (f : Core → Core) : (s.mapCore n f).ctxStall = s.ctxStall := rfl
@[simp] theorem mapCore_regs (s : State) (n : Nat) (f : Core → Core) : (s.mapCore n f).regs = s.regs := rfl
@[simp] theorem mapCore_mem (s : State) (n : Nat) (f : Core → Core) : (s.mapCore n f).mem = s.mem := rfl
@[simp] theorem mapCore_undef (s : State) (n : Nat) (f : Core → Core) : (s.mapCore n f).undef = s.undef := rfl
@[simp] theorem mapCore_poison (s : State) (n : Nat) (f : Core → Core) : (s.mapCore n f).poison = s.poison := rfl
@[simp] theorem mapCore_launches (s : State) (n : Nat) (f : Core → Core) : (s.mapCore n f).launches = s.launches := rfl
@[simp] theorem mapCore_nextLaunch (s : State) (n : Nat) (f : Core → Core) : (s.mapCore n f).nextLaunch = s.nextLaunch := rfl
@[simp] theorem mapCore_nextUid (s : State) (n : Nat) (f : Core → Core) : (s.mapCore n f).nextUid = s.nextUid := rfl
@[simp] theorem mapCore_movers (s : State) (n : Nat) (f : Core → Core) : (s.mapCore n f).movers = s.movers := rfl
@[simp] theorem mapCore_windowNotified (s : State) (n : Nat) (f : Core → Core) : (s.mapCore n f).windowNotified = s.windowNotified := rfl
@[simp] theorem mapCore_windowDecreased (s : State) (n : Nat) (f : Core → Core) : (s.mapCore n f).windowDecreased = s.windowDecreased := rfl
@[simp] theorem mapCore_contexts (s : State) (n : Nat) (f : Core → Core) : (s.mapCore n f).contexts = s.contexts := rfl
@[simp] theorem mapCore_queues (s : State) (n : Nat) (f : Core → Core) : (s.mapCore n f).queues = s.queues := rfl
@[simp] theorem mapCore_ranges (s : State) (n : Nat) (f : Core → Core) : (s.mapCore n f).ranges = s.ranges := rfl
@[simp] theorem mapCore_allocs (s : State) (n : Nat) (f : Core → Core) : (s.mapCore n f).allocs = s.allocs := rfl
@[simp] theorem mapCore_eventObjs (s : State) (n : Nat) (f : Core → Core) : (s.mapCore n f).eventObjs = s.eventObjs := rfl
@[simp] theorem mapCore_unanswered (s : State) (n : Nat) (f : Core → Core) : (s.mapCore n f).unanswered = s.unanswered := rfl
@[simp] theorem mapCore_sent (s : State) (n : Nat) (f : Core → Core) : (s.mapCore n f).sent = s.sent := rfl
@[simp] theorem mapCore_value (s : State) (n : Nat) (f : Core → Core) : (s.mapCore n f).value = s.value := rfl
@[simp] theorem mapCore_status (s : State) (n : Nat) (f : Core → Core) : (s.mapCore n f).status = s.status := rfl
@[simp] theorem mapCore_channels (s : State) (n : Nat) (f : Core → Core) : (s.mapCore n f).channels = s.channels := rfl
@[simp] theorem mapCore_retireCand (s : State) (n : Nat) (f : Core → Core) : (s.mapCore n f).retireCand = s.retireCand := rfl
@[simp] theorem mapCore_wayCand (s : State) (n : Nat) (f : Core → Core) : (s.mapCore n f).wayCand = s.wayCand := rfl
@[simp] theorem mapCore_retired (s : State) (n : Nat) (f : Core → Core) : (s.mapCore n f).retired = s.retired := rfl
@[simp] theorem mapCore_partitions (s : State) (n : Nat) (f : Core → Core) : (s.mapCore n f).partitions = s.partitions := rfl
@[simp] theorem mapCore_mt (s : State) (n : Nat) (f : Core → Core) : (s.mapCore n f).mt = s.mt := rfl
@[simp] theorem mapCore_pw (s : State) (n : Nat) (f : Core → Core) : (s.mapCore n f).pw = s.pw := rfl
@[simp] theorem mapCore_el (s : State) (n : Nat) (f : Core → Core) : (s.mapCore n f).el = s.el := rfl
@[simp] theorem mapCore_exportObj (s : State) (n : Nat) (f : Core → Core) : (s.mapCore n f).exportObj = s.exportObj := rfl
@[simp] theorem mapCore_lastWindow (s : State) (n : Nat) (f : Core → Core) : (s.mapCore n f).lastWindow = s.lastWindow := rfl
@[simp] theorem mapCore_sugar (s : State) (n : Nat) (f : Core → Core) : (s.mapCore n f).sugar = s.sugar := rfl
@[simp] theorem mapCore_uc (s : State) (n : Nat) (f : Core → Core) : (s.mapCore n f).uc = s.uc := rfl
@[simp] theorem mapCore_submits (s : State) (n : Nat) (f : Core → Core) : (s.mapCore n f).submits = s.submits := rfl
@[simp] theorem mapCore_tuLookups (s : State) (n : Nat) (f : Core → Core) : (s.mapCore n f).tuLookups = s.tuLookups := rfl
@[simp] theorem mapCore_rescrubbed (s : State) (n : Nat) (f : Core → Core) : (s.mapCore n f).rescrubbed = s.rescrubbed := rfl
@[simp] theorem mapCore_groupHeld (s : State) (n : Nat) (f : Core → Core) : (s.mapCore n f).groupHeld = s.groupHeld := rfl
@[simp] theorem mapCore_groupLoad (s : State) (n : Nat) (f : Core → Core) : (s.mapCore n f).groupLoad = s.groupLoad := rfl
@[simp] theorem mapCore_lines (s : State) (n : Nat) (f : Core → Core) : (s.mapCore n f).lines = s.lines := rfl
@[simp] theorem mapCore_l2Clock (s : State) (n : Nat) (f : Core → Core) : (s.mapCore n f).l2Clock = s.l2Clock := rfl
@[simp] theorem mapCore_l2Off (s : State) (n : Nat) (f : Core → Core) : (s.mapCore n f).l2Off = s.l2Off := rfl
@[simp] theorem mapCore_victimUsed (s : State) (n : Nat) (f : Core → Core) : (s.mapCore n f).victimUsed = s.victimUsed := rfl
@[simp] theorem mapCore_victimBudget (s : State) (n : Nat) (f : Core → Core) : (s.mapCore n f).victimBudget = s.victimBudget := rfl
@[simp] theorem mapCore_domainStopped (s : State) (n : Nat) (f : Core → Core) : (s.mapCore n f).domainStopped = s.domainStopped := rfl
@[simp] theorem mapCore_domainErr (s : State) (n : Nat) (f : Core → Core) : (s.mapCore n f).domainErr = s.domainErr := rfl
@[simp] theorem mapCore_domainResets (s : State) (n : Nat) (f : Core → Core) : (s.mapCore n f).domainResets = s.domainResets := rfl
@[simp] theorem mapCore_boot (s : State) (n : Nat) (f : Core → Core) : (s.mapCore n f).boot = s.boot := rfl
@[simp] theorem mapCore_store (s : State) (n : Nat) (f : Core → Core) : (s.mapCore n f).store = s.store := rfl
@[simp] theorem mapCore_sp (s : State) (n : Nat) (f : Core → Core) : (s.mapCore n f).sp = s.sp := rfl
@[simp] theorem mapCore_chain (s : State) (n : Nat) (f : Core → Core) : (s.mapCore n f).chain = s.chain := rfl
@[simp] theorem mapCore_regions (s : State) (n : Nat) (f : Core → Core) : (s.mapCore n f).regions = s.regions := rfl
@[simp] theorem mapCore_recSince (s : State) (n : Nat) (f : Core → Core) : (s.mapCore n f).recSince = s.recSince := rfl
@[simp] theorem mapCore_calmSince (s : State) (n : Nat) (f : Core → Core) : (s.mapCore n f).calmSince = s.calmSince := rfl
@[simp] theorem mapCore_feSince (s : State) (n : Nat) (f : Core → Core) : (s.mapCore n f).feSince = s.feSince := rfl
@[simp] theorem mapCore_feFault (s : State) (n : Nat) (f : Core → Core) : (s.mapCore n f).feFault = s.feFault := rfl
@[simp] theorem mapCore_reads (s : State) (n : Nat) (f : Core → Core) : (s.mapCore n f).reads = s.reads := rfl

/-! ### setTray -/

@[simp] theorem setTray_pending (s : State) (c k : Nat) (t : Tray) : (s.setTray c k t).pending = s.pending := rfl
@[simp] theorem setTray_now (s : State) (c k : Nat) (t : Tray) : (s.setTray c k t).now = s.now := rfl
@[simp] theorem setTray_nowFrac (s : State) (c k : Nat) (t : Tray) : (s.setTray c k t).nowFrac = s.nowFrac := rfl
@[simp] theorem setTray_upClock (s : State) (c k : Nat) (t : Tray) : (s.setTray c k t).upClock = s.upClock := rfl
@[simp] theorem setTray_ctxStall (s : State) (c k : Nat) (t : Tray) : (s.setTray c k t).ctxStall = s.ctxStall := rfl
@[simp] theorem setTray_regs (s : State) (c k : Nat) (t : Tray) : (s.setTray c k t).regs = s.regs := rfl
@[simp] theorem setTray_mem (s : State) (c k : Nat) (t : Tray) : (s.setTray c k t).mem = s.mem := rfl
@[simp] theorem setTray_undef (s : State) (c k : Nat) (t : Tray) : (s.setTray c k t).undef = s.undef := rfl
@[simp] theorem setTray_poison (s : State) (c k : Nat) (t : Tray) : (s.setTray c k t).poison = s.poison := rfl
@[simp] theorem setTray_launches (s : State) (c k : Nat) (t : Tray) : (s.setTray c k t).launches = s.launches := rfl
@[simp] theorem setTray_nextLaunch (s : State) (c k : Nat) (t : Tray) : (s.setTray c k t).nextLaunch = s.nextLaunch := rfl
@[simp] theorem setTray_nextUid (s : State) (c k : Nat) (t : Tray) : (s.setTray c k t).nextUid = s.nextUid := rfl
@[simp] theorem setTray_movers (s : State) (c k : Nat) (t : Tray) : (s.setTray c k t).movers = s.movers := rfl
@[simp] theorem setTray_windowNotified (s : State) (c k : Nat) (t : Tray) : (s.setTray c k t).windowNotified = s.windowNotified := rfl
@[simp] theorem setTray_windowDecreased (s : State) (c k : Nat) (t : Tray) : (s.setTray c k t).windowDecreased = s.windowDecreased := rfl
@[simp] theorem setTray_contexts (s : State) (c k : Nat) (t : Tray) : (s.setTray c k t).contexts = s.contexts := rfl
@[simp] theorem setTray_queues (s : State) (c k : Nat) (t : Tray) : (s.setTray c k t).queues = s.queues := rfl
@[simp] theorem setTray_ranges (s : State) (c k : Nat) (t : Tray) : (s.setTray c k t).ranges = s.ranges := rfl
@[simp] theorem setTray_allocs (s : State) (c k : Nat) (t : Tray) : (s.setTray c k t).allocs = s.allocs := rfl
@[simp] theorem setTray_eventObjs (s : State) (c k : Nat) (t : Tray) : (s.setTray c k t).eventObjs = s.eventObjs := rfl
@[simp] theorem setTray_unanswered (s : State) (c k : Nat) (t : Tray) : (s.setTray c k t).unanswered = s.unanswered := rfl
@[simp] theorem setTray_sent (s : State) (c k : Nat) (t : Tray) : (s.setTray c k t).sent = s.sent := rfl
@[simp] theorem setTray_value (s : State) (c k : Nat) (t : Tray) : (s.setTray c k t).value = s.value := rfl
@[simp] theorem setTray_status (s : State) (c k : Nat) (t : Tray) : (s.setTray c k t).status = s.status := rfl
@[simp] theorem setTray_channels (s : State) (c k : Nat) (t : Tray) : (s.setTray c k t).channels = s.channels := rfl
@[simp] theorem setTray_retireCand (s : State) (c k : Nat) (t : Tray) : (s.setTray c k t).retireCand = s.retireCand := rfl
@[simp] theorem setTray_wayCand (s : State) (c k : Nat) (t : Tray) : (s.setTray c k t).wayCand = s.wayCand := rfl
@[simp] theorem setTray_retired (s : State) (c k : Nat) (t : Tray) : (s.setTray c k t).retired = s.retired := rfl
@[simp] theorem setTray_partitions (s : State) (c k : Nat) (t : Tray) : (s.setTray c k t).partitions = s.partitions := rfl
@[simp] theorem setTray_mt (s : State) (c k : Nat) (t : Tray) : (s.setTray c k t).mt = s.mt := rfl
@[simp] theorem setTray_pw (s : State) (c k : Nat) (t : Tray) : (s.setTray c k t).pw = s.pw := rfl
@[simp] theorem setTray_el (s : State) (c k : Nat) (t : Tray) : (s.setTray c k t).el = s.el := rfl
@[simp] theorem setTray_exportObj (s : State) (c k : Nat) (t : Tray) : (s.setTray c k t).exportObj = s.exportObj := rfl
@[simp] theorem setTray_lastWindow (s : State) (c k : Nat) (t : Tray) : (s.setTray c k t).lastWindow = s.lastWindow := rfl
@[simp] theorem setTray_sugar (s : State) (c k : Nat) (t : Tray) : (s.setTray c k t).sugar = s.sugar := rfl
@[simp] theorem setTray_uc (s : State) (c k : Nat) (t : Tray) : (s.setTray c k t).uc = s.uc := rfl
@[simp] theorem setTray_submits (s : State) (c k : Nat) (t : Tray) : (s.setTray c k t).submits = s.submits := rfl
@[simp] theorem setTray_tuLookups (s : State) (c k : Nat) (t : Tray) : (s.setTray c k t).tuLookups = s.tuLookups := rfl
@[simp] theorem setTray_rescrubbed (s : State) (c k : Nat) (t : Tray) : (s.setTray c k t).rescrubbed = s.rescrubbed := rfl
@[simp] theorem setTray_groupHeld (s : State) (c k : Nat) (t : Tray) : (s.setTray c k t).groupHeld = s.groupHeld := rfl
@[simp] theorem setTray_groupLoad (s : State) (c k : Nat) (t : Tray) : (s.setTray c k t).groupLoad = s.groupLoad := rfl
@[simp] theorem setTray_lines (s : State) (c k : Nat) (t : Tray) : (s.setTray c k t).lines = s.lines := rfl
@[simp] theorem setTray_l2Clock (s : State) (c k : Nat) (t : Tray) : (s.setTray c k t).l2Clock = s.l2Clock := rfl
@[simp] theorem setTray_l2Off (s : State) (c k : Nat) (t : Tray) : (s.setTray c k t).l2Off = s.l2Off := rfl
@[simp] theorem setTray_victimUsed (s : State) (c k : Nat) (t : Tray) : (s.setTray c k t).victimUsed = s.victimUsed := rfl
@[simp] theorem setTray_victimBudget (s : State) (c k : Nat) (t : Tray) : (s.setTray c k t).victimBudget = s.victimBudget := rfl
@[simp] theorem setTray_domainStopped (s : State) (c k : Nat) (t : Tray) : (s.setTray c k t).domainStopped = s.domainStopped := rfl
@[simp] theorem setTray_domainErr (s : State) (c k : Nat) (t : Tray) : (s.setTray c k t).domainErr = s.domainErr := rfl
@[simp] theorem setTray_domainResets (s : State) (c k : Nat) (t : Tray) : (s.setTray c k t).domainResets = s.domainResets := rfl
@[simp] theorem setTray_boot (s : State) (c k : Nat) (t : Tray) : (s.setTray c k t).boot = s.boot := rfl
@[simp] theorem setTray_store (s : State) (c k : Nat) (t : Tray) : (s.setTray c k t).store = s.store := rfl
@[simp] theorem setTray_sp (s : State) (c k : Nat) (t : Tray) : (s.setTray c k t).sp = s.sp := rfl
@[simp] theorem setTray_chain (s : State) (c k : Nat) (t : Tray) : (s.setTray c k t).chain = s.chain := rfl
@[simp] theorem setTray_regions (s : State) (c k : Nat) (t : Tray) : (s.setTray c k t).regions = s.regions := rfl
@[simp] theorem setTray_recSince (s : State) (c k : Nat) (t : Tray) : (s.setTray c k t).recSince = s.recSince := rfl
@[simp] theorem setTray_calmSince (s : State) (c k : Nat) (t : Tray) : (s.setTray c k t).calmSince = s.calmSince := rfl
@[simp] theorem setTray_feSince (s : State) (c k : Nat) (t : Tray) : (s.setTray c k t).feSince = s.feSince := rfl
@[simp] theorem setTray_feFault (s : State) (c k : Nat) (t : Tray) : (s.setTray c k t).feFault = s.feFault := rfl
@[simp] theorem setTray_reads (s : State) (c k : Nat) (t : Tray) : (s.setTray c k t).reads = s.reads := rfl

/-! ### mapTray -/

@[simp] theorem mapTray_pending (s : State) (c k : Nat) (f : Tray → Tray) : (s.mapTray c k f).pending = s.pending := rfl
@[simp] theorem mapTray_now (s : State) (c k : Nat) (f : Tray → Tray) : (s.mapTray c k f).now = s.now := rfl
@[simp] theorem mapTray_nowFrac (s : State) (c k : Nat) (f : Tray → Tray) : (s.mapTray c k f).nowFrac = s.nowFrac := rfl
@[simp] theorem mapTray_upClock (s : State) (c k : Nat) (f : Tray → Tray) : (s.mapTray c k f).upClock = s.upClock := rfl
@[simp] theorem mapTray_ctxStall (s : State) (c k : Nat) (f : Tray → Tray) : (s.mapTray c k f).ctxStall = s.ctxStall := rfl
@[simp] theorem mapTray_regs (s : State) (c k : Nat) (f : Tray → Tray) : (s.mapTray c k f).regs = s.regs := rfl
@[simp] theorem mapTray_mem (s : State) (c k : Nat) (f : Tray → Tray) : (s.mapTray c k f).mem = s.mem := rfl
@[simp] theorem mapTray_undef (s : State) (c k : Nat) (f : Tray → Tray) : (s.mapTray c k f).undef = s.undef := rfl
@[simp] theorem mapTray_poison (s : State) (c k : Nat) (f : Tray → Tray) : (s.mapTray c k f).poison = s.poison := rfl
@[simp] theorem mapTray_launches (s : State) (c k : Nat) (f : Tray → Tray) : (s.mapTray c k f).launches = s.launches := rfl
@[simp] theorem mapTray_nextLaunch (s : State) (c k : Nat) (f : Tray → Tray) : (s.mapTray c k f).nextLaunch = s.nextLaunch := rfl
@[simp] theorem mapTray_nextUid (s : State) (c k : Nat) (f : Tray → Tray) : (s.mapTray c k f).nextUid = s.nextUid := rfl
@[simp] theorem mapTray_movers (s : State) (c k : Nat) (f : Tray → Tray) : (s.mapTray c k f).movers = s.movers := rfl
@[simp] theorem mapTray_windowNotified (s : State) (c k : Nat) (f : Tray → Tray) : (s.mapTray c k f).windowNotified = s.windowNotified := rfl
@[simp] theorem mapTray_windowDecreased (s : State) (c k : Nat) (f : Tray → Tray) : (s.mapTray c k f).windowDecreased = s.windowDecreased := rfl
@[simp] theorem mapTray_contexts (s : State) (c k : Nat) (f : Tray → Tray) : (s.mapTray c k f).contexts = s.contexts := rfl
@[simp] theorem mapTray_queues (s : State) (c k : Nat) (f : Tray → Tray) : (s.mapTray c k f).queues = s.queues := rfl
@[simp] theorem mapTray_ranges (s : State) (c k : Nat) (f : Tray → Tray) : (s.mapTray c k f).ranges = s.ranges := rfl
@[simp] theorem mapTray_allocs (s : State) (c k : Nat) (f : Tray → Tray) : (s.mapTray c k f).allocs = s.allocs := rfl
@[simp] theorem mapTray_eventObjs (s : State) (c k : Nat) (f : Tray → Tray) : (s.mapTray c k f).eventObjs = s.eventObjs := rfl
@[simp] theorem mapTray_unanswered (s : State) (c k : Nat) (f : Tray → Tray) : (s.mapTray c k f).unanswered = s.unanswered := rfl
@[simp] theorem mapTray_sent (s : State) (c k : Nat) (f : Tray → Tray) : (s.mapTray c k f).sent = s.sent := rfl
@[simp] theorem mapTray_value (s : State) (c k : Nat) (f : Tray → Tray) : (s.mapTray c k f).value = s.value := rfl
@[simp] theorem mapTray_status (s : State) (c k : Nat) (f : Tray → Tray) : (s.mapTray c k f).status = s.status := rfl
@[simp] theorem mapTray_channels (s : State) (c k : Nat) (f : Tray → Tray) : (s.mapTray c k f).channels = s.channels := rfl
@[simp] theorem mapTray_retireCand (s : State) (c k : Nat) (f : Tray → Tray) : (s.mapTray c k f).retireCand = s.retireCand := rfl
@[simp] theorem mapTray_wayCand (s : State) (c k : Nat) (f : Tray → Tray) : (s.mapTray c k f).wayCand = s.wayCand := rfl
@[simp] theorem mapTray_retired (s : State) (c k : Nat) (f : Tray → Tray) : (s.mapTray c k f).retired = s.retired := rfl
@[simp] theorem mapTray_partitions (s : State) (c k : Nat) (f : Tray → Tray) : (s.mapTray c k f).partitions = s.partitions := rfl
@[simp] theorem mapTray_mt (s : State) (c k : Nat) (f : Tray → Tray) : (s.mapTray c k f).mt = s.mt := rfl
@[simp] theorem mapTray_pw (s : State) (c k : Nat) (f : Tray → Tray) : (s.mapTray c k f).pw = s.pw := rfl
@[simp] theorem mapTray_el (s : State) (c k : Nat) (f : Tray → Tray) : (s.mapTray c k f).el = s.el := rfl
@[simp] theorem mapTray_exportObj (s : State) (c k : Nat) (f : Tray → Tray) : (s.mapTray c k f).exportObj = s.exportObj := rfl
@[simp] theorem mapTray_lastWindow (s : State) (c k : Nat) (f : Tray → Tray) : (s.mapTray c k f).lastWindow = s.lastWindow := rfl
@[simp] theorem mapTray_sugar (s : State) (c k : Nat) (f : Tray → Tray) : (s.mapTray c k f).sugar = s.sugar := rfl
@[simp] theorem mapTray_uc (s : State) (c k : Nat) (f : Tray → Tray) : (s.mapTray c k f).uc = s.uc := rfl
@[simp] theorem mapTray_submits (s : State) (c k : Nat) (f : Tray → Tray) : (s.mapTray c k f).submits = s.submits := rfl
@[simp] theorem mapTray_tuLookups (s : State) (c k : Nat) (f : Tray → Tray) : (s.mapTray c k f).tuLookups = s.tuLookups := rfl
@[simp] theorem mapTray_rescrubbed (s : State) (c k : Nat) (f : Tray → Tray) : (s.mapTray c k f).rescrubbed = s.rescrubbed := rfl
@[simp] theorem mapTray_groupHeld (s : State) (c k : Nat) (f : Tray → Tray) : (s.mapTray c k f).groupHeld = s.groupHeld := rfl
@[simp] theorem mapTray_groupLoad (s : State) (c k : Nat) (f : Tray → Tray) : (s.mapTray c k f).groupLoad = s.groupLoad := rfl
@[simp] theorem mapTray_lines (s : State) (c k : Nat) (f : Tray → Tray) : (s.mapTray c k f).lines = s.lines := rfl
@[simp] theorem mapTray_l2Clock (s : State) (c k : Nat) (f : Tray → Tray) : (s.mapTray c k f).l2Clock = s.l2Clock := rfl
@[simp] theorem mapTray_l2Off (s : State) (c k : Nat) (f : Tray → Tray) : (s.mapTray c k f).l2Off = s.l2Off := rfl
@[simp] theorem mapTray_victimUsed (s : State) (c k : Nat) (f : Tray → Tray) : (s.mapTray c k f).victimUsed = s.victimUsed := rfl
@[simp] theorem mapTray_victimBudget (s : State) (c k : Nat) (f : Tray → Tray) : (s.mapTray c k f).victimBudget = s.victimBudget := rfl
@[simp] theorem mapTray_domainStopped (s : State) (c k : Nat) (f : Tray → Tray) : (s.mapTray c k f).domainStopped = s.domainStopped := rfl
@[simp] theorem mapTray_domainErr (s : State) (c k : Nat) (f : Tray → Tray) : (s.mapTray c k f).domainErr = s.domainErr := rfl
@[simp] theorem mapTray_domainResets (s : State) (c k : Nat) (f : Tray → Tray) : (s.mapTray c k f).domainResets = s.domainResets := rfl
@[simp] theorem mapTray_boot (s : State) (c k : Nat) (f : Tray → Tray) : (s.mapTray c k f).boot = s.boot := rfl
@[simp] theorem mapTray_store (s : State) (c k : Nat) (f : Tray → Tray) : (s.mapTray c k f).store = s.store := rfl
@[simp] theorem mapTray_sp (s : State) (c k : Nat) (f : Tray → Tray) : (s.mapTray c k f).sp = s.sp := rfl
@[simp] theorem mapTray_chain (s : State) (c k : Nat) (f : Tray → Tray) : (s.mapTray c k f).chain = s.chain := rfl
@[simp] theorem mapTray_regions (s : State) (c k : Nat) (f : Tray → Tray) : (s.mapTray c k f).regions = s.regions := rfl
@[simp] theorem mapTray_recSince (s : State) (c k : Nat) (f : Tray → Tray) : (s.mapTray c k f).recSince = s.recSince := rfl
@[simp] theorem mapTray_calmSince (s : State) (c k : Nat) (f : Tray → Tray) : (s.mapTray c k f).calmSince = s.calmSince := rfl
@[simp] theorem mapTray_feSince (s : State) (c k : Nat) (f : Tray → Tray) : (s.mapTray c k f).feSince = s.feSince := rfl
@[simp] theorem mapTray_feFault (s : State) (c k : Nat) (f : Tray → Tray) : (s.mapTray c k f).feFault = s.feFault := rfl
@[simp] theorem mapTray_reads (s : State) (c k : Nat) (f : Tray → Tray) : (s.mapTray c k f).reads = s.reads := rfl

/-! ### mapLaunch -/

@[simp] theorem mapLaunch_pending (s : State) (n : Nat) (f : Launch → Launch) : (s.mapLaunch n f).pending = s.pending := rfl
@[simp] theorem mapLaunch_now (s : State) (n : Nat) (f : Launch → Launch) : (s.mapLaunch n f).now = s.now := rfl
@[simp] theorem mapLaunch_nowFrac (s : State) (n : Nat) (f : Launch → Launch) : (s.mapLaunch n f).nowFrac = s.nowFrac := rfl
@[simp] theorem mapLaunch_upClock (s : State) (n : Nat) (f : Launch → Launch) : (s.mapLaunch n f).upClock = s.upClock := rfl
@[simp] theorem mapLaunch_ctxStall (s : State) (n : Nat) (f : Launch → Launch) : (s.mapLaunch n f).ctxStall = s.ctxStall := rfl
@[simp] theorem mapLaunch_regs (s : State) (n : Nat) (f : Launch → Launch) : (s.mapLaunch n f).regs = s.regs := rfl
@[simp] theorem mapLaunch_mem (s : State) (n : Nat) (f : Launch → Launch) : (s.mapLaunch n f).mem = s.mem := rfl
@[simp] theorem mapLaunch_undef (s : State) (n : Nat) (f : Launch → Launch) : (s.mapLaunch n f).undef = s.undef := rfl
@[simp] theorem mapLaunch_poison (s : State) (n : Nat) (f : Launch → Launch) : (s.mapLaunch n f).poison = s.poison := rfl
@[simp] theorem mapLaunch_cores (s : State) (n : Nat) (f : Launch → Launch) : (s.mapLaunch n f).cores = s.cores := rfl
@[simp] theorem mapLaunch_nextLaunch (s : State) (n : Nat) (f : Launch → Launch) : (s.mapLaunch n f).nextLaunch = s.nextLaunch := rfl
@[simp] theorem mapLaunch_nextUid (s : State) (n : Nat) (f : Launch → Launch) : (s.mapLaunch n f).nextUid = s.nextUid := rfl
@[simp] theorem mapLaunch_movers (s : State) (n : Nat) (f : Launch → Launch) : (s.mapLaunch n f).movers = s.movers := rfl
@[simp] theorem mapLaunch_windowNotified (s : State) (n : Nat) (f : Launch → Launch) : (s.mapLaunch n f).windowNotified = s.windowNotified := rfl
@[simp] theorem mapLaunch_windowDecreased (s : State) (n : Nat) (f : Launch → Launch) : (s.mapLaunch n f).windowDecreased = s.windowDecreased := rfl
@[simp] theorem mapLaunch_contexts (s : State) (n : Nat) (f : Launch → Launch) : (s.mapLaunch n f).contexts = s.contexts := rfl
@[simp] theorem mapLaunch_queues (s : State) (n : Nat) (f : Launch → Launch) : (s.mapLaunch n f).queues = s.queues := rfl
@[simp] theorem mapLaunch_ranges (s : State) (n : Nat) (f : Launch → Launch) : (s.mapLaunch n f).ranges = s.ranges := rfl
@[simp] theorem mapLaunch_allocs (s : State) (n : Nat) (f : Launch → Launch) : (s.mapLaunch n f).allocs = s.allocs := rfl
@[simp] theorem mapLaunch_eventObjs (s : State) (n : Nat) (f : Launch → Launch) : (s.mapLaunch n f).eventObjs = s.eventObjs := rfl
@[simp] theorem mapLaunch_unanswered (s : State) (n : Nat) (f : Launch → Launch) : (s.mapLaunch n f).unanswered = s.unanswered := rfl
@[simp] theorem mapLaunch_sent (s : State) (n : Nat) (f : Launch → Launch) : (s.mapLaunch n f).sent = s.sent := rfl
@[simp] theorem mapLaunch_value (s : State) (n : Nat) (f : Launch → Launch) : (s.mapLaunch n f).value = s.value := rfl
@[simp] theorem mapLaunch_status (s : State) (n : Nat) (f : Launch → Launch) : (s.mapLaunch n f).status = s.status := rfl
@[simp] theorem mapLaunch_channels (s : State) (n : Nat) (f : Launch → Launch) : (s.mapLaunch n f).channels = s.channels := rfl
@[simp] theorem mapLaunch_retireCand (s : State) (n : Nat) (f : Launch → Launch) : (s.mapLaunch n f).retireCand = s.retireCand := rfl
@[simp] theorem mapLaunch_wayCand (s : State) (n : Nat) (f : Launch → Launch) : (s.mapLaunch n f).wayCand = s.wayCand := rfl
@[simp] theorem mapLaunch_retired (s : State) (n : Nat) (f : Launch → Launch) : (s.mapLaunch n f).retired = s.retired := rfl
@[simp] theorem mapLaunch_partitions (s : State) (n : Nat) (f : Launch → Launch) : (s.mapLaunch n f).partitions = s.partitions := rfl
@[simp] theorem mapLaunch_mt (s : State) (n : Nat) (f : Launch → Launch) : (s.mapLaunch n f).mt = s.mt := rfl
@[simp] theorem mapLaunch_pw (s : State) (n : Nat) (f : Launch → Launch) : (s.mapLaunch n f).pw = s.pw := rfl
@[simp] theorem mapLaunch_el (s : State) (n : Nat) (f : Launch → Launch) : (s.mapLaunch n f).el = s.el := rfl
@[simp] theorem mapLaunch_exportObj (s : State) (n : Nat) (f : Launch → Launch) : (s.mapLaunch n f).exportObj = s.exportObj := rfl
@[simp] theorem mapLaunch_lastWindow (s : State) (n : Nat) (f : Launch → Launch) : (s.mapLaunch n f).lastWindow = s.lastWindow := rfl
@[simp] theorem mapLaunch_sugar (s : State) (n : Nat) (f : Launch → Launch) : (s.mapLaunch n f).sugar = s.sugar := rfl
@[simp] theorem mapLaunch_uc (s : State) (n : Nat) (f : Launch → Launch) : (s.mapLaunch n f).uc = s.uc := rfl
@[simp] theorem mapLaunch_submits (s : State) (n : Nat) (f : Launch → Launch) : (s.mapLaunch n f).submits = s.submits := rfl
@[simp] theorem mapLaunch_tuLookups (s : State) (n : Nat) (f : Launch → Launch) : (s.mapLaunch n f).tuLookups = s.tuLookups := rfl
@[simp] theorem mapLaunch_rescrubbed (s : State) (n : Nat) (f : Launch → Launch) : (s.mapLaunch n f).rescrubbed = s.rescrubbed := rfl
@[simp] theorem mapLaunch_groupHeld (s : State) (n : Nat) (f : Launch → Launch) : (s.mapLaunch n f).groupHeld = s.groupHeld := rfl
@[simp] theorem mapLaunch_groupLoad (s : State) (n : Nat) (f : Launch → Launch) : (s.mapLaunch n f).groupLoad = s.groupLoad := rfl
@[simp] theorem mapLaunch_lines (s : State) (n : Nat) (f : Launch → Launch) : (s.mapLaunch n f).lines = s.lines := rfl
@[simp] theorem mapLaunch_l2Clock (s : State) (n : Nat) (f : Launch → Launch) : (s.mapLaunch n f).l2Clock = s.l2Clock := rfl
@[simp] theorem mapLaunch_l2Off (s : State) (n : Nat) (f : Launch → Launch) : (s.mapLaunch n f).l2Off = s.l2Off := rfl
@[simp] theorem mapLaunch_victimUsed (s : State) (n : Nat) (f : Launch → Launch) : (s.mapLaunch n f).victimUsed = s.victimUsed := rfl
@[simp] theorem mapLaunch_victimBudget (s : State) (n : Nat) (f : Launch → Launch) : (s.mapLaunch n f).victimBudget = s.victimBudget := rfl
@[simp] theorem mapLaunch_domainStopped (s : State) (n : Nat) (f : Launch → Launch) : (s.mapLaunch n f).domainStopped = s.domainStopped := rfl
@[simp] theorem mapLaunch_domainErr (s : State) (n : Nat) (f : Launch → Launch) : (s.mapLaunch n f).domainErr = s.domainErr := rfl
@[simp] theorem mapLaunch_domainResets (s : State) (n : Nat) (f : Launch → Launch) : (s.mapLaunch n f).domainResets = s.domainResets := rfl
@[simp] theorem mapLaunch_boot (s : State) (n : Nat) (f : Launch → Launch) : (s.mapLaunch n f).boot = s.boot := rfl
@[simp] theorem mapLaunch_store (s : State) (n : Nat) (f : Launch → Launch) : (s.mapLaunch n f).store = s.store := rfl
@[simp] theorem mapLaunch_sp (s : State) (n : Nat) (f : Launch → Launch) : (s.mapLaunch n f).sp = s.sp := rfl
@[simp] theorem mapLaunch_chain (s : State) (n : Nat) (f : Launch → Launch) : (s.mapLaunch n f).chain = s.chain := rfl
@[simp] theorem mapLaunch_regions (s : State) (n : Nat) (f : Launch → Launch) : (s.mapLaunch n f).regions = s.regions := rfl
@[simp] theorem mapLaunch_recSince (s : State) (n : Nat) (f : Launch → Launch) : (s.mapLaunch n f).recSince = s.recSince := rfl
@[simp] theorem mapLaunch_calmSince (s : State) (n : Nat) (f : Launch → Launch) : (s.mapLaunch n f).calmSince = s.calmSince := rfl
@[simp] theorem mapLaunch_feSince (s : State) (n : Nat) (f : Launch → Launch) : (s.mapLaunch n f).feSince = s.feSince := rfl
@[simp] theorem mapLaunch_feFault (s : State) (n : Nat) (f : Launch → Launch) : (s.mapLaunch n f).feFault = s.feFault := rfl
@[simp] theorem mapLaunch_reads (s : State) (n : Nat) (f : Launch → Launch) : (s.mapLaunch n f).reads = s.reads := rfl

/-! ### setLine -/

@[simp] theorem setLine_pending (s : State) (l : Nat) (x : Line) : (s.setLine l x).pending = s.pending := rfl
@[simp] theorem setLine_now (s : State) (l : Nat) (x : Line) : (s.setLine l x).now = s.now := rfl
@[simp] theorem setLine_nowFrac (s : State) (l : Nat) (x : Line) : (s.setLine l x).nowFrac = s.nowFrac := rfl
@[simp] theorem setLine_upClock (s : State) (l : Nat) (x : Line) : (s.setLine l x).upClock = s.upClock := rfl
@[simp] theorem setLine_ctxStall (s : State) (l : Nat) (x : Line) : (s.setLine l x).ctxStall = s.ctxStall := rfl
@[simp] theorem setLine_regs (s : State) (l : Nat) (x : Line) : (s.setLine l x).regs = s.regs := rfl
@[simp] theorem setLine_mem (s : State) (l : Nat) (x : Line) : (s.setLine l x).mem = s.mem := rfl
@[simp] theorem setLine_undef (s : State) (l : Nat) (x : Line) : (s.setLine l x).undef = s.undef := rfl
@[simp] theorem setLine_poison (s : State) (l : Nat) (x : Line) : (s.setLine l x).poison = s.poison := rfl
@[simp] theorem setLine_cores (s : State) (l : Nat) (x : Line) : (s.setLine l x).cores = s.cores := rfl
@[simp] theorem setLine_launches (s : State) (l : Nat) (x : Line) : (s.setLine l x).launches = s.launches := rfl
@[simp] theorem setLine_nextLaunch (s : State) (l : Nat) (x : Line) : (s.setLine l x).nextLaunch = s.nextLaunch := rfl
@[simp] theorem setLine_nextUid (s : State) (l : Nat) (x : Line) : (s.setLine l x).nextUid = s.nextUid := rfl
@[simp] theorem setLine_movers (s : State) (l : Nat) (x : Line) : (s.setLine l x).movers = s.movers := rfl
@[simp] theorem setLine_windowNotified (s : State) (l : Nat) (x : Line) : (s.setLine l x).windowNotified = s.windowNotified := rfl
@[simp] theorem setLine_windowDecreased (s : State) (l : Nat) (x : Line) : (s.setLine l x).windowDecreased = s.windowDecreased := rfl
@[simp] theorem setLine_contexts (s : State) (l : Nat) (x : Line) : (s.setLine l x).contexts = s.contexts := rfl
@[simp] theorem setLine_queues (s : State) (l : Nat) (x : Line) : (s.setLine l x).queues = s.queues := rfl
@[simp] theorem setLine_ranges (s : State) (l : Nat) (x : Line) : (s.setLine l x).ranges = s.ranges := rfl
@[simp] theorem setLine_allocs (s : State) (l : Nat) (x : Line) : (s.setLine l x).allocs = s.allocs := rfl
@[simp] theorem setLine_eventObjs (s : State) (l : Nat) (x : Line) : (s.setLine l x).eventObjs = s.eventObjs := rfl
@[simp] theorem setLine_unanswered (s : State) (l : Nat) (x : Line) : (s.setLine l x).unanswered = s.unanswered := rfl
@[simp] theorem setLine_sent (s : State) (l : Nat) (x : Line) : (s.setLine l x).sent = s.sent := rfl
@[simp] theorem setLine_value (s : State) (l : Nat) (x : Line) : (s.setLine l x).value = s.value := rfl
@[simp] theorem setLine_status (s : State) (l : Nat) (x : Line) : (s.setLine l x).status = s.status := rfl
@[simp] theorem setLine_channels (s : State) (l : Nat) (x : Line) : (s.setLine l x).channels = s.channels := rfl
@[simp] theorem setLine_retireCand (s : State) (l : Nat) (x : Line) : (s.setLine l x).retireCand = s.retireCand := rfl
@[simp] theorem setLine_wayCand (s : State) (l : Nat) (x : Line) : (s.setLine l x).wayCand = s.wayCand := rfl
@[simp] theorem setLine_retired (s : State) (l : Nat) (x : Line) : (s.setLine l x).retired = s.retired := rfl
@[simp] theorem setLine_partitions (s : State) (l : Nat) (x : Line) : (s.setLine l x).partitions = s.partitions := rfl
@[simp] theorem setLine_mt (s : State) (l : Nat) (x : Line) : (s.setLine l x).mt = s.mt := rfl
@[simp] theorem setLine_pw (s : State) (l : Nat) (x : Line) : (s.setLine l x).pw = s.pw := rfl
@[simp] theorem setLine_el (s : State) (l : Nat) (x : Line) : (s.setLine l x).el = s.el := rfl
@[simp] theorem setLine_exportObj (s : State) (l : Nat) (x : Line) : (s.setLine l x).exportObj = s.exportObj := rfl
@[simp] theorem setLine_lastWindow (s : State) (l : Nat) (x : Line) : (s.setLine l x).lastWindow = s.lastWindow := rfl
@[simp] theorem setLine_sugar (s : State) (l : Nat) (x : Line) : (s.setLine l x).sugar = s.sugar := rfl
@[simp] theorem setLine_uc (s : State) (l : Nat) (x : Line) : (s.setLine l x).uc = s.uc := rfl
@[simp] theorem setLine_submits (s : State) (l : Nat) (x : Line) : (s.setLine l x).submits = s.submits := rfl
@[simp] theorem setLine_tuLookups (s : State) (l : Nat) (x : Line) : (s.setLine l x).tuLookups = s.tuLookups := rfl
@[simp] theorem setLine_rescrubbed (s : State) (l : Nat) (x : Line) : (s.setLine l x).rescrubbed = s.rescrubbed := rfl
@[simp] theorem setLine_groupHeld (s : State) (l : Nat) (x : Line) : (s.setLine l x).groupHeld = s.groupHeld := rfl
@[simp] theorem setLine_groupLoad (s : State) (l : Nat) (x : Line) : (s.setLine l x).groupLoad = s.groupLoad := rfl
@[simp] theorem setLine_l2Clock (s : State) (l : Nat) (x : Line) : (s.setLine l x).l2Clock = s.l2Clock := rfl
@[simp] theorem setLine_l2Off (s : State) (l : Nat) (x : Line) : (s.setLine l x).l2Off = s.l2Off := rfl
@[simp] theorem setLine_victimUsed (s : State) (l : Nat) (x : Line) : (s.setLine l x).victimUsed = s.victimUsed := rfl
@[simp] theorem setLine_victimBudget (s : State) (l : Nat) (x : Line) : (s.setLine l x).victimBudget = s.victimBudget := rfl
@[simp] theorem setLine_domainStopped (s : State) (l : Nat) (x : Line) : (s.setLine l x).domainStopped = s.domainStopped := rfl
@[simp] theorem setLine_domainErr (s : State) (l : Nat) (x : Line) : (s.setLine l x).domainErr = s.domainErr := rfl
@[simp] theorem setLine_domainResets (s : State) (l : Nat) (x : Line) : (s.setLine l x).domainResets = s.domainResets := rfl
@[simp] theorem setLine_boot (s : State) (l : Nat) (x : Line) : (s.setLine l x).boot = s.boot := rfl
@[simp] theorem setLine_store (s : State) (l : Nat) (x : Line) : (s.setLine l x).store = s.store := rfl
@[simp] theorem setLine_sp (s : State) (l : Nat) (x : Line) : (s.setLine l x).sp = s.sp := rfl
@[simp] theorem setLine_chain (s : State) (l : Nat) (x : Line) : (s.setLine l x).chain = s.chain := rfl
@[simp] theorem setLine_regions (s : State) (l : Nat) (x : Line) : (s.setLine l x).regions = s.regions := rfl
@[simp] theorem setLine_recSince (s : State) (l : Nat) (x : Line) : (s.setLine l x).recSince = s.recSince := rfl
@[simp] theorem setLine_calmSince (s : State) (l : Nat) (x : Line) : (s.setLine l x).calmSince = s.calmSince := rfl
@[simp] theorem setLine_feSince (s : State) (l : Nat) (x : Line) : (s.setLine l x).feSince = s.feSince := rfl
@[simp] theorem setLine_feFault (s : State) (l : Nat) (x : Line) : (s.setLine l x).feFault = s.feFault := rfl
@[simp] theorem setLine_reads (s : State) (l : Nat) (x : Line) : (s.setLine l x).reads = s.reads := rfl

/-! ### mapQueue -/

@[simp] theorem mapQueue_pending (s : State) (q : Nat) (f : Queue → Queue) : (s.mapQueue q f).pending = s.pending := rfl
@[simp] theorem mapQueue_now (s : State) (q : Nat) (f : Queue → Queue) : (s.mapQueue q f).now = s.now := rfl
@[simp] theorem mapQueue_nowFrac (s : State) (q : Nat) (f : Queue → Queue) : (s.mapQueue q f).nowFrac = s.nowFrac := rfl
@[simp] theorem mapQueue_upClock (s : State) (q : Nat) (f : Queue → Queue) : (s.mapQueue q f).upClock = s.upClock := rfl
@[simp] theorem mapQueue_ctxStall (s : State) (q : Nat) (f : Queue → Queue) : (s.mapQueue q f).ctxStall = s.ctxStall := rfl
@[simp] theorem mapQueue_regs (s : State) (q : Nat) (f : Queue → Queue) : (s.mapQueue q f).regs = s.regs := rfl
@[simp] theorem mapQueue_mem (s : State) (q : Nat) (f : Queue → Queue) : (s.mapQueue q f).mem = s.mem := rfl
@[simp] theorem mapQueue_undef (s : State) (q : Nat) (f : Queue → Queue) : (s.mapQueue q f).undef = s.undef := rfl
@[simp] theorem mapQueue_poison (s : State) (q : Nat) (f : Queue → Queue) : (s.mapQueue q f).poison = s.poison := rfl
@[simp] theorem mapQueue_cores (s : State) (q : Nat) (f : Queue → Queue) : (s.mapQueue q f).cores = s.cores := rfl
@[simp] theorem mapQueue_launches (s : State) (q : Nat) (f : Queue → Queue) : (s.mapQueue q f).launches = s.launches := rfl
@[simp] theorem mapQueue_nextLaunch (s : State) (q : Nat) (f : Queue → Queue) : (s.mapQueue q f).nextLaunch = s.nextLaunch := rfl
@[simp] theorem mapQueue_nextUid (s : State) (q : Nat) (f : Queue → Queue) : (s.mapQueue q f).nextUid = s.nextUid := rfl
@[simp] theorem mapQueue_movers (s : State) (q : Nat) (f : Queue → Queue) : (s.mapQueue q f).movers = s.movers := rfl
@[simp] theorem mapQueue_windowNotified (s : State) (q : Nat) (f : Queue → Queue) : (s.mapQueue q f).windowNotified = s.windowNotified := rfl
@[simp] theorem mapQueue_windowDecreased (s : State) (q : Nat) (f : Queue → Queue) : (s.mapQueue q f).windowDecreased = s.windowDecreased := rfl
@[simp] theorem mapQueue_contexts (s : State) (q : Nat) (f : Queue → Queue) : (s.mapQueue q f).contexts = s.contexts := rfl
@[simp] theorem mapQueue_ranges (s : State) (q : Nat) (f : Queue → Queue) : (s.mapQueue q f).ranges = s.ranges := rfl
@[simp] theorem mapQueue_allocs (s : State) (q : Nat) (f : Queue → Queue) : (s.mapQueue q f).allocs = s.allocs := rfl
@[simp] theorem mapQueue_eventObjs (s : State) (q : Nat) (f : Queue → Queue) : (s.mapQueue q f).eventObjs = s.eventObjs := rfl
@[simp] theorem mapQueue_unanswered (s : State) (q : Nat) (f : Queue → Queue) : (s.mapQueue q f).unanswered = s.unanswered := rfl
@[simp] theorem mapQueue_sent (s : State) (q : Nat) (f : Queue → Queue) : (s.mapQueue q f).sent = s.sent := rfl
@[simp] theorem mapQueue_value (s : State) (q : Nat) (f : Queue → Queue) : (s.mapQueue q f).value = s.value := rfl
@[simp] theorem mapQueue_status (s : State) (q : Nat) (f : Queue → Queue) : (s.mapQueue q f).status = s.status := rfl
@[simp] theorem mapQueue_channels (s : State) (q : Nat) (f : Queue → Queue) : (s.mapQueue q f).channels = s.channels := rfl
@[simp] theorem mapQueue_retireCand (s : State) (q : Nat) (f : Queue → Queue) : (s.mapQueue q f).retireCand = s.retireCand := rfl
@[simp] theorem mapQueue_wayCand (s : State) (q : Nat) (f : Queue → Queue) : (s.mapQueue q f).wayCand = s.wayCand := rfl
@[simp] theorem mapQueue_retired (s : State) (q : Nat) (f : Queue → Queue) : (s.mapQueue q f).retired = s.retired := rfl
@[simp] theorem mapQueue_partitions (s : State) (q : Nat) (f : Queue → Queue) : (s.mapQueue q f).partitions = s.partitions := rfl
@[simp] theorem mapQueue_mt (s : State) (q : Nat) (f : Queue → Queue) : (s.mapQueue q f).mt = s.mt := rfl
@[simp] theorem mapQueue_pw (s : State) (q : Nat) (f : Queue → Queue) : (s.mapQueue q f).pw = s.pw := rfl
@[simp] theorem mapQueue_el (s : State) (q : Nat) (f : Queue → Queue) : (s.mapQueue q f).el = s.el := rfl
@[simp] theorem mapQueue_exportObj (s : State) (q : Nat) (f : Queue → Queue) : (s.mapQueue q f).exportObj = s.exportObj := rfl
@[simp] theorem mapQueue_lastWindow (s : State) (q : Nat) (f : Queue → Queue) : (s.mapQueue q f).lastWindow = s.lastWindow := rfl
@[simp] theorem mapQueue_sugar (s : State) (q : Nat) (f : Queue → Queue) : (s.mapQueue q f).sugar = s.sugar := rfl
@[simp] theorem mapQueue_uc (s : State) (q : Nat) (f : Queue → Queue) : (s.mapQueue q f).uc = s.uc := rfl
@[simp] theorem mapQueue_submits (s : State) (q : Nat) (f : Queue → Queue) : (s.mapQueue q f).submits = s.submits := rfl
@[simp] theorem mapQueue_tuLookups (s : State) (q : Nat) (f : Queue → Queue) : (s.mapQueue q f).tuLookups = s.tuLookups := rfl
@[simp] theorem mapQueue_rescrubbed (s : State) (q : Nat) (f : Queue → Queue) : (s.mapQueue q f).rescrubbed = s.rescrubbed := rfl
@[simp] theorem mapQueue_groupHeld (s : State) (q : Nat) (f : Queue → Queue) : (s.mapQueue q f).groupHeld = s.groupHeld := rfl
@[simp] theorem mapQueue_groupLoad (s : State) (q : Nat) (f : Queue → Queue) : (s.mapQueue q f).groupLoad = s.groupLoad := rfl
@[simp] theorem mapQueue_lines (s : State) (q : Nat) (f : Queue → Queue) : (s.mapQueue q f).lines = s.lines := rfl
@[simp] theorem mapQueue_l2Clock (s : State) (q : Nat) (f : Queue → Queue) : (s.mapQueue q f).l2Clock = s.l2Clock := rfl
@[simp] theorem mapQueue_l2Off (s : State) (q : Nat) (f : Queue → Queue) : (s.mapQueue q f).l2Off = s.l2Off := rfl
@[simp] theorem mapQueue_victimUsed (s : State) (q : Nat) (f : Queue → Queue) : (s.mapQueue q f).victimUsed = s.victimUsed := rfl
@[simp] theorem mapQueue_victimBudget (s : State) (q : Nat) (f : Queue → Queue) : (s.mapQueue q f).victimBudget = s.victimBudget := rfl
@[simp] theorem mapQueue_domainStopped (s : State) (q : Nat) (f : Queue → Queue) : (s.mapQueue q f).domainStopped = s.domainStopped := rfl
@[simp] theorem mapQueue_domainErr (s : State) (q : Nat) (f : Queue → Queue) : (s.mapQueue q f).domainErr = s.domainErr := rfl
@[simp] theorem mapQueue_domainResets (s : State) (q : Nat) (f : Queue → Queue) : (s.mapQueue q f).domainResets = s.domainResets := rfl
@[simp] theorem mapQueue_boot (s : State) (q : Nat) (f : Queue → Queue) : (s.mapQueue q f).boot = s.boot := rfl
@[simp] theorem mapQueue_store (s : State) (q : Nat) (f : Queue → Queue) : (s.mapQueue q f).store = s.store := rfl
@[simp] theorem mapQueue_sp (s : State) (q : Nat) (f : Queue → Queue) : (s.mapQueue q f).sp = s.sp := rfl
@[simp] theorem mapQueue_chain (s : State) (q : Nat) (f : Queue → Queue) : (s.mapQueue q f).chain = s.chain := rfl
@[simp] theorem mapQueue_regions (s : State) (q : Nat) (f : Queue → Queue) : (s.mapQueue q f).regions = s.regions := rfl
@[simp] theorem mapQueue_recSince (s : State) (q : Nat) (f : Queue → Queue) : (s.mapQueue q f).recSince = s.recSince := rfl
@[simp] theorem mapQueue_calmSince (s : State) (q : Nat) (f : Queue → Queue) : (s.mapQueue q f).calmSince = s.calmSince := rfl
@[simp] theorem mapQueue_feSince (s : State) (q : Nat) (f : Queue → Queue) : (s.mapQueue q f).feSince = s.feSince := rfl
@[simp] theorem mapQueue_feFault (s : State) (q : Nat) (f : Queue → Queue) : (s.mapQueue q f).feFault = s.feFault := rfl
@[simp] theorem mapQueue_reads (s : State) (q : Nat) (f : Queue → Queue) : (s.mapQueue q f).reads = s.reads := rfl

/-! ### mapChannel -/

@[simp] theorem mapChannel_pending (s : State) (n : Nat) (f : Channel → Channel) : (s.mapChannel n f).pending = s.pending := rfl
@[simp] theorem mapChannel_now (s : State) (n : Nat) (f : Channel → Channel) : (s.mapChannel n f).now = s.now := rfl
@[simp] theorem mapChannel_nowFrac (s : State) (n : Nat) (f : Channel → Channel) : (s.mapChannel n f).nowFrac = s.nowFrac := rfl
@[simp] theorem mapChannel_upClock (s : State) (n : Nat) (f : Channel → Channel) : (s.mapChannel n f).upClock = s.upClock := rfl
@[simp] theorem mapChannel_ctxStall (s : State) (n : Nat) (f : Channel → Channel) : (s.mapChannel n f).ctxStall = s.ctxStall := rfl
@[simp] theorem mapChannel_regs (s : State) (n : Nat) (f : Channel → Channel) : (s.mapChannel n f).regs = s.regs := rfl
@[simp] theorem mapChannel_mem (s : State) (n : Nat) (f : Channel → Channel) : (s.mapChannel n f).mem = s.mem := rfl
@[simp] theorem mapChannel_undef (s : State) (n : Nat) (f : Channel → Channel) : (s.mapChannel n f).undef = s.undef := rfl
@[simp] theorem mapChannel_poison (s : State) (n : Nat) (f : Channel → Channel) : (s.mapChannel n f).poison = s.poison := rfl
@[simp] theorem mapChannel_cores (s : State) (n : Nat) (f : Channel → Channel) : (s.mapChannel n f).cores = s.cores := rfl
@[simp] theorem mapChannel_launches (s : State) (n : Nat) (f : Channel → Channel) : (s.mapChannel n f).launches = s.launches := rfl
@[simp] theorem mapChannel_nextLaunch (s : State) (n : Nat) (f : Channel → Channel) : (s.mapChannel n f).nextLaunch = s.nextLaunch := rfl
@[simp] theorem mapChannel_nextUid (s : State) (n : Nat) (f : Channel → Channel) : (s.mapChannel n f).nextUid = s.nextUid := rfl
@[simp] theorem mapChannel_movers (s : State) (n : Nat) (f : Channel → Channel) : (s.mapChannel n f).movers = s.movers := rfl
@[simp] theorem mapChannel_windowNotified (s : State) (n : Nat) (f : Channel → Channel) : (s.mapChannel n f).windowNotified = s.windowNotified := rfl
@[simp] theorem mapChannel_windowDecreased (s : State) (n : Nat) (f : Channel → Channel) : (s.mapChannel n f).windowDecreased = s.windowDecreased := rfl
@[simp] theorem mapChannel_contexts (s : State) (n : Nat) (f : Channel → Channel) : (s.mapChannel n f).contexts = s.contexts := rfl
@[simp] theorem mapChannel_queues (s : State) (n : Nat) (f : Channel → Channel) : (s.mapChannel n f).queues = s.queues := rfl
@[simp] theorem mapChannel_ranges (s : State) (n : Nat) (f : Channel → Channel) : (s.mapChannel n f).ranges = s.ranges := rfl
@[simp] theorem mapChannel_allocs (s : State) (n : Nat) (f : Channel → Channel) : (s.mapChannel n f).allocs = s.allocs := rfl
@[simp] theorem mapChannel_eventObjs (s : State) (n : Nat) (f : Channel → Channel) : (s.mapChannel n f).eventObjs = s.eventObjs := rfl
@[simp] theorem mapChannel_unanswered (s : State) (n : Nat) (f : Channel → Channel) : (s.mapChannel n f).unanswered = s.unanswered := rfl
@[simp] theorem mapChannel_sent (s : State) (n : Nat) (f : Channel → Channel) : (s.mapChannel n f).sent = s.sent := rfl
@[simp] theorem mapChannel_value (s : State) (n : Nat) (f : Channel → Channel) : (s.mapChannel n f).value = s.value := rfl
@[simp] theorem mapChannel_status (s : State) (n : Nat) (f : Channel → Channel) : (s.mapChannel n f).status = s.status := rfl
@[simp] theorem mapChannel_retireCand (s : State) (n : Nat) (f : Channel → Channel) : (s.mapChannel n f).retireCand = s.retireCand := rfl
@[simp] theorem mapChannel_wayCand (s : State) (n : Nat) (f : Channel → Channel) : (s.mapChannel n f).wayCand = s.wayCand := rfl
@[simp] theorem mapChannel_retired (s : State) (n : Nat) (f : Channel → Channel) : (s.mapChannel n f).retired = s.retired := rfl
@[simp] theorem mapChannel_partitions (s : State) (n : Nat) (f : Channel → Channel) : (s.mapChannel n f).partitions = s.partitions := rfl
@[simp] theorem mapChannel_mt (s : State) (n : Nat) (f : Channel → Channel) : (s.mapChannel n f).mt = s.mt := rfl
@[simp] theorem mapChannel_pw (s : State) (n : Nat) (f : Channel → Channel) : (s.mapChannel n f).pw = s.pw := rfl
@[simp] theorem mapChannel_el (s : State) (n : Nat) (f : Channel → Channel) : (s.mapChannel n f).el = s.el := rfl
@[simp] theorem mapChannel_exportObj (s : State) (n : Nat) (f : Channel → Channel) : (s.mapChannel n f).exportObj = s.exportObj := rfl
@[simp] theorem mapChannel_lastWindow (s : State) (n : Nat) (f : Channel → Channel) : (s.mapChannel n f).lastWindow = s.lastWindow := rfl
@[simp] theorem mapChannel_sugar (s : State) (n : Nat) (f : Channel → Channel) : (s.mapChannel n f).sugar = s.sugar := rfl
@[simp] theorem mapChannel_uc (s : State) (n : Nat) (f : Channel → Channel) : (s.mapChannel n f).uc = s.uc := rfl
@[simp] theorem mapChannel_submits (s : State) (n : Nat) (f : Channel → Channel) : (s.mapChannel n f).submits = s.submits := rfl
@[simp] theorem mapChannel_tuLookups (s : State) (n : Nat) (f : Channel → Channel) : (s.mapChannel n f).tuLookups = s.tuLookups := rfl
@[simp] theorem mapChannel_rescrubbed (s : State) (n : Nat) (f : Channel → Channel) : (s.mapChannel n f).rescrubbed = s.rescrubbed := rfl
@[simp] theorem mapChannel_groupHeld (s : State) (n : Nat) (f : Channel → Channel) : (s.mapChannel n f).groupHeld = s.groupHeld := rfl
@[simp] theorem mapChannel_groupLoad (s : State) (n : Nat) (f : Channel → Channel) : (s.mapChannel n f).groupLoad = s.groupLoad := rfl
@[simp] theorem mapChannel_lines (s : State) (n : Nat) (f : Channel → Channel) : (s.mapChannel n f).lines = s.lines := rfl
@[simp] theorem mapChannel_l2Clock (s : State) (n : Nat) (f : Channel → Channel) : (s.mapChannel n f).l2Clock = s.l2Clock := rfl
@[simp] theorem mapChannel_l2Off (s : State) (n : Nat) (f : Channel → Channel) : (s.mapChannel n f).l2Off = s.l2Off := rfl
@[simp] theorem mapChannel_victimUsed (s : State) (n : Nat) (f : Channel → Channel) : (s.mapChannel n f).victimUsed = s.victimUsed := rfl
@[simp] theorem mapChannel_victimBudget (s : State) (n : Nat) (f : Channel → Channel) : (s.mapChannel n f).victimBudget = s.victimBudget := rfl
@[simp] theorem mapChannel_domainStopped (s : State) (n : Nat) (f : Channel → Channel) : (s.mapChannel n f).domainStopped = s.domainStopped := rfl
@[simp] theorem mapChannel_domainErr (s : State) (n : Nat) (f : Channel → Channel) : (s.mapChannel n f).domainErr = s.domainErr := rfl
@[simp] theorem mapChannel_domainResets (s : State) (n : Nat) (f : Channel → Channel) : (s.mapChannel n f).domainResets = s.domainResets := rfl
@[simp] theorem mapChannel_boot (s : State) (n : Nat) (f : Channel → Channel) : (s.mapChannel n f).boot = s.boot := rfl
@[simp] theorem mapChannel_store (s : State) (n : Nat) (f : Channel → Channel) : (s.mapChannel n f).store = s.store := rfl
@[simp] theorem mapChannel_sp (s : State) (n : Nat) (f : Channel → Channel) : (s.mapChannel n f).sp = s.sp := rfl
@[simp] theorem mapChannel_chain (s : State) (n : Nat) (f : Channel → Channel) : (s.mapChannel n f).chain = s.chain := rfl
@[simp] theorem mapChannel_regions (s : State) (n : Nat) (f : Channel → Channel) : (s.mapChannel n f).regions = s.regions := rfl
@[simp] theorem mapChannel_recSince (s : State) (n : Nat) (f : Channel → Channel) : (s.mapChannel n f).recSince = s.recSince := rfl
@[simp] theorem mapChannel_calmSince (s : State) (n : Nat) (f : Channel → Channel) : (s.mapChannel n f).calmSince = s.calmSince := rfl
@[simp] theorem mapChannel_feSince (s : State) (n : Nat) (f : Channel → Channel) : (s.mapChannel n f).feSince = s.feSince := rfl
@[simp] theorem mapChannel_feFault (s : State) (n : Nat) (f : Channel → Channel) : (s.mapChannel n f).feFault = s.feFault := rfl
@[simp] theorem mapChannel_reads (s : State) (n : Nat) (f : Channel → Channel) : (s.mapChannel n f).reads = s.reads := rfl

/-! ### mapPartition -/

@[simp] theorem mapPartition_pending (s : State) (n : Nat) (f : Partition → Partition) : (s.mapPartition n f).pending = s.pending := rfl
@[simp] theorem mapPartition_now (s : State) (n : Nat) (f : Partition → Partition) : (s.mapPartition n f).now = s.now := rfl
@[simp] theorem mapPartition_nowFrac (s : State) (n : Nat) (f : Partition → Partition) : (s.mapPartition n f).nowFrac = s.nowFrac := rfl
@[simp] theorem mapPartition_upClock (s : State) (n : Nat) (f : Partition → Partition) : (s.mapPartition n f).upClock = s.upClock := rfl
@[simp] theorem mapPartition_ctxStall (s : State) (n : Nat) (f : Partition → Partition) : (s.mapPartition n f).ctxStall = s.ctxStall := rfl
@[simp] theorem mapPartition_regs (s : State) (n : Nat) (f : Partition → Partition) : (s.mapPartition n f).regs = s.regs := rfl
@[simp] theorem mapPartition_mem (s : State) (n : Nat) (f : Partition → Partition) : (s.mapPartition n f).mem = s.mem := rfl
@[simp] theorem mapPartition_undef (s : State) (n : Nat) (f : Partition → Partition) : (s.mapPartition n f).undef = s.undef := rfl
@[simp] theorem mapPartition_poison (s : State) (n : Nat) (f : Partition → Partition) : (s.mapPartition n f).poison = s.poison := rfl
@[simp] theorem mapPartition_cores (s : State) (n : Nat) (f : Partition → Partition) : (s.mapPartition n f).cores = s.cores := rfl
@[simp] theorem mapPartition_launches (s : State) (n : Nat) (f : Partition → Partition) : (s.mapPartition n f).launches = s.launches := rfl
@[simp] theorem mapPartition_nextLaunch (s : State) (n : Nat) (f : Partition → Partition) : (s.mapPartition n f).nextLaunch = s.nextLaunch := rfl
@[simp] theorem mapPartition_nextUid (s : State) (n : Nat) (f : Partition → Partition) : (s.mapPartition n f).nextUid = s.nextUid := rfl
@[simp] theorem mapPartition_movers (s : State) (n : Nat) (f : Partition → Partition) : (s.mapPartition n f).movers = s.movers := rfl
@[simp] theorem mapPartition_windowNotified (s : State) (n : Nat) (f : Partition → Partition) : (s.mapPartition n f).windowNotified = s.windowNotified := rfl
@[simp] theorem mapPartition_windowDecreased (s : State) (n : Nat) (f : Partition → Partition) : (s.mapPartition n f).windowDecreased = s.windowDecreased := rfl
@[simp] theorem mapPartition_contexts (s : State) (n : Nat) (f : Partition → Partition) : (s.mapPartition n f).contexts = s.contexts := rfl
@[simp] theorem mapPartition_queues (s : State) (n : Nat) (f : Partition → Partition) : (s.mapPartition n f).queues = s.queues := rfl
@[simp] theorem mapPartition_ranges (s : State) (n : Nat) (f : Partition → Partition) : (s.mapPartition n f).ranges = s.ranges := rfl
@[simp] theorem mapPartition_allocs (s : State) (n : Nat) (f : Partition → Partition) : (s.mapPartition n f).allocs = s.allocs := rfl
@[simp] theorem mapPartition_eventObjs (s : State) (n : Nat) (f : Partition → Partition) : (s.mapPartition n f).eventObjs = s.eventObjs := rfl
@[simp] theorem mapPartition_unanswered (s : State) (n : Nat) (f : Partition → Partition) : (s.mapPartition n f).unanswered = s.unanswered := rfl
@[simp] theorem mapPartition_sent (s : State) (n : Nat) (f : Partition → Partition) : (s.mapPartition n f).sent = s.sent := rfl
@[simp] theorem mapPartition_value (s : State) (n : Nat) (f : Partition → Partition) : (s.mapPartition n f).value = s.value := rfl
@[simp] theorem mapPartition_status (s : State) (n : Nat) (f : Partition → Partition) : (s.mapPartition n f).status = s.status := rfl
@[simp] theorem mapPartition_channels (s : State) (n : Nat) (f : Partition → Partition) : (s.mapPartition n f).channels = s.channels := rfl
@[simp] theorem mapPartition_retireCand (s : State) (n : Nat) (f : Partition → Partition) : (s.mapPartition n f).retireCand = s.retireCand := rfl
@[simp] theorem mapPartition_wayCand (s : State) (n : Nat) (f : Partition → Partition) : (s.mapPartition n f).wayCand = s.wayCand := rfl
@[simp] theorem mapPartition_retired (s : State) (n : Nat) (f : Partition → Partition) : (s.mapPartition n f).retired = s.retired := rfl
@[simp] theorem mapPartition_mt (s : State) (n : Nat) (f : Partition → Partition) : (s.mapPartition n f).mt = s.mt := rfl
@[simp] theorem mapPartition_pw (s : State) (n : Nat) (f : Partition → Partition) : (s.mapPartition n f).pw = s.pw := rfl
@[simp] theorem mapPartition_el (s : State) (n : Nat) (f : Partition → Partition) : (s.mapPartition n f).el = s.el := rfl
@[simp] theorem mapPartition_exportObj (s : State) (n : Nat) (f : Partition → Partition) : (s.mapPartition n f).exportObj = s.exportObj := rfl
@[simp] theorem mapPartition_lastWindow (s : State) (n : Nat) (f : Partition → Partition) : (s.mapPartition n f).lastWindow = s.lastWindow := rfl
@[simp] theorem mapPartition_sugar (s : State) (n : Nat) (f : Partition → Partition) : (s.mapPartition n f).sugar = s.sugar := rfl
@[simp] theorem mapPartition_uc (s : State) (n : Nat) (f : Partition → Partition) : (s.mapPartition n f).uc = s.uc := rfl
@[simp] theorem mapPartition_submits (s : State) (n : Nat) (f : Partition → Partition) : (s.mapPartition n f).submits = s.submits := rfl
@[simp] theorem mapPartition_tuLookups (s : State) (n : Nat) (f : Partition → Partition) : (s.mapPartition n f).tuLookups = s.tuLookups := rfl
@[simp] theorem mapPartition_rescrubbed (s : State) (n : Nat) (f : Partition → Partition) : (s.mapPartition n f).rescrubbed = s.rescrubbed := rfl
@[simp] theorem mapPartition_groupHeld (s : State) (n : Nat) (f : Partition → Partition) : (s.mapPartition n f).groupHeld = s.groupHeld := rfl
@[simp] theorem mapPartition_groupLoad (s : State) (n : Nat) (f : Partition → Partition) : (s.mapPartition n f).groupLoad = s.groupLoad := rfl
@[simp] theorem mapPartition_lines (s : State) (n : Nat) (f : Partition → Partition) : (s.mapPartition n f).lines = s.lines := rfl
@[simp] theorem mapPartition_l2Clock (s : State) (n : Nat) (f : Partition → Partition) : (s.mapPartition n f).l2Clock = s.l2Clock := rfl
@[simp] theorem mapPartition_l2Off (s : State) (n : Nat) (f : Partition → Partition) : (s.mapPartition n f).l2Off = s.l2Off := rfl
@[simp] theorem mapPartition_victimUsed (s : State) (n : Nat) (f : Partition → Partition) : (s.mapPartition n f).victimUsed = s.victimUsed := rfl
@[simp] theorem mapPartition_victimBudget (s : State) (n : Nat) (f : Partition → Partition) : (s.mapPartition n f).victimBudget = s.victimBudget := rfl
@[simp] theorem mapPartition_domainStopped (s : State) (n : Nat) (f : Partition → Partition) : (s.mapPartition n f).domainStopped = s.domainStopped := rfl
@[simp] theorem mapPartition_domainErr (s : State) (n : Nat) (f : Partition → Partition) : (s.mapPartition n f).domainErr = s.domainErr := rfl
@[simp] theorem mapPartition_domainResets (s : State) (n : Nat) (f : Partition → Partition) : (s.mapPartition n f).domainResets = s.domainResets := rfl
@[simp] theorem mapPartition_boot (s : State) (n : Nat) (f : Partition → Partition) : (s.mapPartition n f).boot = s.boot := rfl
@[simp] theorem mapPartition_store (s : State) (n : Nat) (f : Partition → Partition) : (s.mapPartition n f).store = s.store := rfl
@[simp] theorem mapPartition_sp (s : State) (n : Nat) (f : Partition → Partition) : (s.mapPartition n f).sp = s.sp := rfl
@[simp] theorem mapPartition_chain (s : State) (n : Nat) (f : Partition → Partition) : (s.mapPartition n f).chain = s.chain := rfl
@[simp] theorem mapPartition_regions (s : State) (n : Nat) (f : Partition → Partition) : (s.mapPartition n f).regions = s.regions := rfl
@[simp] theorem mapPartition_recSince (s : State) (n : Nat) (f : Partition → Partition) : (s.mapPartition n f).recSince = s.recSince := rfl
@[simp] theorem mapPartition_calmSince (s : State) (n : Nat) (f : Partition → Partition) : (s.mapPartition n f).calmSince = s.calmSince := rfl
@[simp] theorem mapPartition_feSince (s : State) (n : Nat) (f : Partition → Partition) : (s.mapPartition n f).feSince = s.feSince := rfl
@[simp] theorem mapPartition_feFault (s : State) (n : Nat) (f : Partition → Partition) : (s.mapPartition n f).feFault = s.feFault := rfl
@[simp] theorem mapPartition_reads (s : State) (n : Nat) (f : Partition → Partition) : (s.mapPartition n f).reads = s.reads := rfl

/-! ### mapLink -/

@[simp] theorem mapLink_pending (s : State) (n : Nat) (f : ELink → ELink) : (s.mapLink n f).pending = s.pending := rfl
@[simp] theorem mapLink_now (s : State) (n : Nat) (f : ELink → ELink) : (s.mapLink n f).now = s.now := rfl
@[simp] theorem mapLink_nowFrac (s : State) (n : Nat) (f : ELink → ELink) : (s.mapLink n f).nowFrac = s.nowFrac := rfl
@[simp] theorem mapLink_upClock (s : State) (n : Nat) (f : ELink → ELink) : (s.mapLink n f).upClock = s.upClock := rfl
@[simp] theorem mapLink_ctxStall (s : State) (n : Nat) (f : ELink → ELink) : (s.mapLink n f).ctxStall = s.ctxStall := rfl
@[simp] theorem mapLink_regs (s : State) (n : Nat) (f : ELink → ELink) : (s.mapLink n f).regs = s.regs := rfl
@[simp] theorem mapLink_mem (s : State) (n : Nat) (f : ELink → ELink) : (s.mapLink n f).mem = s.mem := rfl
@[simp] theorem mapLink_undef (s : State) (n : Nat) (f : ELink → ELink) : (s.mapLink n f).undef = s.undef := rfl
@[simp] theorem mapLink_poison (s : State) (n : Nat) (f : ELink → ELink) : (s.mapLink n f).poison = s.poison := rfl
@[simp] theorem mapLink_cores (s : State) (n : Nat) (f : ELink → ELink) : (s.mapLink n f).cores = s.cores := rfl
@[simp] theorem mapLink_launches (s : State) (n : Nat) (f : ELink → ELink) : (s.mapLink n f).launches = s.launches := rfl
@[simp] theorem mapLink_nextLaunch (s : State) (n : Nat) (f : ELink → ELink) : (s.mapLink n f).nextLaunch = s.nextLaunch := rfl
@[simp] theorem mapLink_nextUid (s : State) (n : Nat) (f : ELink → ELink) : (s.mapLink n f).nextUid = s.nextUid := rfl
@[simp] theorem mapLink_movers (s : State) (n : Nat) (f : ELink → ELink) : (s.mapLink n f).movers = s.movers := rfl
@[simp] theorem mapLink_windowNotified (s : State) (n : Nat) (f : ELink → ELink) : (s.mapLink n f).windowNotified = s.windowNotified := rfl
@[simp] theorem mapLink_windowDecreased (s : State) (n : Nat) (f : ELink → ELink) : (s.mapLink n f).windowDecreased = s.windowDecreased := rfl
@[simp] theorem mapLink_contexts (s : State) (n : Nat) (f : ELink → ELink) : (s.mapLink n f).contexts = s.contexts := rfl
@[simp] theorem mapLink_queues (s : State) (n : Nat) (f : ELink → ELink) : (s.mapLink n f).queues = s.queues := rfl
@[simp] theorem mapLink_ranges (s : State) (n : Nat) (f : ELink → ELink) : (s.mapLink n f).ranges = s.ranges := rfl
@[simp] theorem mapLink_allocs (s : State) (n : Nat) (f : ELink → ELink) : (s.mapLink n f).allocs = s.allocs := rfl
@[simp] theorem mapLink_eventObjs (s : State) (n : Nat) (f : ELink → ELink) : (s.mapLink n f).eventObjs = s.eventObjs := rfl
@[simp] theorem mapLink_unanswered (s : State) (n : Nat) (f : ELink → ELink) : (s.mapLink n f).unanswered = s.unanswered := rfl
@[simp] theorem mapLink_sent (s : State) (n : Nat) (f : ELink → ELink) : (s.mapLink n f).sent = s.sent := rfl
@[simp] theorem mapLink_value (s : State) (n : Nat) (f : ELink → ELink) : (s.mapLink n f).value = s.value := rfl
@[simp] theorem mapLink_status (s : State) (n : Nat) (f : ELink → ELink) : (s.mapLink n f).status = s.status := rfl
@[simp] theorem mapLink_channels (s : State) (n : Nat) (f : ELink → ELink) : (s.mapLink n f).channels = s.channels := rfl
@[simp] theorem mapLink_retireCand (s : State) (n : Nat) (f : ELink → ELink) : (s.mapLink n f).retireCand = s.retireCand := rfl
@[simp] theorem mapLink_wayCand (s : State) (n : Nat) (f : ELink → ELink) : (s.mapLink n f).wayCand = s.wayCand := rfl
@[simp] theorem mapLink_retired (s : State) (n : Nat) (f : ELink → ELink) : (s.mapLink n f).retired = s.retired := rfl
@[simp] theorem mapLink_partitions (s : State) (n : Nat) (f : ELink → ELink) : (s.mapLink n f).partitions = s.partitions := rfl
@[simp] theorem mapLink_mt (s : State) (n : Nat) (f : ELink → ELink) : (s.mapLink n f).mt = s.mt := rfl
@[simp] theorem mapLink_pw (s : State) (n : Nat) (f : ELink → ELink) : (s.mapLink n f).pw = s.pw := rfl
@[simp] theorem mapLink_exportObj (s : State) (n : Nat) (f : ELink → ELink) : (s.mapLink n f).exportObj = s.exportObj := rfl
@[simp] theorem mapLink_lastWindow (s : State) (n : Nat) (f : ELink → ELink) : (s.mapLink n f).lastWindow = s.lastWindow := rfl
@[simp] theorem mapLink_sugar (s : State) (n : Nat) (f : ELink → ELink) : (s.mapLink n f).sugar = s.sugar := rfl
@[simp] theorem mapLink_uc (s : State) (n : Nat) (f : ELink → ELink) : (s.mapLink n f).uc = s.uc := rfl
@[simp] theorem mapLink_submits (s : State) (n : Nat) (f : ELink → ELink) : (s.mapLink n f).submits = s.submits := rfl
@[simp] theorem mapLink_tuLookups (s : State) (n : Nat) (f : ELink → ELink) : (s.mapLink n f).tuLookups = s.tuLookups := rfl
@[simp] theorem mapLink_rescrubbed (s : State) (n : Nat) (f : ELink → ELink) : (s.mapLink n f).rescrubbed = s.rescrubbed := rfl
@[simp] theorem mapLink_groupHeld (s : State) (n : Nat) (f : ELink → ELink) : (s.mapLink n f).groupHeld = s.groupHeld := rfl
@[simp] theorem mapLink_groupLoad (s : State) (n : Nat) (f : ELink → ELink) : (s.mapLink n f).groupLoad = s.groupLoad := rfl
@[simp] theorem mapLink_lines (s : State) (n : Nat) (f : ELink → ELink) : (s.mapLink n f).lines = s.lines := rfl
@[simp] theorem mapLink_l2Clock (s : State) (n : Nat) (f : ELink → ELink) : (s.mapLink n f).l2Clock = s.l2Clock := rfl
@[simp] theorem mapLink_l2Off (s : State) (n : Nat) (f : ELink → ELink) : (s.mapLink n f).l2Off = s.l2Off := rfl
@[simp] theorem mapLink_victimUsed (s : State) (n : Nat) (f : ELink → ELink) : (s.mapLink n f).victimUsed = s.victimUsed := rfl
@[simp] theorem mapLink_victimBudget (s : State) (n : Nat) (f : ELink → ELink) : (s.mapLink n f).victimBudget = s.victimBudget := rfl
@[simp] theorem mapLink_domainStopped (s : State) (n : Nat) (f : ELink → ELink) : (s.mapLink n f).domainStopped = s.domainStopped := rfl
@[simp] theorem mapLink_domainErr (s : State) (n : Nat) (f : ELink → ELink) : (s.mapLink n f).domainErr = s.domainErr := rfl
@[simp] theorem mapLink_domainResets (s : State) (n : Nat) (f : ELink → ELink) : (s.mapLink n f).domainResets = s.domainResets := rfl
@[simp] theorem mapLink_boot (s : State) (n : Nat) (f : ELink → ELink) : (s.mapLink n f).boot = s.boot := rfl
@[simp] theorem mapLink_store (s : State) (n : Nat) (f : ELink → ELink) : (s.mapLink n f).store = s.store := rfl
@[simp] theorem mapLink_sp (s : State) (n : Nat) (f : ELink → ELink) : (s.mapLink n f).sp = s.sp := rfl
@[simp] theorem mapLink_chain (s : State) (n : Nat) (f : ELink → ELink) : (s.mapLink n f).chain = s.chain := rfl
@[simp] theorem mapLink_regions (s : State) (n : Nat) (f : ELink → ELink) : (s.mapLink n f).regions = s.regions := rfl
@[simp] theorem mapLink_recSince (s : State) (n : Nat) (f : ELink → ELink) : (s.mapLink n f).recSince = s.recSince := rfl
@[simp] theorem mapLink_calmSince (s : State) (n : Nat) (f : ELink → ELink) : (s.mapLink n f).calmSince = s.calmSince := rfl
@[simp] theorem mapLink_feSince (s : State) (n : Nat) (f : ELink → ELink) : (s.mapLink n f).feSince = s.feSince := rfl
@[simp] theorem mapLink_feFault (s : State) (n : Nat) (f : ELink → ELink) : (s.mapLink n f).feFault = s.feFault := rfl
@[simp] theorem mapLink_reads (s : State) (n : Nat) (f : ELink → ELink) : (s.mapLink n f).reads = s.reads := rfl

/-! ### mapEOp -/

@[simp] theorem mapEOp_pending (s : State) (n : Nat) (f : EOp → EOp) : (mapEOp s n f).pending = s.pending := rfl
@[simp] theorem mapEOp_now (s : State) (n : Nat) (f : EOp → EOp) : (mapEOp s n f).now = s.now := rfl
@[simp] theorem mapEOp_nowFrac (s : State) (n : Nat) (f : EOp → EOp) : (mapEOp s n f).nowFrac = s.nowFrac := rfl
@[simp] theorem mapEOp_upClock (s : State) (n : Nat) (f : EOp → EOp) : (mapEOp s n f).upClock = s.upClock := rfl
@[simp] theorem mapEOp_ctxStall (s : State) (n : Nat) (f : EOp → EOp) : (mapEOp s n f).ctxStall = s.ctxStall := rfl
@[simp] theorem mapEOp_regs (s : State) (n : Nat) (f : EOp → EOp) : (mapEOp s n f).regs = s.regs := rfl
@[simp] theorem mapEOp_mem (s : State) (n : Nat) (f : EOp → EOp) : (mapEOp s n f).mem = s.mem := rfl
@[simp] theorem mapEOp_undef (s : State) (n : Nat) (f : EOp → EOp) : (mapEOp s n f).undef = s.undef := rfl
@[simp] theorem mapEOp_poison (s : State) (n : Nat) (f : EOp → EOp) : (mapEOp s n f).poison = s.poison := rfl
@[simp] theorem mapEOp_cores (s : State) (n : Nat) (f : EOp → EOp) : (mapEOp s n f).cores = s.cores := rfl
@[simp] theorem mapEOp_launches (s : State) (n : Nat) (f : EOp → EOp) : (mapEOp s n f).launches = s.launches := rfl
@[simp] theorem mapEOp_nextLaunch (s : State) (n : Nat) (f : EOp → EOp) : (mapEOp s n f).nextLaunch = s.nextLaunch := rfl
@[simp] theorem mapEOp_nextUid (s : State) (n : Nat) (f : EOp → EOp) : (mapEOp s n f).nextUid = s.nextUid := rfl
@[simp] theorem mapEOp_movers (s : State) (n : Nat) (f : EOp → EOp) : (mapEOp s n f).movers = s.movers := rfl
@[simp] theorem mapEOp_windowNotified (s : State) (n : Nat) (f : EOp → EOp) : (mapEOp s n f).windowNotified = s.windowNotified := rfl
@[simp] theorem mapEOp_windowDecreased (s : State) (n : Nat) (f : EOp → EOp) : (mapEOp s n f).windowDecreased = s.windowDecreased := rfl
@[simp] theorem mapEOp_contexts (s : State) (n : Nat) (f : EOp → EOp) : (mapEOp s n f).contexts = s.contexts := rfl
@[simp] theorem mapEOp_queues (s : State) (n : Nat) (f : EOp → EOp) : (mapEOp s n f).queues = s.queues := rfl
@[simp] theorem mapEOp_ranges (s : State) (n : Nat) (f : EOp → EOp) : (mapEOp s n f).ranges = s.ranges := rfl
@[simp] theorem mapEOp_allocs (s : State) (n : Nat) (f : EOp → EOp) : (mapEOp s n f).allocs = s.allocs := rfl
@[simp] theorem mapEOp_eventObjs (s : State) (n : Nat) (f : EOp → EOp) : (mapEOp s n f).eventObjs = s.eventObjs := rfl
@[simp] theorem mapEOp_unanswered (s : State) (n : Nat) (f : EOp → EOp) : (mapEOp s n f).unanswered = s.unanswered := rfl
@[simp] theorem mapEOp_sent (s : State) (n : Nat) (f : EOp → EOp) : (mapEOp s n f).sent = s.sent := rfl
@[simp] theorem mapEOp_value (s : State) (n : Nat) (f : EOp → EOp) : (mapEOp s n f).value = s.value := rfl
@[simp] theorem mapEOp_status (s : State) (n : Nat) (f : EOp → EOp) : (mapEOp s n f).status = s.status := rfl
@[simp] theorem mapEOp_channels (s : State) (n : Nat) (f : EOp → EOp) : (mapEOp s n f).channels = s.channels := rfl
@[simp] theorem mapEOp_retireCand (s : State) (n : Nat) (f : EOp → EOp) : (mapEOp s n f).retireCand = s.retireCand := rfl
@[simp] theorem mapEOp_wayCand (s : State) (n : Nat) (f : EOp → EOp) : (mapEOp s n f).wayCand = s.wayCand := rfl
@[simp] theorem mapEOp_retired (s : State) (n : Nat) (f : EOp → EOp) : (mapEOp s n f).retired = s.retired := rfl
@[simp] theorem mapEOp_partitions (s : State) (n : Nat) (f : EOp → EOp) : (mapEOp s n f).partitions = s.partitions := rfl
@[simp] theorem mapEOp_mt (s : State) (n : Nat) (f : EOp → EOp) : (mapEOp s n f).mt = s.mt := rfl
@[simp] theorem mapEOp_pw (s : State) (n : Nat) (f : EOp → EOp) : (mapEOp s n f).pw = s.pw := rfl
@[simp] theorem mapEOp_exportObj (s : State) (n : Nat) (f : EOp → EOp) : (mapEOp s n f).exportObj = s.exportObj := rfl
@[simp] theorem mapEOp_lastWindow (s : State) (n : Nat) (f : EOp → EOp) : (mapEOp s n f).lastWindow = s.lastWindow := rfl
@[simp] theorem mapEOp_sugar (s : State) (n : Nat) (f : EOp → EOp) : (mapEOp s n f).sugar = s.sugar := rfl
@[simp] theorem mapEOp_uc (s : State) (n : Nat) (f : EOp → EOp) : (mapEOp s n f).uc = s.uc := rfl
@[simp] theorem mapEOp_submits (s : State) (n : Nat) (f : EOp → EOp) : (mapEOp s n f).submits = s.submits := rfl
@[simp] theorem mapEOp_tuLookups (s : State) (n : Nat) (f : EOp → EOp) : (mapEOp s n f).tuLookups = s.tuLookups := rfl
@[simp] theorem mapEOp_rescrubbed (s : State) (n : Nat) (f : EOp → EOp) : (mapEOp s n f).rescrubbed = s.rescrubbed := rfl
@[simp] theorem mapEOp_groupHeld (s : State) (n : Nat) (f : EOp → EOp) : (mapEOp s n f).groupHeld = s.groupHeld := rfl
@[simp] theorem mapEOp_groupLoad (s : State) (n : Nat) (f : EOp → EOp) : (mapEOp s n f).groupLoad = s.groupLoad := rfl
@[simp] theorem mapEOp_lines (s : State) (n : Nat) (f : EOp → EOp) : (mapEOp s n f).lines = s.lines := rfl
@[simp] theorem mapEOp_l2Clock (s : State) (n : Nat) (f : EOp → EOp) : (mapEOp s n f).l2Clock = s.l2Clock := rfl
@[simp] theorem mapEOp_l2Off (s : State) (n : Nat) (f : EOp → EOp) : (mapEOp s n f).l2Off = s.l2Off := rfl
@[simp] theorem mapEOp_victimUsed (s : State) (n : Nat) (f : EOp → EOp) : (mapEOp s n f).victimUsed = s.victimUsed := rfl
@[simp] theorem mapEOp_victimBudget (s : State) (n : Nat) (f : EOp → EOp) : (mapEOp s n f).victimBudget = s.victimBudget := rfl
@[simp] theorem mapEOp_domainStopped (s : State) (n : Nat) (f : EOp → EOp) : (mapEOp s n f).domainStopped = s.domainStopped := rfl
@[simp] theorem mapEOp_domainErr (s : State) (n : Nat) (f : EOp → EOp) : (mapEOp s n f).domainErr = s.domainErr := rfl
@[simp] theorem mapEOp_domainResets (s : State) (n : Nat) (f : EOp → EOp) : (mapEOp s n f).domainResets = s.domainResets := rfl
@[simp] theorem mapEOp_boot (s : State) (n : Nat) (f : EOp → EOp) : (mapEOp s n f).boot = s.boot := rfl
@[simp] theorem mapEOp_store (s : State) (n : Nat) (f : EOp → EOp) : (mapEOp s n f).store = s.store := rfl
@[simp] theorem mapEOp_sp (s : State) (n : Nat) (f : EOp → EOp) : (mapEOp s n f).sp = s.sp := rfl
@[simp] theorem mapEOp_chain (s : State) (n : Nat) (f : EOp → EOp) : (mapEOp s n f).chain = s.chain := rfl
@[simp] theorem mapEOp_regions (s : State) (n : Nat) (f : EOp → EOp) : (mapEOp s n f).regions = s.regions := rfl
@[simp] theorem mapEOp_recSince (s : State) (n : Nat) (f : EOp → EOp) : (mapEOp s n f).recSince = s.recSince := rfl
@[simp] theorem mapEOp_calmSince (s : State) (n : Nat) (f : EOp → EOp) : (mapEOp s n f).calmSince = s.calmSince := rfl
@[simp] theorem mapEOp_feSince (s : State) (n : Nat) (f : EOp → EOp) : (mapEOp s n f).feSince = s.feSince := rfl
@[simp] theorem mapEOp_feFault (s : State) (n : Nat) (f : EOp → EOp) : (mapEOp s n f).feFault = s.feFault := rfl
@[simp] theorem mapEOp_reads (s : State) (n : Nat) (f : EOp → EOp) : (mapEOp s n f).reads = s.reads := rfl

/-! ### mapRegion -/

@[simp] theorem mapRegion_pending (s : State) (n : Nat) (f : RegionJob → RegionJob) : (s.mapRegion n f).pending = s.pending := rfl
@[simp] theorem mapRegion_now (s : State) (n : Nat) (f : RegionJob → RegionJob) : (s.mapRegion n f).now = s.now := rfl
@[simp] theorem mapRegion_nowFrac (s : State) (n : Nat) (f : RegionJob → RegionJob) : (s.mapRegion n f).nowFrac = s.nowFrac := rfl
@[simp] theorem mapRegion_upClock (s : State) (n : Nat) (f : RegionJob → RegionJob) : (s.mapRegion n f).upClock = s.upClock := rfl
@[simp] theorem mapRegion_ctxStall (s : State) (n : Nat) (f : RegionJob → RegionJob) : (s.mapRegion n f).ctxStall = s.ctxStall := rfl
@[simp] theorem mapRegion_regs (s : State) (n : Nat) (f : RegionJob → RegionJob) : (s.mapRegion n f).regs = s.regs := rfl
@[simp] theorem mapRegion_mem (s : State) (n : Nat) (f : RegionJob → RegionJob) : (s.mapRegion n f).mem = s.mem := rfl
@[simp] theorem mapRegion_undef (s : State) (n : Nat) (f : RegionJob → RegionJob) : (s.mapRegion n f).undef = s.undef := rfl
@[simp] theorem mapRegion_poison (s : State) (n : Nat) (f : RegionJob → RegionJob) : (s.mapRegion n f).poison = s.poison := rfl
@[simp] theorem mapRegion_cores (s : State) (n : Nat) (f : RegionJob → RegionJob) : (s.mapRegion n f).cores = s.cores := rfl
@[simp] theorem mapRegion_launches (s : State) (n : Nat) (f : RegionJob → RegionJob) : (s.mapRegion n f).launches = s.launches := rfl
@[simp] theorem mapRegion_nextLaunch (s : State) (n : Nat) (f : RegionJob → RegionJob) : (s.mapRegion n f).nextLaunch = s.nextLaunch := rfl
@[simp] theorem mapRegion_nextUid (s : State) (n : Nat) (f : RegionJob → RegionJob) : (s.mapRegion n f).nextUid = s.nextUid := rfl
@[simp] theorem mapRegion_movers (s : State) (n : Nat) (f : RegionJob → RegionJob) : (s.mapRegion n f).movers = s.movers := rfl
@[simp] theorem mapRegion_windowNotified (s : State) (n : Nat) (f : RegionJob → RegionJob) : (s.mapRegion n f).windowNotified = s.windowNotified := rfl
@[simp] theorem mapRegion_windowDecreased (s : State) (n : Nat) (f : RegionJob → RegionJob) : (s.mapRegion n f).windowDecreased = s.windowDecreased := rfl
@[simp] theorem mapRegion_contexts (s : State) (n : Nat) (f : RegionJob → RegionJob) : (s.mapRegion n f).contexts = s.contexts := rfl
@[simp] theorem mapRegion_queues (s : State) (n : Nat) (f : RegionJob → RegionJob) : (s.mapRegion n f).queues = s.queues := rfl
@[simp] theorem mapRegion_ranges (s : State) (n : Nat) (f : RegionJob → RegionJob) : (s.mapRegion n f).ranges = s.ranges := rfl
@[simp] theorem mapRegion_allocs (s : State) (n : Nat) (f : RegionJob → RegionJob) : (s.mapRegion n f).allocs = s.allocs := rfl
@[simp] theorem mapRegion_eventObjs (s : State) (n : Nat) (f : RegionJob → RegionJob) : (s.mapRegion n f).eventObjs = s.eventObjs := rfl
@[simp] theorem mapRegion_unanswered (s : State) (n : Nat) (f : RegionJob → RegionJob) : (s.mapRegion n f).unanswered = s.unanswered := rfl
@[simp] theorem mapRegion_sent (s : State) (n : Nat) (f : RegionJob → RegionJob) : (s.mapRegion n f).sent = s.sent := rfl
@[simp] theorem mapRegion_value (s : State) (n : Nat) (f : RegionJob → RegionJob) : (s.mapRegion n f).value = s.value := rfl
@[simp] theorem mapRegion_status (s : State) (n : Nat) (f : RegionJob → RegionJob) : (s.mapRegion n f).status = s.status := rfl
@[simp] theorem mapRegion_channels (s : State) (n : Nat) (f : RegionJob → RegionJob) : (s.mapRegion n f).channels = s.channels := rfl
@[simp] theorem mapRegion_retireCand (s : State) (n : Nat) (f : RegionJob → RegionJob) : (s.mapRegion n f).retireCand = s.retireCand := rfl
@[simp] theorem mapRegion_wayCand (s : State) (n : Nat) (f : RegionJob → RegionJob) : (s.mapRegion n f).wayCand = s.wayCand := rfl
@[simp] theorem mapRegion_retired (s : State) (n : Nat) (f : RegionJob → RegionJob) : (s.mapRegion n f).retired = s.retired := rfl
@[simp] theorem mapRegion_partitions (s : State) (n : Nat) (f : RegionJob → RegionJob) : (s.mapRegion n f).partitions = s.partitions := rfl
@[simp] theorem mapRegion_mt (s : State) (n : Nat) (f : RegionJob → RegionJob) : (s.mapRegion n f).mt = s.mt := rfl
@[simp] theorem mapRegion_pw (s : State) (n : Nat) (f : RegionJob → RegionJob) : (s.mapRegion n f).pw = s.pw := rfl
@[simp] theorem mapRegion_el (s : State) (n : Nat) (f : RegionJob → RegionJob) : (s.mapRegion n f).el = s.el := rfl
@[simp] theorem mapRegion_exportObj (s : State) (n : Nat) (f : RegionJob → RegionJob) : (s.mapRegion n f).exportObj = s.exportObj := rfl
@[simp] theorem mapRegion_lastWindow (s : State) (n : Nat) (f : RegionJob → RegionJob) : (s.mapRegion n f).lastWindow = s.lastWindow := rfl
@[simp] theorem mapRegion_sugar (s : State) (n : Nat) (f : RegionJob → RegionJob) : (s.mapRegion n f).sugar = s.sugar := rfl
@[simp] theorem mapRegion_uc (s : State) (n : Nat) (f : RegionJob → RegionJob) : (s.mapRegion n f).uc = s.uc := rfl
@[simp] theorem mapRegion_submits (s : State) (n : Nat) (f : RegionJob → RegionJob) : (s.mapRegion n f).submits = s.submits := rfl
@[simp] theorem mapRegion_tuLookups (s : State) (n : Nat) (f : RegionJob → RegionJob) : (s.mapRegion n f).tuLookups = s.tuLookups := rfl
@[simp] theorem mapRegion_rescrubbed (s : State) (n : Nat) (f : RegionJob → RegionJob) : (s.mapRegion n f).rescrubbed = s.rescrubbed := rfl
@[simp] theorem mapRegion_groupHeld (s : State) (n : Nat) (f : RegionJob → RegionJob) : (s.mapRegion n f).groupHeld = s.groupHeld := rfl
@[simp] theorem mapRegion_groupLoad (s : State) (n : Nat) (f : RegionJob → RegionJob) : (s.mapRegion n f).groupLoad = s.groupLoad := rfl
@[simp] theorem mapRegion_lines (s : State) (n : Nat) (f : RegionJob → RegionJob) : (s.mapRegion n f).lines = s.lines := rfl
@[simp] theorem mapRegion_l2Clock (s : State) (n : Nat) (f : RegionJob → RegionJob) : (s.mapRegion n f).l2Clock = s.l2Clock := rfl
@[simp] theorem mapRegion_l2Off (s : State) (n : Nat) (f : RegionJob → RegionJob) : (s.mapRegion n f).l2Off = s.l2Off := rfl
@[simp] theorem mapRegion_victimUsed (s : State) (n : Nat) (f : RegionJob → RegionJob) : (s.mapRegion n f).victimUsed = s.victimUsed := rfl
@[simp] theorem mapRegion_victimBudget (s : State) (n : Nat) (f : RegionJob → RegionJob) : (s.mapRegion n f).victimBudget = s.victimBudget := rfl
@[simp] theorem mapRegion_domainStopped (s : State) (n : Nat) (f : RegionJob → RegionJob) : (s.mapRegion n f).domainStopped = s.domainStopped := rfl
@[simp] theorem mapRegion_domainErr (s : State) (n : Nat) (f : RegionJob → RegionJob) : (s.mapRegion n f).domainErr = s.domainErr := rfl
@[simp] theorem mapRegion_domainResets (s : State) (n : Nat) (f : RegionJob → RegionJob) : (s.mapRegion n f).domainResets = s.domainResets := rfl
@[simp] theorem mapRegion_boot (s : State) (n : Nat) (f : RegionJob → RegionJob) : (s.mapRegion n f).boot = s.boot := rfl
@[simp] theorem mapRegion_store (s : State) (n : Nat) (f : RegionJob → RegionJob) : (s.mapRegion n f).store = s.store := rfl
@[simp] theorem mapRegion_sp (s : State) (n : Nat) (f : RegionJob → RegionJob) : (s.mapRegion n f).sp = s.sp := rfl
@[simp] theorem mapRegion_chain (s : State) (n : Nat) (f : RegionJob → RegionJob) : (s.mapRegion n f).chain = s.chain := rfl
@[simp] theorem mapRegion_recSince (s : State) (n : Nat) (f : RegionJob → RegionJob) : (s.mapRegion n f).recSince = s.recSince := rfl
@[simp] theorem mapRegion_calmSince (s : State) (n : Nat) (f : RegionJob → RegionJob) : (s.mapRegion n f).calmSince = s.calmSince := rfl
@[simp] theorem mapRegion_feSince (s : State) (n : Nat) (f : RegionJob → RegionJob) : (s.mapRegion n f).feSince = s.feSince := rfl
@[simp] theorem mapRegion_feFault (s : State) (n : Nat) (f : RegionJob → RegionJob) : (s.mapRegion n f).feFault = s.feFault := rfl
@[simp] theorem mapRegion_reads (s : State) (n : Nat) (f : RegionJob → RegionJob) : (s.mapRegion n f).reads = s.reads := rfl

/-! ### mapPw -/

@[simp] theorem mapPw_pending (s : State) (f : Pw → Pw) : (s.mapPw f).pending = s.pending := rfl
@[simp] theorem mapPw_now (s : State) (f : Pw → Pw) : (s.mapPw f).now = s.now := rfl
@[simp] theorem mapPw_nowFrac (s : State) (f : Pw → Pw) : (s.mapPw f).nowFrac = s.nowFrac := rfl
@[simp] theorem mapPw_upClock (s : State) (f : Pw → Pw) : (s.mapPw f).upClock = s.upClock := rfl
@[simp] theorem mapPw_ctxStall (s : State) (f : Pw → Pw) : (s.mapPw f).ctxStall = s.ctxStall := rfl
@[simp] theorem mapPw_regs (s : State) (f : Pw → Pw) : (s.mapPw f).regs = s.regs := rfl
@[simp] theorem mapPw_mem (s : State) (f : Pw → Pw) : (s.mapPw f).mem = s.mem := rfl
@[simp] theorem mapPw_undef (s : State) (f : Pw → Pw) : (s.mapPw f).undef = s.undef := rfl
@[simp] theorem mapPw_poison (s : State) (f : Pw → Pw) : (s.mapPw f).poison = s.poison := rfl
@[simp] theorem mapPw_cores (s : State) (f : Pw → Pw) : (s.mapPw f).cores = s.cores := rfl
@[simp] theorem mapPw_launches (s : State) (f : Pw → Pw) : (s.mapPw f).launches = s.launches := rfl
@[simp] theorem mapPw_nextLaunch (s : State) (f : Pw → Pw) : (s.mapPw f).nextLaunch = s.nextLaunch := rfl
@[simp] theorem mapPw_nextUid (s : State) (f : Pw → Pw) : (s.mapPw f).nextUid = s.nextUid := rfl
@[simp] theorem mapPw_movers (s : State) (f : Pw → Pw) : (s.mapPw f).movers = s.movers := rfl
@[simp] theorem mapPw_windowNotified (s : State) (f : Pw → Pw) : (s.mapPw f).windowNotified = s.windowNotified := rfl
@[simp] theorem mapPw_windowDecreased (s : State) (f : Pw → Pw) : (s.mapPw f).windowDecreased = s.windowDecreased := rfl
@[simp] theorem mapPw_contexts (s : State) (f : Pw → Pw) : (s.mapPw f).contexts = s.contexts := rfl
@[simp] theorem mapPw_queues (s : State) (f : Pw → Pw) : (s.mapPw f).queues = s.queues := rfl
@[simp] theorem mapPw_ranges (s : State) (f : Pw → Pw) : (s.mapPw f).ranges = s.ranges := rfl
@[simp] theorem mapPw_allocs (s : State) (f : Pw → Pw) : (s.mapPw f).allocs = s.allocs := rfl
@[simp] theorem mapPw_eventObjs (s : State) (f : Pw → Pw) : (s.mapPw f).eventObjs = s.eventObjs := rfl
@[simp] theorem mapPw_unanswered (s : State) (f : Pw → Pw) : (s.mapPw f).unanswered = s.unanswered := rfl
@[simp] theorem mapPw_sent (s : State) (f : Pw → Pw) : (s.mapPw f).sent = s.sent := rfl
@[simp] theorem mapPw_value (s : State) (f : Pw → Pw) : (s.mapPw f).value = s.value := rfl
@[simp] theorem mapPw_status (s : State) (f : Pw → Pw) : (s.mapPw f).status = s.status := rfl
@[simp] theorem mapPw_channels (s : State) (f : Pw → Pw) : (s.mapPw f).channels = s.channels := rfl
@[simp] theorem mapPw_retireCand (s : State) (f : Pw → Pw) : (s.mapPw f).retireCand = s.retireCand := rfl
@[simp] theorem mapPw_wayCand (s : State) (f : Pw → Pw) : (s.mapPw f).wayCand = s.wayCand := rfl
@[simp] theorem mapPw_retired (s : State) (f : Pw → Pw) : (s.mapPw f).retired = s.retired := rfl
@[simp] theorem mapPw_partitions (s : State) (f : Pw → Pw) : (s.mapPw f).partitions = s.partitions := rfl
@[simp] theorem mapPw_mt (s : State) (f : Pw → Pw) : (s.mapPw f).mt = s.mt := rfl
@[simp] theorem mapPw_el (s : State) (f : Pw → Pw) : (s.mapPw f).el = s.el := rfl
@[simp] theorem mapPw_exportObj (s : State) (f : Pw → Pw) : (s.mapPw f).exportObj = s.exportObj := rfl
@[simp] theorem mapPw_lastWindow (s : State) (f : Pw → Pw) : (s.mapPw f).lastWindow = s.lastWindow := rfl
@[simp] theorem mapPw_sugar (s : State) (f : Pw → Pw) : (s.mapPw f).sugar = s.sugar := rfl
@[simp] theorem mapPw_uc (s : State) (f : Pw → Pw) : (s.mapPw f).uc = s.uc := rfl
@[simp] theorem mapPw_submits (s : State) (f : Pw → Pw) : (s.mapPw f).submits = s.submits := rfl
@[simp] theorem mapPw_tuLookups (s : State) (f : Pw → Pw) : (s.mapPw f).tuLookups = s.tuLookups := rfl
@[simp] theorem mapPw_rescrubbed (s : State) (f : Pw → Pw) : (s.mapPw f).rescrubbed = s.rescrubbed := rfl
@[simp] theorem mapPw_groupHeld (s : State) (f : Pw → Pw) : (s.mapPw f).groupHeld = s.groupHeld := rfl
@[simp] theorem mapPw_groupLoad (s : State) (f : Pw → Pw) : (s.mapPw f).groupLoad = s.groupLoad := rfl
@[simp] theorem mapPw_lines (s : State) (f : Pw → Pw) : (s.mapPw f).lines = s.lines := rfl
@[simp] theorem mapPw_l2Clock (s : State) (f : Pw → Pw) : (s.mapPw f).l2Clock = s.l2Clock := rfl
@[simp] theorem mapPw_l2Off (s : State) (f : Pw → Pw) : (s.mapPw f).l2Off = s.l2Off := rfl
@[simp] theorem mapPw_victimUsed (s : State) (f : Pw → Pw) : (s.mapPw f).victimUsed = s.victimUsed := rfl
@[simp] theorem mapPw_victimBudget (s : State) (f : Pw → Pw) : (s.mapPw f).victimBudget = s.victimBudget := rfl
@[simp] theorem mapPw_domainStopped (s : State) (f : Pw → Pw) : (s.mapPw f).domainStopped = s.domainStopped := rfl
@[simp] theorem mapPw_domainErr (s : State) (f : Pw → Pw) : (s.mapPw f).domainErr = s.domainErr := rfl
@[simp] theorem mapPw_domainResets (s : State) (f : Pw → Pw) : (s.mapPw f).domainResets = s.domainResets := rfl
@[simp] theorem mapPw_boot (s : State) (f : Pw → Pw) : (s.mapPw f).boot = s.boot := rfl
@[simp] theorem mapPw_store (s : State) (f : Pw → Pw) : (s.mapPw f).store = s.store := rfl
@[simp] theorem mapPw_sp (s : State) (f : Pw → Pw) : (s.mapPw f).sp = s.sp := rfl
@[simp] theorem mapPw_chain (s : State) (f : Pw → Pw) : (s.mapPw f).chain = s.chain := rfl
@[simp] theorem mapPw_regions (s : State) (f : Pw → Pw) : (s.mapPw f).regions = s.regions := rfl
@[simp] theorem mapPw_recSince (s : State) (f : Pw → Pw) : (s.mapPw f).recSince = s.recSince := rfl
@[simp] theorem mapPw_calmSince (s : State) (f : Pw → Pw) : (s.mapPw f).calmSince = s.calmSince := rfl
@[simp] theorem mapPw_feSince (s : State) (f : Pw → Pw) : (s.mapPw f).feSince = s.feSince := rfl
@[simp] theorem mapPw_feFault (s : State) (f : Pw → Pw) : (s.mapPw f).feFault = s.feFault := rfl
@[simp] theorem mapPw_reads (s : State) (f : Pw → Pw) : (s.mapPw f).reads = s.reads := rfl

/-! ### mapStore -/

@[simp] theorem mapStore_pending (s : State) (f : Store → Store) : (s.mapStore f).pending = s.pending := rfl
@[simp] theorem mapStore_now (s : State) (f : Store → Store) : (s.mapStore f).now = s.now := rfl
@[simp] theorem mapStore_nowFrac (s : State) (f : Store → Store) : (s.mapStore f).nowFrac = s.nowFrac := rfl
@[simp] theorem mapStore_upClock (s : State) (f : Store → Store) : (s.mapStore f).upClock = s.upClock := rfl
@[simp] theorem mapStore_ctxStall (s : State) (f : Store → Store) : (s.mapStore f).ctxStall = s.ctxStall := rfl
@[simp] theorem mapStore_regs (s : State) (f : Store → Store) : (s.mapStore f).regs = s.regs := rfl
@[simp] theorem mapStore_mem (s : State) (f : Store → Store) : (s.mapStore f).mem = s.mem := rfl
@[simp] theorem mapStore_undef (s : State) (f : Store → Store) : (s.mapStore f).undef = s.undef := rfl
@[simp] theorem mapStore_poison (s : State) (f : Store → Store) : (s.mapStore f).poison = s.poison := rfl
@[simp] theorem mapStore_cores (s : State) (f : Store → Store) : (s.mapStore f).cores = s.cores := rfl
@[simp] theorem mapStore_launches (s : State) (f : Store → Store) : (s.mapStore f).launches = s.launches := rfl
@[simp] theorem mapStore_nextLaunch (s : State) (f : Store → Store) : (s.mapStore f).nextLaunch = s.nextLaunch := rfl
@[simp] theorem mapStore_nextUid (s : State) (f : Store → Store) : (s.mapStore f).nextUid = s.nextUid := rfl
@[simp] theorem mapStore_movers (s : State) (f : Store → Store) : (s.mapStore f).movers = s.movers := rfl
@[simp] theorem mapStore_windowNotified (s : State) (f : Store → Store) : (s.mapStore f).windowNotified = s.windowNotified := rfl
@[simp] theorem mapStore_windowDecreased (s : State) (f : Store → Store) : (s.mapStore f).windowDecreased = s.windowDecreased := rfl
@[simp] theorem mapStore_contexts (s : State) (f : Store → Store) : (s.mapStore f).contexts = s.contexts := rfl
@[simp] theorem mapStore_queues (s : State) (f : Store → Store) : (s.mapStore f).queues = s.queues := rfl
@[simp] theorem mapStore_ranges (s : State) (f : Store → Store) : (s.mapStore f).ranges = s.ranges := rfl
@[simp] theorem mapStore_allocs (s : State) (f : Store → Store) : (s.mapStore f).allocs = s.allocs := rfl
@[simp] theorem mapStore_eventObjs (s : State) (f : Store → Store) : (s.mapStore f).eventObjs = s.eventObjs := rfl
@[simp] theorem mapStore_unanswered (s : State) (f : Store → Store) : (s.mapStore f).unanswered = s.unanswered := rfl
@[simp] theorem mapStore_sent (s : State) (f : Store → Store) : (s.mapStore f).sent = s.sent := rfl
@[simp] theorem mapStore_value (s : State) (f : Store → Store) : (s.mapStore f).value = s.value := rfl
@[simp] theorem mapStore_status (s : State) (f : Store → Store) : (s.mapStore f).status = s.status := rfl
@[simp] theorem mapStore_channels (s : State) (f : Store → Store) : (s.mapStore f).channels = s.channels := rfl
@[simp] theorem mapStore_retireCand (s : State) (f : Store → Store) : (s.mapStore f).retireCand = s.retireCand := rfl
@[simp] theorem mapStore_wayCand (s : State) (f : Store → Store) : (s.mapStore f).wayCand = s.wayCand := rfl
@[simp] theorem mapStore_retired (s : State) (f : Store → Store) : (s.mapStore f).retired = s.retired := rfl
@[simp] theorem mapStore_partitions (s : State) (f : Store → Store) : (s.mapStore f).partitions = s.partitions := rfl
@[simp] theorem mapStore_mt (s : State) (f : Store → Store) : (s.mapStore f).mt = s.mt := rfl
@[simp] theorem mapStore_pw (s : State) (f : Store → Store) : (s.mapStore f).pw = s.pw := rfl
@[simp] theorem mapStore_el (s : State) (f : Store → Store) : (s.mapStore f).el = s.el := rfl
@[simp] theorem mapStore_exportObj (s : State) (f : Store → Store) : (s.mapStore f).exportObj = s.exportObj := rfl
@[simp] theorem mapStore_lastWindow (s : State) (f : Store → Store) : (s.mapStore f).lastWindow = s.lastWindow := rfl
@[simp] theorem mapStore_sugar (s : State) (f : Store → Store) : (s.mapStore f).sugar = s.sugar := rfl
@[simp] theorem mapStore_uc (s : State) (f : Store → Store) : (s.mapStore f).uc = s.uc := rfl
@[simp] theorem mapStore_submits (s : State) (f : Store → Store) : (s.mapStore f).submits = s.submits := rfl
@[simp] theorem mapStore_tuLookups (s : State) (f : Store → Store) : (s.mapStore f).tuLookups = s.tuLookups := rfl
@[simp] theorem mapStore_rescrubbed (s : State) (f : Store → Store) : (s.mapStore f).rescrubbed = s.rescrubbed := rfl
@[simp] theorem mapStore_groupHeld (s : State) (f : Store → Store) : (s.mapStore f).groupHeld = s.groupHeld := rfl
@[simp] theorem mapStore_groupLoad (s : State) (f : Store → Store) : (s.mapStore f).groupLoad = s.groupLoad := rfl
@[simp] theorem mapStore_lines (s : State) (f : Store → Store) : (s.mapStore f).lines = s.lines := rfl
@[simp] theorem mapStore_l2Clock (s : State) (f : Store → Store) : (s.mapStore f).l2Clock = s.l2Clock := rfl
@[simp] theorem mapStore_l2Off (s : State) (f : Store → Store) : (s.mapStore f).l2Off = s.l2Off := rfl
@[simp] theorem mapStore_victimUsed (s : State) (f : Store → Store) : (s.mapStore f).victimUsed = s.victimUsed := rfl
@[simp] theorem mapStore_victimBudget (s : State) (f : Store → Store) : (s.mapStore f).victimBudget = s.victimBudget := rfl
@[simp] theorem mapStore_domainStopped (s : State) (f : Store → Store) : (s.mapStore f).domainStopped = s.domainStopped := rfl
@[simp] theorem mapStore_domainErr (s : State) (f : Store → Store) : (s.mapStore f).domainErr = s.domainErr := rfl
@[simp] theorem mapStore_domainResets (s : State) (f : Store → Store) : (s.mapStore f).domainResets = s.domainResets := rfl
@[simp] theorem mapStore_boot (s : State) (f : Store → Store) : (s.mapStore f).boot = s.boot := rfl
@[simp] theorem mapStore_sp (s : State) (f : Store → Store) : (s.mapStore f).sp = s.sp := rfl
@[simp] theorem mapStore_chain (s : State) (f : Store → Store) : (s.mapStore f).chain = s.chain := rfl
@[simp] theorem mapStore_regions (s : State) (f : Store → Store) : (s.mapStore f).regions = s.regions := rfl
@[simp] theorem mapStore_recSince (s : State) (f : Store → Store) : (s.mapStore f).recSince = s.recSince := rfl
@[simp] theorem mapStore_calmSince (s : State) (f : Store → Store) : (s.mapStore f).calmSince = s.calmSince := rfl
@[simp] theorem mapStore_feSince (s : State) (f : Store → Store) : (s.mapStore f).feSince = s.feSince := rfl
@[simp] theorem mapStore_feFault (s : State) (f : Store → Store) : (s.mapStore f).feFault = s.feFault := rfl
@[simp] theorem mapStore_reads (s : State) (f : Store → Store) : (s.mapStore f).reads = s.reads := rfl

/-! ### mapSp -/

@[simp] theorem mapSp_pending (s : State) (f : Sp → Sp) : (s.mapSp f).pending = s.pending := rfl
@[simp] theorem mapSp_now (s : State) (f : Sp → Sp) : (s.mapSp f).now = s.now := rfl
@[simp] theorem mapSp_nowFrac (s : State) (f : Sp → Sp) : (s.mapSp f).nowFrac = s.nowFrac := rfl
@[simp] theorem mapSp_upClock (s : State) (f : Sp → Sp) : (s.mapSp f).upClock = s.upClock := rfl
@[simp] theorem mapSp_ctxStall (s : State) (f : Sp → Sp) : (s.mapSp f).ctxStall = s.ctxStall := rfl
@[simp] theorem mapSp_regs (s : State) (f : Sp → Sp) : (s.mapSp f).regs = s.regs := rfl
@[simp] theorem mapSp_mem (s : State) (f : Sp → Sp) : (s.mapSp f).mem = s.mem := rfl
@[simp] theorem mapSp_undef (s : State) (f : Sp → Sp) : (s.mapSp f).undef = s.undef := rfl
@[simp] theorem mapSp_poison (s : State) (f : Sp → Sp) : (s.mapSp f).poison = s.poison := rfl
@[simp] theorem mapSp_cores (s : State) (f : Sp → Sp) : (s.mapSp f).cores = s.cores := rfl
@[simp] theorem mapSp_launches (s : State) (f : Sp → Sp) : (s.mapSp f).launches = s.launches := rfl
@[simp] theorem mapSp_nextLaunch (s : State) (f : Sp → Sp) : (s.mapSp f).nextLaunch = s.nextLaunch := rfl
@[simp] theorem mapSp_nextUid (s : State) (f : Sp → Sp) : (s.mapSp f).nextUid = s.nextUid := rfl
@[simp] theorem mapSp_movers (s : State) (f : Sp → Sp) : (s.mapSp f).movers = s.movers := rfl
@[simp] theorem mapSp_windowNotified (s : State) (f : Sp → Sp) : (s.mapSp f).windowNotified = s.windowNotified := rfl
@[simp] theorem mapSp_windowDecreased (s : State) (f : Sp → Sp) : (s.mapSp f).windowDecreased = s.windowDecreased := rfl
@[simp] theorem mapSp_contexts (s : State) (f : Sp → Sp) : (s.mapSp f).contexts = s.contexts := rfl
@[simp] theorem mapSp_queues (s : State) (f : Sp → Sp) : (s.mapSp f).queues = s.queues := rfl
@[simp] theorem mapSp_ranges (s : State) (f : Sp → Sp) : (s.mapSp f).ranges = s.ranges := rfl
@[simp] theorem mapSp_allocs (s : State) (f : Sp → Sp) : (s.mapSp f).allocs = s.allocs := rfl
@[simp] theorem mapSp_eventObjs (s : State) (f : Sp → Sp) : (s.mapSp f).eventObjs = s.eventObjs := rfl
@[simp] theorem mapSp_unanswered (s : State) (f : Sp → Sp) : (s.mapSp f).unanswered = s.unanswered := rfl
@[simp] theorem mapSp_sent (s : State) (f : Sp → Sp) : (s.mapSp f).sent = s.sent := rfl
@[simp] theorem mapSp_value (s : State) (f : Sp → Sp) : (s.mapSp f).value = s.value := rfl
@[simp] theorem mapSp_status (s : State) (f : Sp → Sp) : (s.mapSp f).status = s.status := rfl
@[simp] theorem mapSp_channels (s : State) (f : Sp → Sp) : (s.mapSp f).channels = s.channels := rfl
@[simp] theorem mapSp_retireCand (s : State) (f : Sp → Sp) : (s.mapSp f).retireCand = s.retireCand := rfl
@[simp] theorem mapSp_wayCand (s : State) (f : Sp → Sp) : (s.mapSp f).wayCand = s.wayCand := rfl
@[simp] theorem mapSp_retired (s : State) (f : Sp → Sp) : (s.mapSp f).retired = s.retired := rfl
@[simp] theorem mapSp_partitions (s : State) (f : Sp → Sp) : (s.mapSp f).partitions = s.partitions := rfl
@[simp] theorem mapSp_mt (s : State) (f : Sp → Sp) : (s.mapSp f).mt = s.mt := rfl
@[simp] theorem mapSp_pw (s : State) (f : Sp → Sp) : (s.mapSp f).pw = s.pw := rfl
@[simp] theorem mapSp_el (s : State) (f : Sp → Sp) : (s.mapSp f).el = s.el := rfl
@[simp] theorem mapSp_exportObj (s : State) (f : Sp → Sp) : (s.mapSp f).exportObj = s.exportObj := rfl
@[simp] theorem mapSp_lastWindow (s : State) (f : Sp → Sp) : (s.mapSp f).lastWindow = s.lastWindow := rfl
@[simp] theorem mapSp_sugar (s : State) (f : Sp → Sp) : (s.mapSp f).sugar = s.sugar := rfl
@[simp] theorem mapSp_uc (s : State) (f : Sp → Sp) : (s.mapSp f).uc = s.uc := rfl
@[simp] theorem mapSp_submits (s : State) (f : Sp → Sp) : (s.mapSp f).submits = s.submits := rfl
@[simp] theorem mapSp_tuLookups (s : State) (f : Sp → Sp) : (s.mapSp f).tuLookups = s.tuLookups := rfl
@[simp] theorem mapSp_rescrubbed (s : State) (f : Sp → Sp) : (s.mapSp f).rescrubbed = s.rescrubbed := rfl
@[simp] theorem mapSp_groupHeld (s : State) (f : Sp → Sp) : (s.mapSp f).groupHeld = s.groupHeld := rfl
@[simp] theorem mapSp_groupLoad (s : State) (f : Sp → Sp) : (s.mapSp f).groupLoad = s.groupLoad := rfl
@[simp] theorem mapSp_lines (s : State) (f : Sp → Sp) : (s.mapSp f).lines = s.lines := rfl
@[simp] theorem mapSp_l2Clock (s : State) (f : Sp → Sp) : (s.mapSp f).l2Clock = s.l2Clock := rfl
@[simp] theorem mapSp_l2Off (s : State) (f : Sp → Sp) : (s.mapSp f).l2Off = s.l2Off := rfl
@[simp] theorem mapSp_victimUsed (s : State) (f : Sp → Sp) : (s.mapSp f).victimUsed = s.victimUsed := rfl
@[simp] theorem mapSp_victimBudget (s : State) (f : Sp → Sp) : (s.mapSp f).victimBudget = s.victimBudget := rfl
@[simp] theorem mapSp_domainStopped (s : State) (f : Sp → Sp) : (s.mapSp f).domainStopped = s.domainStopped := rfl
@[simp] theorem mapSp_domainErr (s : State) (f : Sp → Sp) : (s.mapSp f).domainErr = s.domainErr := rfl
@[simp] theorem mapSp_domainResets (s : State) (f : Sp → Sp) : (s.mapSp f).domainResets = s.domainResets := rfl
@[simp] theorem mapSp_boot (s : State) (f : Sp → Sp) : (s.mapSp f).boot = s.boot := rfl
@[simp] theorem mapSp_store (s : State) (f : Sp → Sp) : (s.mapSp f).store = s.store := rfl
@[simp] theorem mapSp_chain (s : State) (f : Sp → Sp) : (s.mapSp f).chain = s.chain := rfl
@[simp] theorem mapSp_regions (s : State) (f : Sp → Sp) : (s.mapSp f).regions = s.regions := rfl
@[simp] theorem mapSp_recSince (s : State) (f : Sp → Sp) : (s.mapSp f).recSince = s.recSince := rfl
@[simp] theorem mapSp_calmSince (s : State) (f : Sp → Sp) : (s.mapSp f).calmSince = s.calmSince := rfl
@[simp] theorem mapSp_feSince (s : State) (f : Sp → Sp) : (s.mapSp f).feSince = s.feSince := rfl
@[simp] theorem mapSp_feFault (s : State) (f : Sp → Sp) : (s.mapSp f).feFault = s.feFault := rfl
@[simp] theorem mapSp_reads (s : State) (f : Sp → Sp) : (s.mapSp f).reads = s.reads := rfl

/-! ### mapChain -/

@[simp] theorem mapChain_pending (s : State) (f : Chain → Chain) : (s.mapChain f).pending = s.pending := rfl
@[simp] theorem mapChain_now (s : State) (f : Chain → Chain) : (s.mapChain f).now = s.now := rfl
@[simp] theorem mapChain_nowFrac (s : State) (f : Chain → Chain) : (s.mapChain f).nowFrac = s.nowFrac := rfl
@[simp] theorem mapChain_upClock (s : State) (f : Chain → Chain) : (s.mapChain f).upClock = s.upClock := rfl
@[simp] theorem mapChain_ctxStall (s : State) (f : Chain → Chain) : (s.mapChain f).ctxStall = s.ctxStall := rfl
@[simp] theorem mapChain_regs (s : State) (f : Chain → Chain) : (s.mapChain f).regs = s.regs := rfl
@[simp] theorem mapChain_mem (s : State) (f : Chain → Chain) : (s.mapChain f).mem = s.mem := rfl
@[simp] theorem mapChain_undef (s : State) (f : Chain → Chain) : (s.mapChain f).undef = s.undef := rfl
@[simp] theorem mapChain_poison (s : State) (f : Chain → Chain) : (s.mapChain f).poison = s.poison := rfl
@[simp] theorem mapChain_cores (s : State) (f : Chain → Chain) : (s.mapChain f).cores = s.cores := rfl
@[simp] theorem mapChain_launches (s : State) (f : Chain → Chain) : (s.mapChain f).launches = s.launches := rfl
@[simp] theorem mapChain_nextLaunch (s : State) (f : Chain → Chain) : (s.mapChain f).nextLaunch = s.nextLaunch := rfl
@[simp] theorem mapChain_nextUid (s : State) (f : Chain → Chain) : (s.mapChain f).nextUid = s.nextUid := rfl
@[simp] theorem mapChain_movers (s : State) (f : Chain → Chain) : (s.mapChain f).movers = s.movers := rfl
@[simp] theorem mapChain_windowNotified (s : State) (f : Chain → Chain) : (s.mapChain f).windowNotified = s.windowNotified := rfl
@[simp] theorem mapChain_windowDecreased (s : State) (f : Chain → Chain) : (s.mapChain f).windowDecreased = s.windowDecreased := rfl
@[simp] theorem mapChain_contexts (s : State) (f : Chain → Chain) : (s.mapChain f).contexts = s.contexts := rfl
@[simp] theorem mapChain_queues (s : State) (f : Chain → Chain) : (s.mapChain f).queues = s.queues := rfl
@[simp] theorem mapChain_ranges (s : State) (f : Chain → Chain) : (s.mapChain f).ranges = s.ranges := rfl
@[simp] theorem mapChain_allocs (s : State) (f : Chain → Chain) : (s.mapChain f).allocs = s.allocs := rfl
@[simp] theorem mapChain_eventObjs (s : State) (f : Chain → Chain) : (s.mapChain f).eventObjs = s.eventObjs := rfl
@[simp] theorem mapChain_unanswered (s : State) (f : Chain → Chain) : (s.mapChain f).unanswered = s.unanswered := rfl
@[simp] theorem mapChain_sent (s : State) (f : Chain → Chain) : (s.mapChain f).sent = s.sent := rfl
@[simp] theorem mapChain_value (s : State) (f : Chain → Chain) : (s.mapChain f).value = s.value := rfl
@[simp] theorem mapChain_status (s : State) (f : Chain → Chain) : (s.mapChain f).status = s.status := rfl
@[simp] theorem mapChain_channels (s : State) (f : Chain → Chain) : (s.mapChain f).channels = s.channels := rfl
@[simp] theorem mapChain_retireCand (s : State) (f : Chain → Chain) : (s.mapChain f).retireCand = s.retireCand := rfl
@[simp] theorem mapChain_wayCand (s : State) (f : Chain → Chain) : (s.mapChain f).wayCand = s.wayCand := rfl
@[simp] theorem mapChain_retired (s : State) (f : Chain → Chain) : (s.mapChain f).retired = s.retired := rfl
@[simp] theorem mapChain_partitions (s : State) (f : Chain → Chain) : (s.mapChain f).partitions = s.partitions := rfl
@[simp] theorem mapChain_mt (s : State) (f : Chain → Chain) : (s.mapChain f).mt = s.mt := rfl
@[simp] theorem mapChain_pw (s : State) (f : Chain → Chain) : (s.mapChain f).pw = s.pw := rfl
@[simp] theorem mapChain_el (s : State) (f : Chain → Chain) : (s.mapChain f).el = s.el := rfl
@[simp] theorem mapChain_exportObj (s : State) (f : Chain → Chain) : (s.mapChain f).exportObj = s.exportObj := rfl
@[simp] theorem mapChain_lastWindow (s : State) (f : Chain → Chain) : (s.mapChain f).lastWindow = s.lastWindow := rfl
@[simp] theorem mapChain_sugar (s : State) (f : Chain → Chain) : (s.mapChain f).sugar = s.sugar := rfl
@[simp] theorem mapChain_uc (s : State) (f : Chain → Chain) : (s.mapChain f).uc = s.uc := rfl
@[simp] theorem mapChain_submits (s : State) (f : Chain → Chain) : (s.mapChain f).submits = s.submits := rfl
@[simp] theorem mapChain_tuLookups (s : State) (f : Chain → Chain) : (s.mapChain f).tuLookups = s.tuLookups := rfl
@[simp] theorem mapChain_rescrubbed (s : State) (f : Chain → Chain) : (s.mapChain f).rescrubbed = s.rescrubbed := rfl
@[simp] theorem mapChain_groupHeld (s : State) (f : Chain → Chain) : (s.mapChain f).groupHeld = s.groupHeld := rfl
@[simp] theorem mapChain_groupLoad (s : State) (f : Chain → Chain) : (s.mapChain f).groupLoad = s.groupLoad := rfl
@[simp] theorem mapChain_lines (s : State) (f : Chain → Chain) : (s.mapChain f).lines = s.lines := rfl
@[simp] theorem mapChain_l2Clock (s : State) (f : Chain → Chain) : (s.mapChain f).l2Clock = s.l2Clock := rfl
@[simp] theorem mapChain_l2Off (s : State) (f : Chain → Chain) : (s.mapChain f).l2Off = s.l2Off := rfl
@[simp] theorem mapChain_victimUsed (s : State) (f : Chain → Chain) : (s.mapChain f).victimUsed = s.victimUsed := rfl
@[simp] theorem mapChain_victimBudget (s : State) (f : Chain → Chain) : (s.mapChain f).victimBudget = s.victimBudget := rfl
@[simp] theorem mapChain_domainStopped (s : State) (f : Chain → Chain) : (s.mapChain f).domainStopped = s.domainStopped := rfl
@[simp] theorem mapChain_domainErr (s : State) (f : Chain → Chain) : (s.mapChain f).domainErr = s.domainErr := rfl
@[simp] theorem mapChain_domainResets (s : State) (f : Chain → Chain) : (s.mapChain f).domainResets = s.domainResets := rfl
@[simp] theorem mapChain_boot (s : State) (f : Chain → Chain) : (s.mapChain f).boot = s.boot := rfl
@[simp] theorem mapChain_store (s : State) (f : Chain → Chain) : (s.mapChain f).store = s.store := rfl
@[simp] theorem mapChain_sp (s : State) (f : Chain → Chain) : (s.mapChain f).sp = s.sp := rfl
@[simp] theorem mapChain_regions (s : State) (f : Chain → Chain) : (s.mapChain f).regions = s.regions := rfl
@[simp] theorem mapChain_recSince (s : State) (f : Chain → Chain) : (s.mapChain f).recSince = s.recSince := rfl
@[simp] theorem mapChain_calmSince (s : State) (f : Chain → Chain) : (s.mapChain f).calmSince = s.calmSince := rfl
@[simp] theorem mapChain_feSince (s : State) (f : Chain → Chain) : (s.mapChain f).feSince = s.feSince := rfl
@[simp] theorem mapChain_feFault (s : State) (f : Chain → Chain) : (s.mapChain f).feFault = s.feFault := rfl
@[simp] theorem mapChain_reads (s : State) (f : Chain → Chain) : (s.mapChain f).reads = s.reads := rfl

/-! ### emit -/

@[simp] theorem emit_pending (s : State) (m : OutMsg) : (s.emit m).pending = s.pending := rfl
@[simp] theorem emit_now (s : State) (m : OutMsg) : (s.emit m).now = s.now := rfl
@[simp] theorem emit_nowFrac (s : State) (m : OutMsg) : (s.emit m).nowFrac = s.nowFrac := rfl
@[simp] theorem emit_upClock (s : State) (m : OutMsg) : (s.emit m).upClock = s.upClock := rfl
@[simp] theorem emit_ctxStall (s : State) (m : OutMsg) : (s.emit m).ctxStall = s.ctxStall := rfl
@[simp] theorem emit_regs (s : State) (m : OutMsg) : (s.emit m).regs = s.regs := rfl
@[simp] theorem emit_mem (s : State) (m : OutMsg) : (s.emit m).mem = s.mem := rfl
@[simp] theorem emit_undef (s : State) (m : OutMsg) : (s.emit m).undef = s.undef := rfl
@[simp] theorem emit_poison (s : State) (m : OutMsg) : (s.emit m).poison = s.poison := rfl
@[simp] theorem emit_cores (s : State) (m : OutMsg) : (s.emit m).cores = s.cores := rfl
@[simp] theorem emit_launches (s : State) (m : OutMsg) : (s.emit m).launches = s.launches := rfl
@[simp] theorem emit_nextLaunch (s : State) (m : OutMsg) : (s.emit m).nextLaunch = s.nextLaunch := rfl
@[simp] theorem emit_nextUid (s : State) (m : OutMsg) : (s.emit m).nextUid = s.nextUid := rfl
@[simp] theorem emit_movers (s : State) (m : OutMsg) : (s.emit m).movers = s.movers := rfl
@[simp] theorem emit_windowNotified (s : State) (m : OutMsg) : (s.emit m).windowNotified = s.windowNotified := rfl
@[simp] theorem emit_windowDecreased (s : State) (m : OutMsg) : (s.emit m).windowDecreased = s.windowDecreased := rfl
@[simp] theorem emit_contexts (s : State) (m : OutMsg) : (s.emit m).contexts = s.contexts := rfl
@[simp] theorem emit_queues (s : State) (m : OutMsg) : (s.emit m).queues = s.queues := rfl
@[simp] theorem emit_ranges (s : State) (m : OutMsg) : (s.emit m).ranges = s.ranges := rfl
@[simp] theorem emit_allocs (s : State) (m : OutMsg) : (s.emit m).allocs = s.allocs := rfl
@[simp] theorem emit_eventObjs (s : State) (m : OutMsg) : (s.emit m).eventObjs = s.eventObjs := rfl
@[simp] theorem emit_unanswered (s : State) (m : OutMsg) : (s.emit m).unanswered = s.unanswered := rfl
@[simp] theorem emit_value (s : State) (m : OutMsg) : (s.emit m).value = s.value := rfl
@[simp] theorem emit_status (s : State) (m : OutMsg) : (s.emit m).status = s.status := rfl
@[simp] theorem emit_channels (s : State) (m : OutMsg) : (s.emit m).channels = s.channels := rfl
@[simp] theorem emit_retireCand (s : State) (m : OutMsg) : (s.emit m).retireCand = s.retireCand := rfl
@[simp] theorem emit_wayCand (s : State) (m : OutMsg) : (s.emit m).wayCand = s.wayCand := rfl
@[simp] theorem emit_retired (s : State) (m : OutMsg) : (s.emit m).retired = s.retired := rfl
@[simp] theorem emit_partitions (s : State) (m : OutMsg) : (s.emit m).partitions = s.partitions := rfl
@[simp] theorem emit_mt (s : State) (m : OutMsg) : (s.emit m).mt = s.mt := rfl
@[simp] theorem emit_pw (s : State) (m : OutMsg) : (s.emit m).pw = s.pw := rfl
@[simp] theorem emit_el (s : State) (m : OutMsg) : (s.emit m).el = s.el := rfl
@[simp] theorem emit_exportObj (s : State) (m : OutMsg) : (s.emit m).exportObj = s.exportObj := rfl
@[simp] theorem emit_lastWindow (s : State) (m : OutMsg) : (s.emit m).lastWindow = s.lastWindow := rfl
@[simp] theorem emit_sugar (s : State) (m : OutMsg) : (s.emit m).sugar = s.sugar := rfl
@[simp] theorem emit_uc (s : State) (m : OutMsg) : (s.emit m).uc = s.uc := rfl
@[simp] theorem emit_submits (s : State) (m : OutMsg) : (s.emit m).submits = s.submits := rfl
@[simp] theorem emit_tuLookups (s : State) (m : OutMsg) : (s.emit m).tuLookups = s.tuLookups := rfl
@[simp] theorem emit_rescrubbed (s : State) (m : OutMsg) : (s.emit m).rescrubbed = s.rescrubbed := rfl
@[simp] theorem emit_groupHeld (s : State) (m : OutMsg) : (s.emit m).groupHeld = s.groupHeld := rfl
@[simp] theorem emit_groupLoad (s : State) (m : OutMsg) : (s.emit m).groupLoad = s.groupLoad := rfl
@[simp] theorem emit_lines (s : State) (m : OutMsg) : (s.emit m).lines = s.lines := rfl
@[simp] theorem emit_l2Clock (s : State) (m : OutMsg) : (s.emit m).l2Clock = s.l2Clock := rfl
@[simp] theorem emit_l2Off (s : State) (m : OutMsg) : (s.emit m).l2Off = s.l2Off := rfl
@[simp] theorem emit_victimUsed (s : State) (m : OutMsg) : (s.emit m).victimUsed = s.victimUsed := rfl
@[simp] theorem emit_victimBudget (s : State) (m : OutMsg) : (s.emit m).victimBudget = s.victimBudget := rfl
@[simp] theorem emit_domainStopped (s : State) (m : OutMsg) : (s.emit m).domainStopped = s.domainStopped := rfl
@[simp] theorem emit_domainErr (s : State) (m : OutMsg) : (s.emit m).domainErr = s.domainErr := rfl
@[simp] theorem emit_domainResets (s : State) (m : OutMsg) : (s.emit m).domainResets = s.domainResets := rfl
@[simp] theorem emit_boot (s : State) (m : OutMsg) : (s.emit m).boot = s.boot := rfl
@[simp] theorem emit_store (s : State) (m : OutMsg) : (s.emit m).store = s.store := rfl
@[simp] theorem emit_sp (s : State) (m : OutMsg) : (s.emit m).sp = s.sp := rfl
@[simp] theorem emit_chain (s : State) (m : OutMsg) : (s.emit m).chain = s.chain := rfl
@[simp] theorem emit_regions (s : State) (m : OutMsg) : (s.emit m).regions = s.regions := rfl
@[simp] theorem emit_recSince (s : State) (m : OutMsg) : (s.emit m).recSince = s.recSince := rfl
@[simp] theorem emit_calmSince (s : State) (m : OutMsg) : (s.emit m).calmSince = s.calmSince := rfl
@[simp] theorem emit_feSince (s : State) (m : OutMsg) : (s.emit m).feSince = s.feSince := rfl
@[simp] theorem emit_feFault (s : State) (m : OutMsg) : (s.emit m).feFault = s.feFault := rfl
@[simp] theorem emit_reads (s : State) (m : OutMsg) : (s.emit m).reads = s.reads := rfl

/-! ### beside -/

@[simp] theorem beside_pending (s : State) (t : State) : (s.beside t).pending = s.pending := rfl
@[simp] theorem beside_now (s : State) (t : State) : (s.beside t).now = t.now := rfl
@[simp] theorem beside_nowFrac (s : State) (t : State) : (s.beside t).nowFrac = t.nowFrac := rfl
@[simp] theorem beside_upClock (s : State) (t : State) : (s.beside t).upClock = t.upClock := rfl
@[simp] theorem beside_ctxStall (s : State) (t : State) : (s.beside t).ctxStall = t.ctxStall := rfl
@[simp] theorem beside_regs (s : State) (t : State) : (s.beside t).regs = t.regs := rfl
@[simp] theorem beside_mem (s : State) (t : State) : (s.beside t).mem = t.mem := rfl
@[simp] theorem beside_undef (s : State) (t : State) : (s.beside t).undef = t.undef := rfl
@[simp] theorem beside_poison (s : State) (t : State) : (s.beside t).poison = t.poison := rfl
@[simp] theorem beside_cores (s : State) (t : State) : (s.beside t).cores = t.cores := rfl
@[simp] theorem beside_launches (s : State) (t : State) : (s.beside t).launches = t.launches := rfl
@[simp] theorem beside_nextLaunch (s : State) (t : State) : (s.beside t).nextLaunch = t.nextLaunch := rfl
@[simp] theorem beside_nextUid (s : State) (t : State) : (s.beside t).nextUid = t.nextUid := rfl
@[simp] theorem beside_movers (s : State) (t : State) : (s.beside t).movers = t.movers := rfl
@[simp] theorem beside_windowNotified (s : State) (t : State) : (s.beside t).windowNotified = t.windowNotified := rfl
@[simp] theorem beside_windowDecreased (s : State) (t : State) : (s.beside t).windowDecreased = t.windowDecreased := rfl
@[simp] theorem beside_contexts (s : State) (t : State) : (s.beside t).contexts = t.contexts := rfl
@[simp] theorem beside_queues (s : State) (t : State) : (s.beside t).queues = t.queues := rfl
@[simp] theorem beside_ranges (s : State) (t : State) : (s.beside t).ranges = t.ranges := rfl
@[simp] theorem beside_allocs (s : State) (t : State) : (s.beside t).allocs = t.allocs := rfl
@[simp] theorem beside_eventObjs (s : State) (t : State) : (s.beside t).eventObjs = t.eventObjs := rfl
@[simp] theorem beside_unanswered (s : State) (t : State) : (s.beside t).unanswered = t.unanswered := rfl
@[simp] theorem beside_sent (s : State) (t : State) : (s.beside t).sent = t.sent := rfl
@[simp] theorem beside_value (s : State) (t : State) : (s.beside t).value = t.value := rfl
@[simp] theorem beside_status (s : State) (t : State) : (s.beside t).status = t.status := rfl
@[simp] theorem beside_channels (s : State) (t : State) : (s.beside t).channels = t.channels := rfl
@[simp] theorem beside_retireCand (s : State) (t : State) : (s.beside t).retireCand = t.retireCand := rfl
@[simp] theorem beside_wayCand (s : State) (t : State) : (s.beside t).wayCand = t.wayCand := rfl
@[simp] theorem beside_retired (s : State) (t : State) : (s.beside t).retired = t.retired := rfl
@[simp] theorem beside_partitions (s : State) (t : State) : (s.beside t).partitions = t.partitions := rfl
@[simp] theorem beside_mt (s : State) (t : State) : (s.beside t).mt = t.mt := rfl
@[simp] theorem beside_pw (s : State) (t : State) : (s.beside t).pw = t.pw := rfl
@[simp] theorem beside_el (s : State) (t : State) : (s.beside t).el = t.el := rfl
@[simp] theorem beside_exportObj (s : State) (t : State) : (s.beside t).exportObj = t.exportObj := rfl
@[simp] theorem beside_lastWindow (s : State) (t : State) : (s.beside t).lastWindow = t.lastWindow := rfl
@[simp] theorem beside_sugar (s : State) (t : State) : (s.beside t).sugar = t.sugar := rfl
@[simp] theorem beside_uc (s : State) (t : State) : (s.beside t).uc = t.uc := rfl
@[simp] theorem beside_submits (s : State) (t : State) : (s.beside t).submits = t.submits := rfl
@[simp] theorem beside_tuLookups (s : State) (t : State) : (s.beside t).tuLookups = t.tuLookups := rfl
@[simp] theorem beside_rescrubbed (s : State) (t : State) : (s.beside t).rescrubbed = t.rescrubbed := rfl
@[simp] theorem beside_groupHeld (s : State) (t : State) : (s.beside t).groupHeld = t.groupHeld := rfl
@[simp] theorem beside_groupLoad (s : State) (t : State) : (s.beside t).groupLoad = t.groupLoad := rfl
@[simp] theorem beside_lines (s : State) (t : State) : (s.beside t).lines = t.lines := rfl
@[simp] theorem beside_l2Clock (s : State) (t : State) : (s.beside t).l2Clock = t.l2Clock := rfl
@[simp] theorem beside_l2Off (s : State) (t : State) : (s.beside t).l2Off = t.l2Off := rfl
@[simp] theorem beside_victimUsed (s : State) (t : State) : (s.beside t).victimUsed = t.victimUsed := rfl
@[simp] theorem beside_victimBudget (s : State) (t : State) : (s.beside t).victimBudget = t.victimBudget := rfl
@[simp] theorem beside_domainStopped (s : State) (t : State) : (s.beside t).domainStopped = t.domainStopped := rfl
@[simp] theorem beside_domainErr (s : State) (t : State) : (s.beside t).domainErr = t.domainErr := rfl
@[simp] theorem beside_domainResets (s : State) (t : State) : (s.beside t).domainResets = t.domainResets := rfl
@[simp] theorem beside_boot (s : State) (t : State) : (s.beside t).boot = t.boot := rfl
@[simp] theorem beside_store (s : State) (t : State) : (s.beside t).store = t.store := rfl
@[simp] theorem beside_sp (s : State) (t : State) : (s.beside t).sp = t.sp := rfl
@[simp] theorem beside_chain (s : State) (t : State) : (s.beside t).chain = t.chain := rfl
@[simp] theorem beside_regions (s : State) (t : State) : (s.beside t).regions = t.regions := rfl
@[simp] theorem beside_recSince (s : State) (t : State) : (s.beside t).recSince = t.recSince := rfl
@[simp] theorem beside_calmSince (s : State) (t : State) : (s.beside t).calmSince = t.calmSince := rfl
@[simp] theorem beside_feSince (s : State) (t : State) : (s.beside t).feSince = t.feSince := rfl
@[simp] theorem beside_feFault (s : State) (t : State) : (s.beside t).feFault = t.feFault := rfl
@[simp] theorem beside_reads (s : State) (t : State) : (s.beside t).reads = t.reads := rfl

end Sys2Proof.Machine
end

