-- ==== Sys2Proof/Laws/Registers.lean ====
section
/-!
SUPPORT. Laws/Registers.lean: a register field reads back what was written, and a write leaves every other register and every
other field of its own.
-/
namespace Sys2Proof.Machine

/-! ### Fields of a word -/

theorem bits_lt (v lo len : Nat) : bits v lo len < 2 ^ len := Nat.mod_lt _ (Nat.two_pow_pos len)

theorem bits_testBit (v lo len i : Nat) : (bits v lo len).testBit i = (decide (i < len) && v.testBit (lo + i)) := by
  simp [bits, Nat.testBit_mod_two_pow, Nat.testBit_shiftRight]

/-- The number under `BitVec.ofNat` of a field's replacement, bit by bit. -/
theorem putBits_testBit (w : Word) (lo len v i : Nat) (h : lo + len ≤ 64) :
    (putBits w lo len v).toNat.testBit i =
      if lo ≤ i ∧ i < lo + len then v.testBit (i - lo) else w.toNat.testBit i := by
  have e : w.toNat - bits w.toNat lo len * 2 ^ lo + (v % 2 ^ len) * 2 ^ lo =
      w.toNat % 2 ^ lo + 2 ^ lo * (v % 2 ^ len + 2 ^ len * (w.toNat / 2 ^ (lo + len))) := by
    have h1 := Nat.mod_add_div w.toNat (2 ^ lo)
    have h2 := Nat.mod_add_div (w.toNat / 2 ^ lo) (2 ^ len)
    rw [Nat.div_div_eq_div_mul, ← Nat.pow_add] at h2
    have hb : bits w.toNat lo len = w.toNat / 2 ^ lo % 2 ^ len := by simp [bits, Nat.shiftRight_eq_div_pow]
    rw [hb]
    have h3 : 2 ^ lo * (w.toNat / 2 ^ lo) =
        (w.toNat / 2 ^ lo % 2 ^ len) * 2 ^ lo + 2 ^ lo * (2 ^ len * (w.toNat / 2 ^ (lo + len))) := by
      conv => lhs; rw [← h2]
      rw [Nat.mul_add, Nat.mul_comm (2 ^ lo) (w.toNat / 2 ^ lo % 2 ^ len)]
    have h4 : 2 ^ lo * (v % 2 ^ len + 2 ^ len * (w.toNat / 2 ^ (lo + len))) =
        (v % 2 ^ len) * 2 ^ lo + 2 ^ lo * (2 ^ len * (w.toNat / 2 ^ (lo + len))) := by
      rw [Nat.mul_add, Nat.mul_comm (2 ^ lo) (v % 2 ^ len)]
    omega
  have lt : w.toNat % 2 ^ lo + 2 ^ lo * (v % 2 ^ len + 2 ^ len * (w.toNat / 2 ^ (lo + len))) < 2 ^ 64 := by
    have hw : w.toNat < 2 ^ 64 := w.isLt
    have hm : w.toNat % 2 ^ lo < 2 ^ lo := Nat.mod_lt _ (Nat.two_pow_pos lo)
    have hv : v % 2 ^ len < 2 ^ len := Nat.mod_lt _ (Nat.two_pow_pos len)
    have hd : w.toNat / 2 ^ (lo + len) < 2 ^ (64 - (lo + len)) := by
      apply Nat.div_lt_of_lt_mul
      rw [← Nat.pow_add]
      rwa [show lo + len + (64 - (lo + len)) = 64 by omega]
    have a1 : v % 2 ^ len + 2 ^ len * (w.toNat / 2 ^ (lo + len)) < 2 ^ len * 2 ^ (64 - (lo + len)) := by
      calc v % 2 ^ len + 2 ^ len * (w.toNat / 2 ^ (lo + len)) < 2 ^ len * (w.toNat / 2 ^ (lo + len) + 1) := by
            rw [Nat.mul_add, Nat.mul_one]; omega
        _ ≤ 2 ^ len * 2 ^ (64 - (lo + len)) := Nat.mul_le_mul_left _ hd
    calc w.toNat % 2 ^ lo + 2 ^ lo * (v % 2 ^ len + 2 ^ len * (w.toNat / 2 ^ (lo + len)))
        < 2 ^ lo * (v % 2 ^ len + 2 ^ len * (w.toNat / 2 ^ (lo + len)) + 1) := by
          rw [Nat.mul_add (2 ^ lo) _ 1, Nat.mul_one]; omega
      _ ≤ 2 ^ lo * (2 ^ len * 2 ^ (64 - (lo + len))) := Nat.mul_le_mul_left _ a1
      _ = 2 ^ 64 := by rw [← Nat.pow_add, ← Nat.pow_add]; congr 1; omega
  unfold putBits
  rw [BitVec.toNat_ofNat, e, Nat.mod_eq_of_lt lt, Nat.add_comm, Nat.testBit_two_pow_mul_add _ (Nat.mod_lt _ (Nat.two_pow_pos lo))]
  by_cases h1 : i < lo
  · have : ¬(lo ≤ i ∧ i < lo + len) := by omega
    simp [h1, this, Nat.testBit_mod_two_pow]
  · rw [if_neg h1, Nat.add_comm (v % 2 ^ len), Nat.testBit_two_pow_mul_add _ (Nat.mod_lt _ (Nat.two_pow_pos len))]
    by_cases h2 : i < lo + len
    · have : lo ≤ i ∧ i < lo + len := by omega
      have : i - lo < len := by omega
      simp [*, Nat.testBit_mod_two_pow]
    · have : ¬(lo ≤ i ∧ i < lo + len) := by omega
      have g : ¬(i - lo < len) := by omega
      rw [if_neg g, if_neg this, Nat.testBit_div_two_pow]
      congr 1; omega

/-- A field reads back what was put there. -/
theorem bits_putBits_same (w : Word) (lo len v : Nat) (h : lo + len ≤ 64) : bits (putBits w lo len v).toNat lo len = v % 2 ^ len := by
  apply Nat.eq_of_testBit_eq
  intro i
  rw [bits_testBit, putBits_testBit w lo len v _ h, Nat.testBit_mod_two_pow]
  by_cases g : i < len
  · have : lo ≤ lo + i ∧ lo + i < lo + len := by omega
    rw [if_pos this, show lo + i - lo = i by omega]
  · simp [g]

/-- A field that lies apart from the one that is put reads as before. -/
theorem bits_putBits_apart (w : Word) (lo len v j k : Nat) (h : lo + len ≤ 64) (d : j + k ≤ lo ∨ lo + len ≤ j) :
    bits (putBits w lo len v).toNat j k = bits w.toNat j k := by
  apply Nat.eq_of_testBit_eq
  intro i
  rw [bits_testBit, bits_testBit, putBits_testBit w lo len v _ h]
  by_cases g : i < k
  · have : ¬(lo ≤ j + i ∧ j + i < lo + len) := by omega
    rw [if_neg this]
  · simp [g]

/-! ### Registers of the device -/

theorem regWord_rput_same (s : State) (f : Fld) (v i c : Nat) :
    (s.rput f v i c).regWord f i c = putBits (s.regWord f i c) f.lo f.len v := by
  simp [State.regWord, State.rput]

/-- Another register reads as before. -/
theorem regWord_rput_other (s : State) (f g : Fld) (v i c j d : Nat) (h : g.offset j d ≠ f.offset i c) :
    (s.rput f v i c).regWord g j d = s.regWord g j d := by
  simp [State.regWord, State.rput, h]

/-- A field reads back what was written to it. -/
theorem rget_rput_same (s : State) (f : Fld) (v i c : Nat) (h : f.lo + f.len ≤ 64) :
    (s.rput f v i c).rget f i c = v % 2 ^ f.len := by
  simp only [State.rget, regWord_rput_same]
  exact bits_putBits_same _ _ _ _ h

/-- A field of another register reads as before. -/
theorem rget_rput_other (s : State) (f g : Fld) (v i c j d : Nat) (h : g.offset j d ≠ f.offset i c) :
    (s.rput f v i c).rget g j d = s.rget g j d := by
  simp only [State.rget, regWord_rput_other s f g v i c j d h]

/-- Another field of the same register reads as before. -/
theorem rget_rput_apart (s : State) (f g : Fld) (v i c : Nat) (h : f.lo + f.len ≤ 64) (hu : g.unit = f.unit)
    (hi : g.index = f.index) (hr : g.rst = f.rst) (d : g.lo + g.len ≤ f.lo ∨ f.lo + f.len ≤ g.lo) :
    (s.rput f v i c).rget g i c = s.rget g i c := by
  have e : g.offset i c = f.offset i c := by simp [Fld.offset, hu, hi]
  have w : ∀ t : State, t.regWord g i c = t.regWord f i c := by intro t; simp [State.regWord, e, hr]
  simp only [State.rget, w, regWord_rput_same]
  exact bits_putBits_apart _ _ _ _ _ _ h d

/-- A counter that saturates takes the smaller of its sum and its largest value. -/
theorem rget_rbump_same (s : State) (f : Fld) (n i c : Nat) (h : f.lo + f.len ≤ 64) :
    (s.rbump f n i c).rget f i c = min (s.rget f i c + n) (2 ^ f.len - 1) := by
  have : min (s.rget f i c + n) (2 ^ f.len - 1) < 2 ^ f.len := by
    have := Nat.two_pow_pos f.len
    omega
  unfold State.rbump
  rw [rget_rput_same s f _ i c h, Nat.mod_eq_of_lt this]

theorem rget_rbump_other (s : State) (f g : Fld) (n i c j d : Nat) (h : g.offset j d ≠ f.offset i c) :
    (s.rbump f n i c).rget g j d = s.rget g j d :=
  rget_rput_other s f g _ i c j d h

theorem flag_rput_same (s : State) (f : Fld) (v i c : Nat) (h : f.lo + f.len ≤ 64) :
    (s.rput f v i c).flag f i c = decide (v % 2 ^ f.len ≠ 0) := by
  simp only [State.flag, rget_rput_same s f v i c h]

end Sys2Proof.Machine
end

