-- ==== Sys2Proof/Laws/Frames.lean ====
section
/-!
SUPPORT. Laws/Frames.lean: for each operation that many commands share, everything it can change, said once; and what its
accessor reads after an update.
-/
namespace Sys2Proof.Machine

/-! ### Accessors after an update -/

@[simp] theorem core_setCore_same (s : State) (n : Nat) (c : Core) : (s.setCore n c).core n = c := by
  simp [State.core, State.setCore]

@[simp] theorem core_setCore_other (s : State) (n k : Nat) (c : Core) (h : k ≠ n) : (s.setCore n c).core k = s.core k := by
  simp [State.core, State.setCore, h]

@[simp] theorem core_mapCore_same (s : State) (n : Nat) (f : Core → Core) : (s.mapCore n f).core n = f (s.core n) := by
  simp [State.mapCore]

@[simp] theorem core_mapCore_other (s : State) (n k : Nat) (f : Core → Core) (h : k ≠ n) : (s.mapCore n f).core k = s.core k := by
  simp [State.mapCore, h]

@[simp] theorem tray_setTray_same (s : State) (c k : Nat) (t : Tray) : (s.setTray c k t).tray c k = some t := by
  simp [State.tray, State.setTray, Core.tray]

theorem tray_setTray_other (s : State) (c k d j : Nat) (t : Tray) (h : d ≠ c ∨ j ≠ k) :
    (s.setTray c k t).tray d j = s.tray d j := by
  by_cases g : d = c
  · subst g
    have : j ≠ k := by omega
    simp [State.tray, State.setTray, Core.tray, this]
  · simp [State.tray, State.setTray, g]

@[simp] theorem tray_mapTray_same (s : State) (c k : Nat) (f : Tray → Tray) : (s.mapTray c k f).tray c k = (s.tray c k).map f := by
  simp [State.tray, State.mapTray, Core.tray]

theorem tray_mapTray_other (s : State) (c k d j : Nat) (f : Tray → Tray) (h : d ≠ c ∨ j ≠ k) :
    (s.mapTray c k f).tray d j = s.tray d j := by
  by_cases g : d = c
  · subst g
    have : j ≠ k := by omega
    simp [State.tray, State.mapTray, Core.tray, this]
  · simp [State.tray, State.mapTray, g]

@[simp] theorem launch_mapLaunch_same (s : State) (n : Nat) (f : Launch → Launch) :
    (s.mapLaunch n f).launch n = (s.launch n).map f := by
  simp [State.launch, State.mapLaunch]

@[simp] theorem launch_mapLaunch_other (s : State) (n k : Nat) (f : Launch → Launch) (h : k ≠ n) :
    (s.mapLaunch n f).launch k = s.launch k := by
  simp [State.launch, State.mapLaunch, h]

@[simp] theorem line_setLine_same (s : State) (l : Nat) (x : Line) : (s.setLine l x).line l = x := by
  simp [State.line, State.setLine]

@[simp] theorem line_setLine_other (s : State) (l k : Nat) (x : Line) (h : k ≠ l) : (s.setLine l x).line k = s.line k := by
  simp [State.line, State.setLine, h]

@[simp] theorem line_mapLine_same (s : State) (l : Nat) (f : Line → Line) : (s.mapLine l f).line l = f (s.line l) := by
  simp [State.mapLine]

@[simp] theorem line_mapLine_other (s : State) (l k : Nat) (f : Line → Line) (h : k ≠ l) : (s.mapLine l f).line k = s.line k := by
  simp [State.mapLine, h]

@[simp] theorem queue_mapQueue_same (s : State) (q : Nat) (f : Queue → Queue) : (s.mapQueue q f).queue q = f (s.queue q) := by
  simp [State.queue, State.mapQueue]

@[simp] theorem queue_mapQueue_other (s : State) (q k : Nat) (f : Queue → Queue) (h : k ≠ q) :
    (s.mapQueue q f).queue k = s.queue k := by
  simp [State.queue, State.mapQueue, h]

@[simp] theorem channel_mapChannel_same (s : State) (n : Nat) (f : Channel → Channel) :
    (s.mapChannel n f).channel n = f (s.channel n) := by
  simp [State.channel, State.mapChannel]

@[simp] theorem channel_mapChannel_other (s : State) (n k : Nat) (f : Channel → Channel) (h : k ≠ n) :
    (s.mapChannel n f).channel k = s.channel k := by
  simp [State.channel, State.mapChannel, h]

@[simp] theorem link_mapLink_same (s : State) (n : Nat) (f : ELink → ELink) : (s.mapLink n f).link n = f (s.link n) := by
  simp [State.link, State.mapLink]

@[simp] theorem link_mapLink_other (s : State) (n k : Nat) (f : ELink → ELink) (h : k ≠ n) :
    (s.mapLink n f).link k = s.link k := by
  simp [State.link, State.mapLink, h]

/-- The mover of a block after it is kept. -/
@[simp] theorem mover_setMover_same (s : State) (b : Nat) (m : Mover) : (s.setMover b m).mover b = m := by
  simp [State.mover, State.setMover]

@[simp] theorem mover_setMover_other (s : State) (b k : Nat) (m : Mover) (h : k ≠ b) : (s.setMover b m).mover k = s.mover k := by
  simp [State.mover, State.setMover, h]

/-! ### The clock and the queue of commands -/

theorem onClock_running (s t : State) (h : s.clocked = true) : s.onClock t = s.beside t := by simp [State.onClock, h]

theorem onClock_standing (s t : State) (h : s.clocked = false) : s.onClock t = s := by simp [State.onClock, h]

/-- An event of the clocked device leaves the queue of commands alone. -/
@[simp] theorem onClock_pending (s t : State) : (s.onClock t).pending = s.pending := by
  unfold State.onClock
  split <;> rfl

/-- Whether the clocks run depends on two registers and on the reset alone. -/
theorem clocked_congr (s t : State) (hr : t.regs = s.regs) (hb : t.boot = s.boot) : t.clocked = s.clocked := by
  have hg : ∀ f, t.rget f = s.rget f := by intro f; simp only [State.rget, State.regWord, hr]
  have hf : ∀ f, t.flag f = s.flag f := by intro f; unfold State.flag; rw [hg]
  unfold State.clocked
  rw [hf, hg, hb]

/-! ### What shared operations can change -/

/-- Clearing the poison of whole words changes nothing but the poison. -/
theorem clearWhole_frame (s : State) (a n : Nat) : ∃ p, s.clearWhole a n = { s with poison := p } := by
  unfold State.clearWhole
  dsimp only
  refine foldl_keeps (fun (t : State) => ∃ p, t = { s with poison := p }) _ ?_ _ s ⟨s.poison, rfl⟩
  rintro t i ⟨p, rfl⟩
  exact ⟨_, rfl⟩

/-- A write changes the memory and its poison only. -/
theorem write_frame (s : State) (a n v : Nat) : ∃ p, s.write a n v = { s with mem := memWriteLE s.undef s.mem a n v, poison := p } := by
  obtain ⟨p, h⟩ := clearWhole_frame (s.putLE a n v) a n
  exact ⟨p, h⟩

/-- The bytes of memory after a write: its extent holds the value, every other byte is as before. -/
theorem byte_write_outside (s : State) (a n v c : Nat) (h : c < a ∨ a + n ≤ c) : (s.write a n v).byte c = s.byte c := by
  obtain ⟨p, e⟩ := write_frame s a n v
  rw [e]
  exact byte_putLE_outside s a n v c h

theorem byte_write_inside (s : State) (a n v i : Nat) (h : i < n) : (s.write a n v).byte (a + i) = BitVec.ofNat 8 (v >>> (8 * i)) := by
  obtain ⟨p, e⟩ := write_frame s a n v
  rw [e]
  exact byte_putLE_inside s a n v i h

theorem readLE_write_same (s : State) (a n v : Nat) : (s.write a n v).readLE a n = v % 2 ^ (8 * n) :=
  readLE_of_bytes _ n a v (fun i h => byte_write_inside s a n v i h)

/-- Writing words changes the memory only. -/
theorem writeWords_frame (ws : List Nat) : ∀ (s : State) (a : Nat), ∃ m, s.writeWords a ws = { s with mem := m } := by
  induction ws with
  | nil => intro s a; exact ⟨s.mem, rfl⟩
  | cons w ws ih =>
    intro s a
    obtain ⟨m, h⟩ := ih (s.putLE a 8 w) (a + 8)
    exact ⟨m, h⟩

/-- Writing a record changes the memory and its poison only. -/
theorem writeRecord_frame (s : State) (a : Nat) (ws : List Nat) : ∃ m p, s.writeRecord a ws = { s with mem := m, poison := p } := by
  obtain ⟨m, h⟩ := writeWords_frame ws s a
  obtain ⟨p, g⟩ := clearWhole_frame (s.writeWords a ws) a (8 * ws.length)
  exact ⟨m, p, by rw [State.writeRecord, g, h]⟩

/-- No byte outside the words written changes. -/
theorem byte_writeWords_outside (ws : List Nat) : ∀ (s : State) (a c : Nat), (c < a ∨ a + 8 * ws.length ≤ c) →
    (s.writeWords a ws).byte c = s.byte c := by
  induction ws with
  | nil => intro s a c _; rfl
  | cons w ws ih =>
    intro s a c h
    simp only [List.length_cons] at h
    simp only [State.writeWords]
    rw [ih _ _ _ (by omega), byte_putLE_outside _ _ _ _ _ (by omega)]

theorem byte_writeRecord_outside (s : State) (a : Nat) (ws : List Nat) (c : Nat) (h : c < a ∨ a + 8 * ws.length ≤ c) :
    (s.writeRecord a ws).byte c = s.byte c := by
  obtain ⟨p, g⟩ := clearWhole_frame (s.writeWords a ws) a (8 * ws.length)
  rw [State.writeRecord, g]
  exact byte_writeWords_outside ws s a c h

/-- A message that is sent changes the statistics of the port, the port's lists and what has been sent. -/
theorem send_frame (s : State) (m : OutMsg) : ∃ r u l, s.send m = { s with regs := r, uc := u, sent := l } := by
  unfold State.send
  dsimp only
  split
  · exact ⟨_, _, _, rfl⟩
  · generalize (if m.isReply then s.uc.outbox.any OutMsg.isReply else !s.uc.outbox.isEmpty) = b
    split
    · exact ⟨_, _, _, rfl⟩
    · exact ⟨_, _, _, rfl⟩

/-- An error record changes the memory at its slot of the log, the log's registers, and what the port sends. -/
theorem logErr_frame (s : State) (r : ErrRec) : ∃ m p g u l w,
    s.logErr r = { s with mem := m, poison := p, regs := g, uc := u, sent := l, windowNotified := w } := by
  let P := fun (t : State) => ∃ m p g u l w,
    t = { s with mem := m, poison := p, regs := g, uc := u, sent := l, windowNotified := w }
  have hput : ∀ t f v i c, P t → P (t.rput f v i c) := by
    rintro t f v i c ⟨m, p, g, u, l, w, rfl⟩
    exact ⟨_, _, _, _, _, _, rfl⟩
  have hbump : ∀ t f n i c, P t → P (t.rbump f n i c) := fun t f n i c h => hput t f _ i c h
  have hnote : ∀ t k q d, P t → P (t.notify k q d) := by
    rintro t k q d ⟨m, p, g, u, l, w, rfl⟩
    unfold State.notify
    obtain ⟨g', u', l', e⟩ := send_frame { s with mem := m, poison := p, regs := g, uc := u, sent := l, windowNotified := w } (.notify k q d)
    exact ⟨_, _, _, _, _, _, e⟩
  have hwin : ∀ t, P t → P { t with windowNotified := true } := by
    rintro t ⟨m, p, g, u, l, w, rfl⟩
    exact ⟨_, _, _, _, _, _, rfl⟩
  have hrec : ∀ a ws, P (s.writeRecord a ws) := by
    intro a ws
    obtain ⟨m, p, h⟩ := writeRecord_frame s a ws
    exact ⟨_, _, _, _, _, _, h⟩
  have hif : ∀ (c : Prop) [Decidable c] (x y : State), P x → P y → P (if c then x else y) := by
    intro c _ x y hx hy
    split
    · exact hx
    · exact hy
  show P (s.logErr r)
  unfold State.logErr
  exact hif _ _ _ (hput _ _ _ _ _ (hif _ _ _ (hput _ _ _ _ _ (hrec _ _)) (hbump _ _ _ _ _ (hrec _ _))))
    (hbump _ _ _ _ _ (hnote _ _ _ _ (hwin _ (hput _ _ _ _ _ (hif _ _ _ (hput _ _ _ _ _ (hrec _ _)) (hbump _ _ _ _ _ (hrec _ _)))))))

/-- A tray that is demoted changes its core and a counter of it. -/
theorem demote_frame (s : State) (core slot : Nat) : ∃ c r, s.demote core slot = { s with cores := c, regs := r } := by
  unfold State.demote
  split
  · exact ⟨_, _, rfl⟩
  · split
    · exact ⟨_, _, rfl⟩
    · exact ⟨_, _, rfl⟩

theorem settleHalt_frame (s : State) (core slot : Nat) : ∃ c r, settleHalt core slot s = { s with cores := c, regs := r } := by
  unfold settleHalt
  split
  · split
    · exact demote_frame s core slot
    · exact ⟨_, _, rfl⟩
  · exact ⟨_, _, rfl⟩

/-- A tray that is not halted is not settled. -/
theorem settleHalt_running (s : State) (core slot : Nat) (h : ∀ t, s.tray core slot = some t → t.halted = false) :
    settleHalt core slot s = s := by
  unfold settleHalt
  split
  · rename_i t e
    simp [h t e]
  · rfl

/-- Stopping a launch's trays on a core changes the core and the launch. -/
theorem trayStop_frame (s : State) (core slot launch status record : Nat) :
    ∃ c l, s.trayStop core slot launch status record = { s with cores := c, launches := l } := ⟨_, _, rfl⟩

/-- A tray-level fault changes the log, the port's messages, the core and the launch. -/
theorem trayFault_frame (s : State) (core slot status object lanes win : Nat) : ∃ m p g u l w c k,
    s.trayFault core slot status object lanes win =
      { s with mem := m, poison := p, regs := g, uc := u, sent := l, windowNotified := w, cores := c, launches := k } := by
  unfold State.trayFault
  split
  · exact ⟨_, _, _, _, _, _, _, _, rfl⟩
  · split
    · exact ⟨_, _, _, _, _, _, _, _, rfl⟩
    · have key : ∀ r n seq, ∃ m p g u l w c k, (s.logErr r).trayStop core slot n status seq =
          { s with mem := m, poison := p, regs := g, uc := u, sent := l, windowNotified := w, cores := c, launches := k } := by
        intro r n seq
        obtain ⟨m, p, g, u, l, w, h⟩ := logErr_frame s r
        rw [h]
        exact ⟨_, _, _, _, _, _, _, _, rfl⟩
      exact key _ _ _

/-- Machine time that passes changes the count and the clocks of the upper timers. -/
theorem pass_frame (s : State) (dt : Nat) : ∃ u c, s.pass dt = { s with now := s.now + dt, upClock := u, ctxStall := c } := by
  unfold State.pass
  dsimp only
  split
  · exact ⟨_, _, rfl⟩
  · exact ⟨_, _, rfl⟩

/-- A counter write changes its register and what waits for it. -/
theorem rput_frame (s : State) (f : Fld) (v i c : Nat) : ∃ r, s.rput f v i c = { s with regs := r } := ⟨_, rfl⟩

end Sys2Proof.Machine
end

