-- ==== Sys2Proof/Laws/Issue.lean ====
section
/-!
SUPPORT. Laws/Issue.lean: the one way every tray instruction is issued: what its context holds, when its body runs, and what the
tray is afterwards.
-/
namespace Sys2Proof.Machine

/-- What the context of an issue holds (R42, R51, R62, R76). -/
theorem issueCtx_spec (o : TrayOp) (s : State) (x : Ctx) (h : issueCtx o s = some x) :
    x.s = s ∧ x.core = o.core.val ∧ x.slot = o.slot.val ∧ s.tray o.core o.slot = some x.t ∧ s.launch x.t.launch = some x.L ∧
      x.t.path = some x.p ∧ x.act = x.p.lanes ∧
      x.on = x.p.lanes &&& (if o.pneg then ~~~(x.t.pred o.pred) else x.t.pred o.pred) ∧
      x.guards = (if o.pred = 7 then [] else [predReg o.pred]) ∧
      coresRun s = true ∧ x.t.active = true ∧ x.t.yieldHold = false ∧ x.p.runnable = true := by
  unfold issueCtx at h
  split at h
  · cases h
  · rename_i t ht
    split at h
    · rename_i L p hL hp
      split at h
      · rename_i hc
        simp only [Bool.and_eq_true, Bool.not_eq_true'] at hc
        cases h
        exact ⟨rfl, rfl, rfl, ht, hL, hp, rfl, rfl, rfl, hc.1.1.1.1.1.1, hc.1.1.1.1.1.2, hc.1.1.1.1.2, hc.1.1.2⟩
      · cases h
    · cases h

/-- The body of an instruction runs where the tray may issue, nothing stops it before, and no vector chain is open. -/
theorem issueTray_body (o : TrayOp) (s : State) (x : Ctx) (body : Ctx → State) (h : issueCtx o s = some x)
    (hb : x.atBreak = false) (hp : s.extentPoisoned (x.L.codeBase + 8 * x.p.pc) 8 = false) (he : o.rfEcc = .clean)
    (hc : chainOpen s o.core o.slot = false) : issueTray o s body = settleHalt o.core o.slot (body x) := by
  obtain ⟨_, hco, hsl, _⟩ := issueCtx_spec o s x h
  simp [issueTray, issueAny, h, hb, hp, he, hco, hsl, hc]

/-- A VEC instruction's body runs in the same case, and inside a chain too. -/
theorem issueAny_body (o : TrayOp) (s : State) (x : Ctx) (body : Ctx → State) (h : issueCtx o s = some x)
    (hb : x.atBreak = false) (hp : s.extentPoisoned (x.L.codeBase + 8 * x.p.pc) 8 = false) (he : o.rfEcc = .clean) :
    issueAny o s body = settleHalt o.core o.slot (body x) := by
  simp [issueAny, h, hb, hp, he]

/-- A tray that may not issue leaves the state as it is. -/
theorem issueTray_none (o : TrayOp) (s : State) (body : Ctx → State) (h : issueCtx o s = none) : issueTray o s body = s := by
  simp [issueTray, issueAny, h]

/-- The scoreboard lets a legal instruction run when none of its registers waits (R51). -/
theorem withRegs_run (x : Ctx) (regs : List Nat) (body : State) (h : x.clear (x.guards ++ regs) = true) :
    x.withRegs true regs body = body := by
  simp [Ctx.withRegs, h]

/-- A form the manual does not allow is an illegal instruction (R17). -/
theorem withRegs_illegal (x : Ctx) (regs : List Nat) (body : State) : x.withRegs false regs body = x.illegal := rfl

/-- A tray that is demoted is as it was but for its active slot. -/
theorem tray_demote (s : State) (core slot : Nat) (t : Tray) (h : s.tray core slot = some t) :
    (s.demote core slot).tray core slot = some { t with active := false } := by
  unfold State.demote
  simp only [h]
  split
  · show (State.setTray s core slot { t with active := false }).tray core slot = _
    simp
  · rename_i ha
    have : t.active = false := by simpa using ha
    rw [h]
    cases t
    simp_all

theorem tray_demote_other (s : State) (core slot c k : Nat) (h : c ≠ core ∨ k ≠ slot) :
    (s.demote core slot).tray c k = s.tray c k := by
  unfold State.demote
  split
  · rfl
  · split
    · show (State.setTray s core slot _).tray c k = _
      exact tray_setTray_other s core slot c k _ h
    · rfl

/-- The tray that an instruction puts back stands in its slot; it leaves its active slot where no path of it can run (R62). -/
theorem tray_put (x : Ctx) (t : Tray) :
    (x.put t).tray x.core x.slot = some (if t.canRun then t else { t with active := false }) := by
  unfold Ctx.put
  dsimp only
  split
  · simp
  · exact tray_demote _ _ _ t (by simp)

theorem tray_put_other (x : Ctx) (t : Tray) (c k : Nat) (h : c ≠ x.core ∨ k ≠ x.slot) : (x.put t).tray c k = x.s.tray c k := by
  unfold Ctx.put
  dsimp only
  split
  · exact tray_setTray_other _ _ _ _ _ _ h
  · rw [tray_demote_other _ _ _ _ _ h]
    exact tray_setTray_other _ _ _ _ _ _ h

/-- Putting a tray back changes its core and a counter of it. -/
theorem put_frame (x : Ctx) (t : Tray) : ∃ c r, x.put t = { x.s with cores := c, regs := r } := by
  unfold Ctx.put
  dsimp only
  split
  · exact ⟨_, _, rfl⟩
  · obtain ⟨c, r, h⟩ := demote_frame (x.s.setTray x.core x.slot t) x.core x.slot
    exact ⟨c, r, h⟩

/-- An instruction that issues changes its tray, a counter of its core, and its launch's first issue. -/
theorem issueWith_frame (x : Ctx) (words : Nat) (pd : Option Pend) :
    ∃ c r l, x.issueWith words pd = { x.s with cores := c, regs := r, launches := l } := by
  unfold Ctx.issueWith
  obtain ⟨c, r, h⟩ := put_frame x.noteIssue ((match pd with
    | some p => { x.noteIssue.t with pend := x.noteIssue.t.pend ++ [p] }
    | none => x.noteIssue.t).arriveAt (x.noteIssue.p.pc + words))
  exact ⟨c, r, _, h⟩

end Sys2Proof.Machine
end

