-- ==== Sys2Proof/Tests/Slice0.lean ====
section
/-!
SUPPORT. Tests/Slice0.lean: tests by evaluation and, for each statement with hypotheses, a state and operands that meet them.
-/
open Sys2Proof Sys2Proof.Machine Sys2Proof.Claims

set_option Elab.async false

namespace Sys2Proof.Tests

/-! ### Small states -/

/-- A tray instruction of core 0, slot 0, all lanes, with no field set. -/
def op0 : TrayOp :=
  { core := 0, slot := 0, pneg := false, pred := 7, dst := 0, srcA := 0, srcB := 0, srcC := 0, keep := 0, low := 0, lit := 0 }

/-- A SIMT instruction: R8 from R4 and R6. -/
def opR : TrayOp := { op0 with dst := 8, srcA := 4, srcB := 6, srcC := 135 }

/-- A path at word 0 with the lanes of a mask. -/
def path0 (lanes : Mask) : Path := { id := 0, pc := 0, lanes := lanes }

/-- The lane registers of registers `r` in lanes 0 and 1. -/
def regs01 (f : Nat → Nat → Nat) (rs : List Nat) : SMap Lane :=
  rs.flatMap (fun r => [(32 * r, BitVec.ofNat 32 (f r 0)), (32 * r + 1, BitVec.ofNat 32 (f r 1))])

/-- A tray of launch 1 and sheet 1 in slot 0 with lanes 0 and 1. -/
def tray0 : Tray :=
  { launch := 1, sheet := 1, index := 0, seed := 0, stamp := 0, active := true, paths := [path0 3#32], live := 3#32 }

def sheet0 : Sheet := { uid := 1, launch := 1, index := 0, base := 0, size := 4096, trays := 1 }

/-- A window of 4 KiB of device memory with every permission, at 64 KiB. -/
def window0 : Window := { base := 65536, bound := 4096, r := true, w := true, a := true }

def launch0 : Launch :=
  { serial := 1, context := 0, queue := 0, seq := 1, node := 0, codeBase := 0, codeBytes := 4096, windows := [window0]
    regs := 64, scratch := 4096, counterMask := 1 }

/-- The device with one tray whose code and window are clean. -/
def stateOf (t : Tray) (c : Core := {}) : State :=
  { State.reset with
    cores := [(0, { c with trays := [(0, t)], sheets := [sheet0], l1KiB := 64 })]
    launches := [(1, launch0)]
    poison := (List.range 8).map (fun i => (i, false)) ++ (List.range 8).map (fun i => (2048 + i, false)) }

/-- A context of an issue that meets a decidable condition. -/
theorem canIssue_of {o : TrayOp} {s : State} {Q : Ctx → Prop} [DecidablePred Q]
    (h : (match issueCtx o s with
      | some x => decide (x.atBreak = false ∧ s.extentPoisoned (x.L.codeBase + 8 * x.p.pc) 8 = false ∧ o.rfEcc = .clean ∧
          chainOpen s o.core o.slot = false ∧ Q x)
      | none => false) = true) : ∃ x, CanIssue o s x ∧ Q x := by
  split at h
  · rename_i x e
    obtain ⟨a, b, c, d, q⟩ := of_decide_eq_true h
    exact ⟨x, ⟨e, a, b, c, d⟩, q⟩
  · cases h

/-- The instruction may issue in the state, and its context meets a condition. -/
def Meets (o : TrayOp) (s : State) (Q : Ctx → Prop) : Prop := ∃ x, CanIssue o s x ∧ Q x

/-- No access of any core to the host window waits to be sent. -/
theorem allSent_of (s : State) (h : s.cores.all (fun c => c.2.ops.all (fun p => !p.host || p.sent)) = true) : AllSent s := by
  have key : ∀ (m : SMap Core) c, m.all (fun c => c.2.ops.all (fun p => !p.host || p.sent)) = true →
      ∀ p ∈ (SMap.get m c {}).ops, p.host = true → p.sent = true := by
    intro m c
    induction m with
    | nil => intro _ p hp; cases hp
    | cons e m ih =>
      obtain ⟨k, x⟩ := e
      intro hm p hp hh
      simp only [List.all_cons, Bool.and_eq_true] at hm
      by_cases g : k = c
      · have : p ∈ x.ops := by simpa [SMap.get, SMap.find?, g] using hp
        have := List.all_eq_true.mp hm.1 p this
        simpa [hh] using this
      · have : p ∈ (SMap.get m c {}).ops := by simpa [SMap.get, SMap.find?, g] using hp
        exact ih hm.2 p this hh
  exact fun c => key s.cores c h

/-- No path of the device waits on an event word. -/
theorem noEventWaits_of (s : State) (h : (waiters s).all (fun e => match e.2.2.2.kind with
    | .event _ _ => false
    | _ => true) = true) : NoEventWaits s := by
  intro e he a v hk
  have := List.all_eq_true.mp h e he
  rw [hk] at this
  cases this

/-! ### Well-formedness: an ill-formed command for each check, which the check refuses -/

def node0 : NodeRef := { queue := 0, seq := 1, node := 0 }

theorem test_wf_queueOfNode : (Instr.copy { node0 with queue := 1024 }).wf = false ∧ (Instr.copy node0).wf = true := by decide
theorem test_wf_seqOfNode : (Instr.copy { node0 with seq := 0 }).wf = false := by decide
theorem test_wf_indexOfNode : (Instr.copy { node0 with node := 4096 }).wf = false := by decide
theorem test_wf_line : (Instr.rdShared 0 (2 ^ 32)).wf = false ∧ (Instr.rdShared 0 5).wf = true := by decide
theorem test_wf_serial : (Instr.sheetPlace 0 []).wf = false ∧ (Instr.sheetPlace 1 [(191, 0xFF000)]).wf = true := by decide
theorem test_wf_spotCore : (Instr.sheetPlace 1 [(192, 0)]).wf = false := by decide
theorem test_wf_spotBase : (Instr.sheetPlace 1 [(0, 64)]).wf = false := by decide
theorem test_wf_packet : (Instr.echo { tag := 1, params := [] }).wf = false ∧ (Instr.echo { tag := 1, params := [0, 0, 0] }).wf = true := by
  decide
theorem test_wf_victims : (Instr.preemptTimeout node0 [(0, 1), (0, 1)]).wf = false ∧ (Instr.sliceTimeout node0 [(192, 1)]).wf = false := by
  decide
theorem test_wf_queueAct : actsWf [{ queue := 3 }, { queue := 3 }] = false ∧ actsWf [{ queue := 3 }, { queue := 4 }] = true := by decide
theorem test_wf_once : onceWf (n := 12) [1, 1] = false ∧ onceWf (n := 12) [1, 2] = true := by decide

/-! ### Words of tray instructions, written out from R42 and R44: CLASS, OPCODE, PNEG and PRED, DST, SRC_A, SRC_B, SRC_C, the rest -/

theorem test_word_add : decodeTray op0 0x0007_0405_8787_1000 =
    some (.add { op0 with dst := 4, srcA := 5, srcB := 135, srcC := 135, low := 0x1000 }) := by decide
theorem test_word_lg2 : decodeTray op0 0x123F_0102_8787_0000 =
    some (.lg2 { op0 with pneg := true, dst := 1, srcA := 2, srcB := 135, srcC := 135 }) := by decide
theorem test_word_brd : decodeTray op0 0x2010_0000_0a00_0014 =
    some (.brd { op0 with pred := 0, srcB := 0x0a, low := 0x14 }) := by decide
theorem test_word_st : decodeTray op0 0x3027_8704_8706_20A2 =
    some (.st { op0 with dst := 135, srcA := 4, srcB := 135, srcC := 6, keep := 1, low := 0xA2 }) := by decide
theorem test_word_cas : decodeTray op0 0x4157_0A04_0608_0020 =
    some (.atomCas { op0 with dst := 10, srcA := 4, srcB := 6, srcC := 8, low := 0x20 }) := by decide
theorem test_word_rftest : decodeTray op0 0x5097_0000_0000_0008 = some (.rftest { op0 with low := 8 }) := by decide
theorem test_word_smma : decodeTray op0 0x6017_0000_1000_0000 = some (.smma { op0 with srcB := 16 }) := by decide
theorem test_word_rclose : decodeTray op0 0x7537_1814_0887_0000 =
    some (.rclose { op0 with dst := 24, srcA := 20, srcB := 8, srcC := 135 }) := by decide
theorem test_word_reserved : decodeTray op0 0x8000_0000_0000_0000 = none ∧ decodeTray op0 0x7547_0000_0000_0000 = none := by decide

/-- No row of the table has bits. -/
theorem test_noTableWord : decodeTableWord 64 0 = none := rfl

/-! ### SIMT instructions -/

/-- Registers 4 to 7 of lanes 0 and 1, and predicate 2 of lane 0. -/
def trayR : Tray := { tray0 with regs := regs01 (fun r l => 1000 * r + l) [4, 5, 6, 7, 8, 9], preds := [(0, 3#32), (1, 2#32), (2, 1#32)] }

/-- What register 8 of lane `l` holds after the result in flight has come. -/
def result (i : Instr) (t : Tray) (r l : Nat) : Option Lane :=
  match exec i (stateOf t) with
  | .next s => (s.tray 0 0).bind (fun y => y.pend.getLast?.map (fun p => (y.finish p false).reg r l))
  | _ => none

/-- What a predicate holds after the result in flight has come. -/
def resultPred (i : Instr) (t : Tray) (p : Nat) : Option Mask :=
  match exec i (stateOf t) with
  | .next s => (s.tray 0 0).bind (fun y => y.pend.getLast?.map (fun q => (y.finish q false).pred p))
  | _ => none

def trayV (a b : Nat) : Tray := { tray0 with regs := regs01 (fun r _ => if r = 4 then a else b) [4, 6] }

-- R47: wrapping addition, the high half of a signed product, shifts modulo 32, an arithmetic shift, signed comparison
theorem test_add_wraps : result (.add opR) (trayV 0xFFFFFFFF 2) 8 0 = some 1 := by decide +kernel
theorem test_mulhi_signed : result (.mulhi opR) (trayV 0xFFFFFFFF 2) 8 0 = some 0xFFFFFFFF := by decide +kernel
theorem test_shl_modulo : result (.shl opR) (trayV 3 33) 8 1 = some 6 := by decide +kernel
theorem test_shra_sign : result (.shra opR) (trayV 0x80000000 4) 8 0 = some 0xF8000000 := by decide +kernel
theorem test_min_signed : result (.min opR) (trayV 0xFFFFFFFF 5) 8 0 = some 0xFFFFFFFF := by decide +kernel
theorem test_clz_zero : result (.clz { opR with srcB := 135 }) (trayV 0 5) 8 0 = some 32 := by decide +kernel
theorem test_popc : result (.popc { opR with srcB := 135 }) (trayV 0xF0F0 5) 8 0 = some 8 := by decide +kernel
-- R48: 1.0 + 2.0, and a half-way sum rounded to even
theorem test_fadd : result (.fadd opR) (trayV 0x3F800000 0x40000000) 8 0 = some 0x40400000 := by decide +kernel
theorem test_fadd_even : result (.fadd opR) (trayV 0x4B800000 0x3F800000) 8 0 = some 0x4B800000 := by decide +kernel
-- R49: the lanes of p2 that vote
theorem test_setp_lt : resultPred (.setp { opR with dst := 135, low := 0x480 })
    { tray0 with preds := [(2, 4#32)], regs := (List.range 32).map (fun l => (128 + l, 0xFFFFFFFF#32)) ++
        (List.range 32).map (fun l => (192 + l, 5#32)) } 2 = some 7 := by decide +kernel

theorem witness_IntegerArithmetic : ∃ o s x, CanIssue o s x ∧ ∀ r ∈ arithmeticRows o,
    simtLegal o x.L r.shape = true ∧ x.clear (x.guards ++ (simtRegs o r.shape ++ r.extra)) = true := by
  obtain ⟨x, hx, q⟩ := canIssue_of (o := opR) (s := stateOf trayR) (Q := fun x => ∀ r ∈ arithmeticRows opR,
    simtLegal opR x.L r.shape = true ∧ x.clear (x.guards ++ (simtRegs opR r.shape ++ r.extra)) = true) (by decide +kernel)
  exact ⟨_, _, x, hx, q⟩

/-- Rows of a list each of which is legal with some operands. -/
def LegalRow (f : TrayOp → List SimtRow) (k : Nat) (o : TrayOp) : Prop :=
  ∃ s x, CanIssue o s x ∧ ∃ r, (f o)[k]? = some r ∧ simtLegal o x.L r.shape = true ∧
    x.clear (x.guards ++ (simtRegs o r.shape ++ r.extra)) = true

theorem legalRow_of {f : TrayOp → List SimtRow} {k : Nat} {o : TrayOp} {s : State}
    (h : (match issueCtx o s, (f o)[k]? with
      | some x, some r => decide (x.atBreak = false ∧ s.extentPoisoned (x.L.codeBase + 8 * x.p.pc) 8 = false ∧ o.rfEcc = .clean ∧
          chainOpen s o.core o.slot = false ∧ simtLegal o x.L r.shape = true ∧
          x.clear (x.guards ++ (simtRegs o r.shape ++ r.extra)) = true)
      | _, _ => false) = true) : LegalRow f k o := by
  split at h
  · rename_i x r e g
    obtain ⟨a, b, c, d, q⟩ := of_decide_eq_true h
    exact ⟨s, x, ⟨e, a, b, c, d⟩, r, g, q⟩
  · cases h

/-- A one-source SIMT instruction. -/
def opU : TrayOp := { opR with srcB := 135 }

theorem witness_IntegerLogic : (∀ k ∈ [0, 1, 2, 4, 5, 6], LegalRow logicRows k opR) ∧ LegalRow logicRows 3 opU := by
  have h : ∀ k ∈ [0, 1, 2, 4, 5, 6], LegalRow logicRows k opR := by
    intro k hk
    simp only [List.mem_cons, List.not_mem_nil, or_false] at hk
    rcases hk with rfl | rfl | rfl | rfl | rfl | rfl <;> exact legalRow_of (s := stateOf trayR) (by decide +kernel)
  exact ⟨h, legalRow_of (s := stateOf trayR) (by decide +kernel)⟩

theorem witness_IntegerMoves : LegalRow moveRows 0 { opR with srcA := 135 } ∧ LegalRow moveRows 1 opR ∧
    ∀ k ∈ [2, 3, 4, 5, 6], LegalRow moveRows k opU := by
  refine ⟨legalRow_of (s := stateOf trayR) (by decide +kernel), legalRow_of (s := stateOf trayR) (by decide +kernel), ?_⟩
  intro k hk
  simp only [List.mem_cons, List.not_mem_nil, or_false] at hk
  rcases hk with rfl | rfl | rfl | rfl | rfl <;> exact legalRow_of (s := stateOf trayR) (by decide +kernel)

theorem witness_FloatArithmetic : (∀ k ∈ [0, 1, 2, 4, 5], LegalRow floatRows k opR) ∧
    LegalRow floatRows 3 { opR with srcC := 4 } ∧ ∀ k ∈ [6, 7], LegalRow floatRows k { opU with low := 0x20 } := by
  refine ⟨?_, legalRow_of (s := stateOf trayR) (by decide +kernel), ?_⟩
  · intro k hk
    simp only [List.mem_cons, List.not_mem_nil, or_false] at hk
    rcases hk with rfl | rfl | rfl | rfl | rfl <;> exact legalRow_of (s := stateOf trayR) (by decide +kernel)
  · intro k hk
    simp only [List.mem_cons, List.not_mem_nil, or_false] at hk
    rcases hk with rfl | rfl <;> exact legalRow_of (s := stateOf trayR) (by decide +kernel)

theorem witness_FloatConvert : LegalRow convertRows 0 { opU with low := 0x40 } ∧ ∀ k ∈ [1, 2, 3, 4], LegalRow convertRows k opU := by
  refine ⟨legalRow_of (s := stateOf trayR) (by decide +kernel), ?_⟩
  intro k hk
  simp only [List.mem_cons, List.not_mem_nil, or_false] at hk
  rcases hk with rfl | rfl | rfl | rfl <;> exact legalRow_of (s := stateOf trayR) (by decide +kernel)

/-- SETP and FSETP into p2. -/
def opP : TrayOp := { opR with dst := 135, low := 0x400 }

theorem witness_Compares : ∃ o s x, CanIssue o s x ∧
    simtLegal o x.L { shape2 o with d := .pred } = true ∧ x.clear (x.guards ++ (simtRegs o { shape2 o with d := .pred } ++ [])) = true ∧
    simtLegal o x.L { shapeF2 o with d := .pred } = true ∧ x.clear (x.guards ++ (simtRegs o { shapeF2 o with d := .pred } ++ [])) = true := by
  obtain ⟨x, hx, q⟩ := canIssue_of (o := opP) (s := stateOf trayR) (Q := fun x =>
    simtLegal opP x.L { shape2 opP with d := .pred } = true ∧
    x.clear (x.guards ++ (simtRegs opP { shape2 opP with d := .pred } ++ [])) = true ∧
    simtLegal opP x.L { shapeF2 opP with d := .pred } = true ∧
    x.clear (x.guards ++ (simtRegs opP { shapeF2 opP with d := .pred } ++ [])) = true) (by decide +kernel)
  exact ⟨_, _, x, hx, q⟩

/-! ### Control flow -/

/-- BR or BRD with TARGET 6 words on (and RECONV 9 on): bits [47:24] and [23:0]. -/
def opB (target reconv : Nat) (p : Fin 8) : TrayOp :=
  let w := BitVec.ofNat 48 (target * 2 ^ 24 + reconv)
  { op0 with pred := p, dst := w.extractLsb' 40 8, srcA := w.extractLsb' 32 8, srcB := w.extractLsb' 24 8, srcC := w.extractLsb' 16 8
             keep := w.extractLsb' 13 3, low := w.extractLsb' 0 13 }

/-- p0 true in both lanes, p1 in lane 1, p3 in none. -/
def trayB : Tray := { tray0 with preds := [(0, 3#32), (1, 2#32), (2, 1#32), (3, 0#32)] }

/-- The branch to `target`, with `reconv`, under a predicate, of a tray with one path. -/
def BranchAt (target reconv : Nat) (p : Fin 8) (Q : Ctx → Prop) : Prop :=
  ∃ x, CanIssue (opB target reconv p) (stateOf trayB) x ∧ OnePath x ∧ x.clear x.guards = true ∧ branchTarget x ((opB target reconv p).fld 24 24) = some target ∧
    (reconv = 0 → (opB target reconv p).fld 0 24 = 0) ∧ (reconv ≠ 0 → branchTarget x ((opB target reconv p).fld 0 24) = some reconv) ∧ Q x

theorem witness_Branches : BranchAt 6 0 3 (fun x => x.on = 0) ∧ BranchAt 6 0 0 (fun x => x.on ≠ 0 ∧ x.on = x.act) ∧
    BranchAt 6 0 1 (fun x => x.on ≠ 0 ∧ x.on ≠ x.act) ∧ BranchAt 6 9 3 (fun x => x.on = 0) ∧
    BranchAt 6 9 0 (fun x => x.on ≠ 0 ∧ x.on = x.act) ∧
    BranchAt 6 9 1 (fun x => x.on ≠ 0 ∧ x.on ≠ x.act ∧ x.p.id ≠ x.t.nextPath ∧ (9 : Nat) ≠ 6 ∧ 9 ≠ x.p.pc + 1) := by
  unfold BranchAt OnePath
  refine ⟨?_, ?_, ?_, ?_, ?_, ?_⟩ <;> exact canIssue_of (by decide +kernel)

/-- Two paths of one split that reconverges at word 6: the running one in lane 0, the other waits there. -/
def trayS : Tray :=
  { tray0 with
    paths := [{ id := 0, pc := 0, lanes := 1#32, splits := [0] }, { id := 1, pc := 6, lanes := 2#32, splits := [0], wait := some { kind := .reconv } }]
    splits := [{ id := 0, reconv := some 6, lanes := 3#32 }], nextPath := 2, nextSplit := 1 }

theorem witness_Reconverges : ∃ o s x q k, CanIssue o s x ∧ x.t.paths = [x.p, q] ∧ x.p.id ≠ q.id ∧
    x.t.splits = [k] ∧ x.p.splits = [k.id] ∧ q.splits = [k.id] ∧ q.wait = some { kind := .reconv } ∧
    x.clear x.guards = true ∧ o.fld 0 24 = 0 ∧ x.on ≠ 0 ∧ x.on = x.act ∧ branchTarget x (o.fld 24 24) = k.reconv ∧ k.reconv.isSome = true := by
  obtain ⟨x, hx, h⟩ := canIssue_of (o := opB 6 0 7) (s := stateOf trayS) (Q := fun x =>
    let q : Path := { id := 1, pc := 6, lanes := 2#32, splits := [0], wait := some { kind := .reconv } }
    let k : Split := { id := 0, reconv := some 6, lanes := 3#32 }
    x.t.paths = [x.p, q] ∧ x.p.id ≠ q.id ∧ x.t.splits = [k] ∧ x.p.splits = [k.id] ∧ q.splits = [k.id] ∧ q.wait = some { kind := .reconv } ∧
    x.clear x.guards = true ∧ (opB 6 0 7).fld 0 24 = 0 ∧ x.on ≠ 0 ∧ x.on = x.act ∧ branchTarget x ((opB 6 0 7).fld 24 24) = k.reconv ∧
    k.reconv.isSome = true) (by decide +kernel)
  exact ⟨_, _, x, _, _, hx, h⟩

theorem witness_YieldAndExit : ∀ p ∈ [(0 : Fin 8), 3], ∃ o s x, CanIssue o s x ∧ OnePath x ∧ x.clear x.guards = true ∧ o.fld 0 48 = 0 ∧
    (if p = 0 then x.on ≠ 0 else x.on = 0) := by
  intro p hp
  simp only [List.mem_cons, List.not_mem_nil, or_false] at hp
  unfold OnePath
  rcases hp with rfl | rfl
  · exact ⟨{ op0 with pred := 0 }, stateOf trayB, canIssue_of (by decide +kernel)⟩
  · exact ⟨{ op0 with pred := 3 }, stateOf trayB, canIssue_of (by decide +kernel)⟩

theorem witness_PredicateLogic :
    (∃ o s x, CanIssue o s x ∧ o.fld 43 5 = 0 ∧ o.fld 35 5 = 0 ∧ o.fld 27 5 = 0 ∧ o.fld 13 11 = 0 ∧ o.fld 0 9 = 0 ∧ o.fld 40 3 ≠ 7 ∧
      o.fld 10 3 < 6 ∧ x.clear (x.guards ++ [predReg (o.fld 40 3), predReg (o.fld 32 3), predReg (o.fld 24 3)]) = true) ∧
    (∃ o s x, CanIssue o s x ∧ o.fld 43 5 = 0 ∧ o.fld 35 5 = 0 ∧ o.fld 13 19 = 0 ∧ o.fld 0 11 = 0 ∧ o.fld 40 3 ≠ 7 ∧ o.fld 11 2 < 2 ∧
      x.clear (x.guards ++ [predReg (o.fld 40 3), predReg (o.fld 32 3)]) = true) ∧
    (∃ o s x, CanIssue o s x ∧ o.fld 35 5 = 0 ∧ o.fld 13 19 = 0 ∧ o.fld 0 11 = 0 ∧ o.fld 11 2 = 2 ∧ o.dst.toNat < x.L.regs ∧
      x.clear (x.guards ++ [o.dst.toNat, predReg (o.fld 32 3)]) = true) := by
  refine ⟨⟨{ op0 with dst := 2, srcA := 0, srcB := 1, low := 0x1400 }, stateOf trayB, canIssue_of (by decide +kernel)⟩,
    ⟨{ op0 with dst := 2, srcA := 1, low := 0x800 }, stateOf trayB, canIssue_of (by decide +kernel)⟩,
    ⟨{ op0 with dst := 63, srcA := 1, low := 0x1000 }, stateOf trayB, canIssue_of (by decide +kernel)⟩⟩

-- R60: a divergent BRD leaves the fall-through lanes on the path and puts the taken lanes at the end of the path order
theorem test_brd_splits : (match exec (.brd (opB 6 9 1)) (stateOf trayB) with
    | .next s => (s.tray 0 0).map (fun y => y.paths.map (fun p => (p.pc, p.lanes)))
    | _ => none) = some [(1, 1#32), (6, 2#32)] := by decide +kernel

-- R49: EXIT of every lane leaves no path
theorem test_exit : (match exec (.exit op0) (stateOf trayB) with
    | .next s => (s.tray 0 0).map (fun y => (y.paths.length, y.live))
    | _ => none) = some (0, 0#32) := by decide +kernel

/-! ### Windows, atomics, scratchpad -/

/-- A window access of 4 bytes at registers 4 and 5, window 0. -/
def opM : TrayOp := { op0 with srcA := 4, srcB := 135, srcC := 135, dst := 8, low := 0x20 }

/-- Offsets 16 and 20 in lanes 0 and 1. -/
def trayM : Tray := { tray0 with regs := regs01 (fun r l => if r = 4 then 16 + 4 * l else if r = 5 then 0 else 7 + l) [4, 5, 6, 7, 8] }

/-- The hypotheses of a window load, but for the host window. -/
def LoadMet (o : TrayOp) (x : Ctx) : Prop :=
  OnDevice o x window0 ∧ PassesWindow o x winR window0 ∧ o.srcB.toNat = 135 ∧ o.srcC.toNat = 135 ∧ o.sem ≤ 1 ∧
    legalRegs x.L o.dst.toNat (regCount o.bytes) = true ∧
    x.clear (x.guards ++ (regsOf o.srcA.toNat 2 ++ regsOf o.dst.toNat (regCount o.bytes))) = true

/-- A store of register 6 with release order. -/
def opSt : TrayOp := { opM with dst := 135, srcC := 6, low := 0x22 }

theorem witness_WindowAccess : AllSent (stateOf trayM) ∧
    Meets opM (stateOf trayM) (fun x => LoadMet opM x ∧ opM.sizeCode = 2 ∧ window0.near = false) ∧
    Meets { opM with low := 0 } (stateOf trayM) (fun x => LoadMet { opM with low := 0 } x ∧ TrayOp.sizeCode { opM with low := 0 } = 0) ∧
    Meets opSt (stateOf trayM) (fun x => OnDevice opSt x window0 ∧ PassesWindow opSt x winW window0 ∧ opSt.srcB.toNat = 135 ∧
      opSt.dst.toNat = 135 ∧ opSt.sem = 2 ∧ legalRegs x.L opSt.srcC.toNat (regCount opSt.bytes) = true ∧
      x.clear (x.guards ++ (regsOf opSt.srcA.toNat 2 ++ regsOf opSt.srcC.toNat (regCount opSt.bytes))) = true) := by
  unfold LoadMet OnDevice PassesWindow
  exact ⟨allSent_of _ (by decide +kernel), canIssue_of (by decide +kernel), canIssue_of (by decide +kernel), canIssue_of (by decide +kernel)⟩

/-- The same with the tray's only window on the host window. -/
def windowH : Window := { window0 with base := hostBase }
def stateH (t : Tray) : State :=
  { stateOf t with launches := [(1, { launch0 with windows := [windowH] })], regs := [(regOffset 7 0 0, 2)] }

theorem witness_HostWindowAccess : AllSent (stateH trayM) ∧ hostReachable (stateH trayM) = true ∧ ((stateH trayM).core 0).ops = [] ∧
    Meets opM (stateH trayM) (fun x =>
      (∀ l ∈ Mask.lanes x.on, hostBase ≤ laneAddress opM x windowH l ∧ laneAddress opM x windowH l + opM.bytes ≤ hostEnd) ∧
      PassesWindow opM x winR windowH ∧ opM.srcB.toNat = 135 ∧ opM.srcC.toNat = 135 ∧ opM.sem ≤ 1 ∧
      legalRegs x.L opM.dst.toNat (regCount opM.bytes) = true ∧
      x.clear (x.guards ++ (regsOf opM.srcA.toNat 2 ++ regsOf opM.dst.toNat (regCount opM.bytes))) = true) ∧
    Meets { opSt with low := 0x20 } (stateH trayM) (fun x =>
      (∀ l ∈ Mask.lanes x.on, hostBase ≤ laneAddress { opSt with low := 0x20 } x windowH l ∧ laneAddress { opSt with low := 0x20 } x windowH l + 4 ≤ hostEnd) ∧
      PassesWindow { opSt with low := 0x20 } x winW windowH ∧ legalRegs x.L 6 1 = true ∧ x.clear (x.guards ++ (regsOf 4 2 ++ regsOf 6 1)) = true) := by
  unfold PassesWindow
  exact ⟨allSent_of _ (by decide +kernel), by decide +kernel, rfl, canIssue_of (by decide +kernel), canIssue_of (by decide +kernel)⟩

theorem witness_WindowFault : AllSent (stateOf trayM) ∧
    (∀ n : Fin 2, let o : TrayOp := { opM with low := if n = 0 then 0xA0 else 0x20 }
      let t : Tray := if n = 0 then trayM else { trayM with regs := regs01 (fun r _ => if r = 4 then 4093 else 0) [4, 5] }
      Meets o (stateOf t) (fun x => x.on ≠ 0 ∧ o.sizeCode < 5 ∧ legalRegs x.L o.srcA.toNat 2 = true ∧
        (∀ w ∈ x.L.windows[o.win]?, ∃ l ∈ Mask.lanes x.on, w.r = false ∨ w.bound < x.regsVal o.srcA.toNat 2 l + o.bytes) ∧
        o.srcB.toNat = 135 ∧ o.srcC.toNat = 135 ∧ o.sem ≤ 1 ∧ legalRegs x.L o.dst.toNat (regCount o.bytes) = true ∧
        x.clear (x.guards ++ (regsOf o.srcA.toNat 2 ++ regsOf o.dst.toNat (regCount o.bytes))) = true)) := by
  refine ⟨allSent_of _ (by decide +kernel), ?_⟩
  intro n
  match n with
  | 0 => exact canIssue_of (by decide +kernel)
  | 1 => exact canIssue_of (by decide +kernel)

/-- An atomic on words of `k` = 4 or 8 bytes: operand in register 6, compare value in 8 where `c`, destination 10 where `f`. -/
def opA (wide : Bool) (f c : Bool) : TrayOp :=
  { opM with srcB := 6, srcC := if c then 8 else 135, dst := if f then 10 else 135, low := if wide then 0x30 else 0x20 }

/-- Offsets 16 and 24. -/
def trayA : Tray := { tray0 with regs := regs01 (fun r l => if r = 4 then 16 + 8 * l else if r = 5 then 0 else 7 + l) [4, 5, 6, 7, 8, 9] }

/-- The hypotheses of row `k` of the atomics. -/
def AtomicMet (o : TrayOp) (x : Ctx) (k : Nat) : Prop :=
  PassesWindow o x winA window0 ∧ (o.sizeCode = 2 ∨ o.sizeCode = 3) ∧ OnDevice o x window0 ∧
    (∀ l ∈ Mask.lanes x.on, laneAddress o x window0 l % o.bytes = 0) ∧
    ∀ r ∈ (atomicRows o)[k]?, (r.2.1 = .fadd → o.sizeCode = 2) ∧
      (if o.sizeCode = 3 then legalSrc64 x.L o.srcB.toNat else legalSrc x.L o.srcB.toNat) = true ∧
      (if r.2.1 = .cas then (if o.sizeCode = 3 then legalSrc64 x.L o.srcC.toNat else legalSrc x.L o.srcC.toNat)
        else decide (o.srcC.toNat = 135)) = true ∧
      (if r.2.2 then legalRegs x.L o.dst.toNat (regCount o.bytes) else decide (o.dst.toNat = 135)) = true ∧
      x.clear (x.guards ++ (regsOf o.srcA.toNat 2 ++ ((if r.2.2 then regsOf o.dst.toNat (regCount o.bytes) else []) ++
        regsOf o.srcB.toNat (regCount o.bytes) ++ (if r.2.1 = .cas then regsOf o.srcC.toNat (regCount o.bytes) else [])))) = true

theorem witness_AtomicIssue :
    Meets (opA false false false) (stateOf trayA) (fun x => ∀ k ∈ [0, 2, 4, 6, 8, 10, 12, 14, 16], AtomicMet (opA false false false) x k) ∧
    Meets (opA false true false) (stateOf trayA) (fun x => ∀ k ∈ [1, 3, 5, 7, 9, 11, 13, 15, 17, 18], AtomicMet (opA false true false) x k) ∧
    Meets (opA true true true) (stateOf trayA) (fun x => AtomicMet (opA true true true) x 19) := by
  unfold AtomicMet OnDevice PassesWindow
  exact ⟨canIssue_of (by decide +kernel), canIssue_of (by decide +kernel), canIssue_of (by decide +kernel)⟩

theorem witness_AtomicMisaligned : Meets (opA false false false)
    (stateOf { trayA with regs := regs01 (fun r l => if r = 4 then 16 + 6 * l else if r = 5 then 0 else 7) [4, 5, 6] }) (fun x =>
      PassesWindow (opA false false false) x winA window0 ∧ (opA false false false).sizeCode = 2 ∧ OnDevice (opA false false false) x window0 ∧
      (opA false false false).sem = 0 ∧ (∃ l ∈ Mask.lanes x.on, laneAddress (opA false false false) x window0 l % 4 ≠ 0) ∧
      legalSrc x.L 6 = true ∧ x.clear (x.guards ++ (regsOf 4 2 ++ regsOf 6 1)) = true) := by
  unfold OnDevice PassesWindow
  exact canIssue_of (by decide +kernel)

/-- LOCKTRY into p2. -/
def opL : TrayOp := { opA false false false with dst := 2 }

theorem witness_LocktryIssue : Meets opL (stateOf trayA) (fun x =>
    PassesWindow opL x winA window0 ∧ (opL.sizeCode = 2 ∨ opL.sizeCode = 3) ∧ OnDevice opL x window0 ∧
      (∀ l ∈ Mask.lanes x.on, laneAddress opL x window0 l % opL.bytes = 0) ∧ opL.sem ≤ 1 ∧ opL.dst.toNat < 7 ∧ opL.srcC.toNat = 135 ∧
      (if opL.sizeCode = 3 then legalSrc64 x.L opL.srcB.toNat else legalSrc x.L opL.srcB.toNat) = true ∧
      x.clear (x.guards ++ (regsOf 4 2 ++ ([predReg opL.dst.toNat] ++ regsOf 6 (regCount opL.bytes)))) = true) := by
  unfold OnDevice PassesWindow
  exact canIssue_of (by decide +kernel)

/-- A load of one word by lane 0 at the front of core 0's accesses, from a line in L1 state E. -/
def memOp (kind : MemKind) : MemOp :=
  { serial := 5, slot := 0, path := 0, kind := kind, dst := 8, size := 4, lanes := [{ lane := 0, addr := 65552, data := 0x11223344 }] }

def stateM (kind : MemKind) (st : L1St) : State :=
  { stateOf { tray0 with pend := [{ serial := 5, kind := .external 5, longLatency := true, regs := [8] }] } { ops := [memOp kind] } with
    lines := [(512, { l1 := [(0, st)] })], mem := [(65552, 0x2A)] }

theorem witness_LoadReturn : ∃ s s₁ y, ∃ core : Fin 192, ∃ k op sg, AtItsTurn s core k op ∧ op.kind = .load sg ∧ s.tray core op.slot = some y ∧
    (∀ a ∈ op.lanes, beyondSlot s a.addr op.size = false ∧ a.lane < 32) ∧ (op.lanes.map (fun a => a.lane)).Nodup ∧
    overLines (fun s l => readLine s core l op.policy op.near) op.lines s = some s₁ ∧
    (∀ l ∈ op.lines, (s₁.line l).reloadAt = none) ∧ SMap.wf s₁.lines = true ∧
    (∀ a ∈ op.lanes, readPoisoned s₁ (forwarded (s.core core) op) a.addr op.size = false) := by
  have h : ∃ s₁, overLines (fun s l => readLine s 0 l 0 false) (memOp (.load true)).lines (stateM (.load true) .e) = some s₁ ∧
      (∀ l ∈ (memOp (.load true)).lines, (s₁.line l).reloadAt = none) ∧ SMap.wf s₁.lines = true ∧
      (∀ a ∈ (memOp (.load true)).lanes, readPoisoned s₁ (forwarded ((stateM (.load true) .e).core 0) (memOp (.load true))) a.addr 4 = false) := by
    have e : (match overLines (fun s l => readLine s 0 l 0 false) (memOp (.load true)).lines (stateM (.load true) .e) with
        | some s₁ => decide ((∀ l ∈ (memOp (.load true)).lines, (s₁.line l).reloadAt = none) ∧ SMap.wf s₁.lines = true ∧
            (∀ a ∈ (memOp (.load true)).lanes, readPoisoned s₁ (forwarded ((stateM (.load true) .e).core 0) (memOp (.load true))) a.addr 4 = false))
        | none => false) = true := by decide +kernel
    split at e
    · rename_i s₁ g
      exact ⟨s₁, g, of_decide_eq_true e⟩
    · cases e
  obtain ⟨s₁, g, a, b, c⟩ := h
  have t : AtItsTurn (stateM (.load true) .e) 0 0 (memOp (.load true)) := by unfold AtItsTurn; decide +kernel
  exact ⟨_, s₁, _, 0, 0, memOp (.load true), true, t, rfl, rfl, by decide +kernel, by decide, g, a, b, c⟩

theorem witness_StoreAccepted : let s := stateM .store .m
    let op := memOp .store
    AtItsTurn s 0 0 op ∧ op.kind = .store ∧ s.memWf = true ∧ 1 ≤ op.size ∧ (∀ a ∈ op.lanes, beyondSlot s a.addr op.size = false) ∧
    (∀ l ∈ op.lines, isHbmLine l = true ∧ SMap.find? (s.line l).l1 0 = some .m) ∧ op.near = false ∧ op.policy = 0 ∧
    (s.core 0).l1KiB ≠ 0 ∧ hostReachable s = true ∧ piecesApart (op.lanes.flatMap (piecesOf op.size)) = true := by
  unfold AtItsTurn
  decide +kernel

/-- A sheet's scratchpad at offsets 16 and 20, clean and holding a value in lane 0's word. -/
def stateSp : State := { stateOf trayM with mem := [(sramAddr 0 16, 0x80)] }

theorem witness_ScratchLoads :
    Meets opM stateSp (fun x => InScratch opM stateSp x sheet0 ∧ opM.srcB.toNat = 135 ∧ opM.srcC.toNat = 135 ∧ opM.sem ≤ 1 ∧
      legalRegs x.L opM.dst.toNat (regCount opM.bytes) = true ∧ x.clear (x.guards ++ (regsOf 4 2 ++ regsOf 8 (regCount opM.bytes))) = true ∧
      (∀ l ∈ Mask.lanes x.on, stateSp.extentPoisoned (scratchAddress opM x sheet0 l) opM.bytes = false)) ∧
    Meets { opM with low := 0 } stateSp (fun x => InScratch { opM with low := 0 } stateSp x sheet0 ∧
      TrayOp.sizeCode { opM with low := 0 } ≤ 1 ∧
      (∀ l ∈ Mask.lanes x.on, stateSp.extentPoisoned (scratchAddress { opM with low := 0 } x sheet0 l) 1 = false)) := by
  unfold InScratch
  exact ⟨canIssue_of (by decide +kernel), canIssue_of (by decide +kernel)⟩

theorem witness_ScratchStore :
    (stateSp).memWf = true ∧ Meets { opSt with low := 0x20 } stateSp (fun x => InScratch { opSt with low := 0x20 } stateSp x sheet0 ∧
      legalRegs x.L 6 1 = true ∧ x.clear (x.guards ++ (regsOf 4 2 ++ regsOf 6 1)) = true ∧
      ∀ l ∈ Mask.lanes x.on, ∀ m ∈ Mask.lanes x.on, l ≠ m → overlaps (scratchAddress { opSt with low := 0x20 } x sheet0 l, 4)
        (scratchAddress { opSt with low := 0x20 } x sheet0 m, 4) = false) := by
  unfold InScratch
  exact ⟨by decide +kernel, canIssue_of (by decide +kernel)⟩

-- R74, R7: SLDS extends the byte 0x80 by its sign
theorem test_slds : (match exec (.slds { opM with low := 0 }) stateSp with
    | .next s => (s.tray 0 0).bind (fun y => y.pend.getLast?.map (fun p => (y.finish p false).reg 8 0))
    | _ => none) = some 0xFFFFFF80 := by decide +kernel

/-- A tray whose lane 0 holds the line at 64 KiB + 16 reserved, in state M of its L1. -/
def trayQ (resv : List Reservation) : Tray := { trayM with paths := [path0 1#32], resv := resv }
def stateQ (resv : List Reservation) : State := { stateOf (trayQ resv) with lines := [(512, { l1 := [(0, .m)] })] }
def opQ : TrayOp := { opM with dst := 2, srcC := 6, low := 0x20 }
def resv0 : Reservation := { lane := 0, line := 512, path := 0 }

theorem witness_StoreConditional : (∀ q ∈ [[resv0], []], (stateQ q).memWf = true ∧
    Meets opQ (stateQ q) (fun x => PassesWindow opQ x winW window0 ∧ OnDevice opQ x window0 ∧ (opQ.sizeCode = 2 ∨ opQ.sizeCode = 3) ∧
      opQ.dst.toNat < 7 ∧ opQ.sem = 0 ∧ legalRegs x.L 6 1 = true ∧ x.clear (x.guards ++ (regsOf 4 2 ++ (predReg 2 :: regsOf 6 1))) = true ∧
      acquiresDone (trayOps ((stateQ q).core 0) 0) x.on = true ∧ x.t.resv = q)) ∧
    Meets opQ (stateQ [resv0]) (fun x => Mask.lanes x.on = [0] ∧ x.t.resv.find? (fun r => r.lane == 0) = some resv0 ∧
      window0.near = false ∧ resv0.line = lineOf (laneAddress opQ x window0 0) ∧ resv0.path = x.p.id ∧ x.t.issueCount - resv0.base ≤ 16 ∧
      SMap.find? ((stateQ [resv0]).line 512).l1 0 = some .m) := by
  unfold PassesWindow OnDevice
  refine ⟨?_, canIssue_of (by decide +kernel)⟩
  intro q hq
  simp only [List.mem_cons, List.not_mem_nil, or_false] at hq
  rcases hq with rfl | rfl <;> exact ⟨by decide +kernel, canIssue_of (by decide +kernel)⟩

/-! ### SYNC instructions -/

/-- FENCE of kind 3 at device scope. -/
def opF : TrayOp := { op0 with low := 0xB }

theorem witness_Fences : ∀ c ∈ [({} : Core), { ops := [memOp (.load false)] }],
    Meets opF (stateOf tray0 c) (fun x => OnePath x ∧ x.on ≠ 0 ∧ opF.fld 4 9 = 0 ∧ opF.fld 16 32 = 0 ∧ opF.fld 0 2 ≠ 0 ∧
      x.clear x.guards = true ∧ fenceDone ((stateOf tray0 c).core 0) 0 (opF.fld 2 2) (decide (opF.fld 0 2 = 1)) = c.ops.isEmpty) := by
  unfold OnePath
  intro c hc
  simp only [List.mem_cons, List.not_mem_nil, or_false] at hc
  rcases hc with rfl | rfl <;> exact canIssue_of (by decide +kernel)

/-- Counter 0 with register 6 as its operand. -/
def opC : TrayOp := { op0 with srcB := 6 }

theorem witness_SyncCounters : ∀ v ∈ [0, 7], let s := (stateOf trayM).rput Fld.CO_SYNC_VALUE_VALUE v 0 0
    Meets opC s (fun x => OnCounter opC x ∧ opC.fld 3 4 = 0 ∧ x.clear (x.guards ++ regsOf opC.srcB.toNat 1) = true ∧ x.released = true ∧
      OnePath x ∧ opC.soft = false ∧ x.clear (x.guards ++ ([] ++ regsOf opC.srcB.toNat 1)) = true ∧
      reached (s.counter 0 opC.index) (x.one opC.srcB.toNat 1) = decide (v = 7)) := by
  unfold OnePath OnCounter
  intro v hv
  simp only [List.mem_cons, List.not_mem_nil, or_false] at hv
  rcases hv with rfl | rfl <;> exact canIssue_of (by decide +kernel)

theorem witness_CounterRead : Meets { op0 with dst := 63 } (stateOf trayM) (fun x => x.on ≠ 0 ∧ TrayOp.fld { op0 with dst := 63 } 0 7 = 0 ∧
    Nat.testBit x.L.counterMask (TrayOp.index { op0 with dst := 63 }) = true ∧ 63 < x.L.regs ∧ x.clear (x.guards ++ regsOf 63 1) = true) :=
  canIssue_of (by decide +kernel)

-- R250: targets on either side of the counter, across the wrap
theorem test_reached : reached 5 0xFFFFFFFF = true ∧ reached 0xFFFFFFFF 5 = false ∧ reached 0x80000000 0 = false ∧ reached 0x7FFFFFFF 0 = true := by
  decide

/-- Two trays of one sheet; the barrier has counted `n` arrivals. -/
def stateBar (n : Nat) : State :=
  { stateOf tray0 with cores := [(0, {
      trays := [(0, tray0), (1, { tray0 with index := 1, active := false })], l1KiB := 64
      sheets := [{ sheet0 with trays := 2, barriers := [(1, { count := n, sense := true })] }] })] }
def trayBar : Tray := { tray0 with senses := [(1, true)] }
def opBar : TrayOp := { op0 with low := 0x80 }

theorem witness_SheetBarrier : ∀ n ∈ [0, 1], let s := (stateBar n).setTray 0 0 trayBar
    Meets opBar s (fun x => OnePath x ∧ x.on ≠ 0 ∧ opBar.fld 0 3 = 0 ∧ opBar.fld 9 2 = 0 ∧ opBar.fld 11 2 = 0 ∧ opBar.dst = 0 ∧
      opBar.soft = false ∧ x.clear x.guards = true ∧
      (∃ h ∈ x.sheet, h.uid = x.t.sheet ∧ SMap.get h.barriers (opBar.fld 7 2) {} = { count := n, sense := true }) ∧
      trayOps (s.core 0) 0 = [] ∧ x.t.senseOf 0 (opBar.fld 7 2) = true ∧
      (if n = 0 then 1 < sheetTrays (s.core 0) x.t.sheet else n + 1 = sheetTrays (s.core 0) x.t.sheet)) := by
  unfold OnePath
  intro n hn
  simp only [List.mem_cons, List.not_mem_nil, or_false] at hn
  rcases hn with rfl | rfl <;> exact canIssue_of (by decide +kernel)

/-- The event word at 64 KiB + 16 holds 5; the operand in registers 6 and 7 is `v`. -/
def stateE (v : Nat) : State :=
  { stateOf { tray0 with regs := regs01 (fun r _ => if r = 4 then 16 else if r = 6 then v else 0) [4, 5, 6, 7] } with mem := [(65552, 5)] }
def opE : TrayOp := { op0 with srcA := 4, srcB := 6 }

theorem witness_EventWords : ∀ v ∈ [4, 5, 6], NoEventWaits (stateE v) ∧ (stateE v).memWf = true ∧
    Meets opE (stateE v) (fun x => OnEventWord opE (stateE v) x winR window0 65552 ∧ OnEventWord opE (stateE v) x winA window0 65552 ∧ OnePath x ∧
      opE.soft = false ∧ opE.fld 3 4 = 0 ∧ x.released = true ∧ x.clear (x.guards ++ ([] ++ regsOf 4 2 ++ regsOf 6 2)) = true ∧
      x.one 6 2 = v ∧ (stateE v).readLE 65552 8 = 5) := by
  unfold OnePath OnEventWord
  intro v hv
  simp only [List.mem_cons, List.not_mem_nil, or_false] at hv
  rcases hv with rfl | rfl | rfl <;>
    exact ⟨noEventWaits_of _ (by decide +kernel), by decide +kernel, canIssue_of (by decide +kernel)⟩

/-- Realign pair 0 of context 0 with core 0 on side A. -/
def statePair : State := ((stateOf tray0).rput Fld.FE_RALIGN_PAIR_VALID 1 0 0).rput Fld.FE_RALIGN_PAIR_CORE_B 1 0 0

theorem witness_RemoteFlagAndRealign :
    Meets { op0 with low := 0x10 } (stateOf tray0) (fun x => OnePath x ∧ x.on ≠ 0 ∧ TrayOp.fld { op0 with low := 0x10 } 6 7 = 0 ∧
      TrayOp.syncPdst { op0 with low := 0x10 } = 2 ∧ x.clear (x.guards ++ [predReg 2]) = true) ∧
    (∀ s ∈ [statePair, stateOf tray0], Meets op0 s (fun x => OnePath x ∧ x.on ≠ 0 ∧ op0.fld 0 3 = 0 ∧ op0.fld 11 2 = 0 ∧ op0.soft = false ∧
      x.clear x.guards = true ∧
      (s.flag Fld.FE_RALIGN_PAIR_VALID 0 0 && decide (s.rget Fld.FE_RALIGN_PAIR_CONTEXT 0 0 = x.L.context) &&
        decide (s.rget Fld.FE_RALIGN_PAIR_CORE_A 0 0 = coreId 0)) = decide (s = statePair))) := by
  unfold OnePath
  refine ⟨canIssue_of (by decide +kernel), ?_⟩
  intro s hs
  simp only [List.mem_cons, List.not_mem_nil, or_false] at hs
  rcases hs with rfl | rfl <;> exact canIssue_of (by decide +kernel)

/-- A tray that waits on counter 0 with a timer that has run out. -/
def trayW (soft : Bool) : Tray :=
  { tray0 with active := false, paths := [{ path0 3#32 with
      wait := some { kind := .counter 0 9, soft := soft, pdst := if soft then 2 else 7, timer := some { span := 0, mark := 0 }
                     lend := some { span := 0, mark := 0 } } }] }

theorem witness_WaitTimeout : ∀ soft ∈ [true, false], ∃ y L p w tm, (stateOf (trayW soft)).clocked = true ∧
    (stateOf (trayW soft)).tray 0 0 = some y ∧ (stateOf (trayW soft)).launch y.launch = some L ∧
    y.paths.find? (fun q => q.id == 0) = some p ∧ p.wait = some w ∧ w.timer = some tm ∧ w.lend = some tm ∧
    (stateOf (trayW soft)).ranOut L.context tm = true ∧ w.soft = soft ∧ (soft = true → w.pdst < 7) := by
  intro soft hs
  simp only [List.mem_cons, List.not_mem_nil, or_false] at hs
  rcases hs with rfl | rfl <;>
    exact ⟨_, _, _, _, _, by decide +kernel, rfl, rfl, rfl, rfl, rfl, rfl, by decide +kernel, rfl, by decide⟩

/-- The same state serves the lending threshold. -/
theorem witness_LongWaits : ∃ y L p w tm, (stateOf (trayW false)).tray 0 0 = some y ∧ (stateOf (trayW false)).launch y.launch = some L ∧
    y.paths.find? (fun q => q.id == 0) = some p ∧ p.wait = some w ∧ w.lend = some tm ∧ (stateOf (trayW false)).ranOut L.context tm = true :=
  ⟨_, _, _, _, _, rfl, rfl, rfl, rfl, rfl, by decide +kernel⟩

/-- The pair of cores 0 and 1 with a waiter on side A, and on side B where `both`. -/
def stateDue (both : Bool) : State :=
  { statePair with
    cores := [(0, { trays := [(0, { tray0 with active := false, paths := [{ path0 3#32 with wait := some { kind := .pair 0 true } }] })], sheets := [sheet0] })] ++
      (if both then [(1, { trays := [(0, { tray0 with active := false, paths := [{ path0 3#32 with wait := some { kind := .pair 0 false } }] })], sheets := [sheet0] })] else []) }

theorem witness_RealignDue : ∀ both ∈ [true, false], let s := stateDue both
    s.clocked = true ∧ s.flag Fld.FE_RALIGN_PAIR_VALID 0 0 = true ∧ linearCore (s.rget Fld.FE_RALIGN_PAIR_CORE_A 0 0) = some 0 ∧
    linearCore (s.rget Fld.FE_RALIGN_PAIR_CORE_B 0 0) = some 1 ∧ s.rget Fld.FE_RALIGN_PAIR_INDEX_A 0 0 < 48 ∧
    s.rget Fld.FE_RALIGN_PAIR_INDEX_B 0 0 < 48 ∧
    ((pairWaiters s 0).any (fun e => e.2.2.2) && (pairWaiters s 0).any (fun e => !e.2.2.2)) = both := by decide +kernel

/-! ### Slots, the debugger, places -/

/-- A result in flight of each kind the command completes. -/
def statePend : State := stateOf { tray0 with pend := [
  { serial := 1, kind := .plain, regs := [8], writes := [{ reg := 8, lanes := 1#32, vals := [5#32] }] },
  { serial := 2, kind := .row 3 0 (List.replicate 72 1) }] }

theorem witness_InstructionCompletes : ∀ k ∈ [0, 1], ∃ y p, statePend.clocked = true ∧ statePend.tray 0 0 = some y ∧ y.pend[k]? = some p ∧
    (∀ n, p.kind ≠ .external n) ∧ (∀ i c, p.kind ≠ .matrix i c) ∧ ∀ q ∈ y.paths, q.wait = none := by
  intro k hk
  simp only [List.mem_cons, List.not_mem_nil, or_false] at hk
  rcases hk with rfl | rfl
  · exact ⟨_, _, by decide +kernel, rfl, rfl, fun n => by simp, fun i c => by simp, by decide +kernel⟩
  · exact ⟨_, _, by decide +kernel, rfl, rfl, fun n => by simp, fun i c => by simp, by decide +kernel⟩

/-- An active tray in slot 0 and a ready one in slot 1. -/
def stateTwo (t : Tray) : State :=
  { stateOf tray0 with cores := [(0, { trays := [(0, t), (1, { tray0 with index := 1, active := false })], sheets := [sheet0], l1KiB := 64 })] }

theorem witness_ActiveSlots :
    (let s := stateTwo tray0
     s.clocked = true ∧ s.tray 0 0 = some tray0 ∧ tray0.active = true ∧ ∃ r, s.tray 0 1 = some r ∧ r.ready s 0 1 = true) ∧
    (let y : Tray := { tray0 with active := false }
     let s := stateTwo y
     s.tray 0 0 = some y ∧ coresRun s = true ∧ y.ready s 0 0 = true ∧ y.path.isSome = true ∧ activeCount (s.core 0) < 16 ∧
     NoBreakpoints s 0) := by
  unfold NoBreakpoints
  exact ⟨⟨by decide +kernel, rfl, rfl, _, rfl, by decide +kernel⟩, rfl, by decide +kernel, by decide +kernel, by decide +kernel, by decide +kernel,
    by decide +kernel⟩

theorem witness_Debugger : ∀ y ∈ [tray0, { tray0 with halted := true, active := false }, { tray0 with stepping := true, stepIssued := true }],
    let s := stateOf y
    s.clocked = true ∧ coreReachable s 0 = true ∧ s.tray 0 0 = some y ∧
    (y.stepping = true → y.stepIssued = true ∧ y.pend = [] ∧ trayOps (s.core 0) 0 = [] ∧ (s.core 0).veq = [] ∧ ∀ q ∈ y.paths, q.wait = none) := by
  decide +kernel

theorem witness_TrayRetires : let y : Tray := { tray0 with live := 0, paths := [] }
    let s := stateOf y
    s.clocked = true ∧ s.tray 0 0 = some y ∧ s.launch y.launch = some launch0 ∧ (s.core 0).sheet? y.sheet = some sheet0 ∧
    y.live = 0 ∧ trayQuiet s 0 0 y = true ∧ sheetTrays (s.core 0) y.sheet = 1 := by decide +kernel

theorem witness_SheetPlaced : let L : Launch := { launch0 with sheets := 2, trays := 2, regs := 8, l1 := 64 }
    let s := { State.reset with launches := [(1, L)] }
    s.clocked = true ∧ s.launch 1 = some L ∧ L.serial = 1 ∧ L.gang = false ∧ L.saved = [] ∧ L.aborting = false ∧ L.startAt ≤ s.now ∧
    hasMailbox L = false ∧ feRuns s = true ∧ outranked s L 0 = false ∧ L.nextSheet < L.sheets ∧ fitsCore s L 0 0 = true ∧
    (s.core 0).l1KiB ≤ 1024 ∧ s.memWf = true := by decide +kernel

/-! ### Matrix array -/

/-- Fragment registers 16 to 31 of lanes 0 and 1, offset 16 in registers 4 and 5, stride 64 in register 6. -/
def fragVal (r l : Nat) : Nat := if r = 4 then 16 else if r = 5 then 0 else if r = 6 then 64 else 0x01FF7F80 * r + l
def trayF : Tray := { tray0 with regs := regs01 fragVal ([4, 5, 6] ++ (List.range 16).map (fun i => 16 + i)) }

/-- Rows 0 to 3 of the row-hold buffer hold 72 elements each for context 0. -/
def coreRows : Core :=
  { rows := [0, 1, 2, 3].map (fun r => (r, ({ valid := true, elems := (List.range 72).map (fun p => (37 * p + 91 * r) % 256) } : HoldRow)))
    sets := [(1, { state := .openTile, owner := 0, acc := [(5, 9)] })] }

def stateMx : State := stateOf trayF coreRows

/-- MMA on set 0 with ZERO and COMMIT to entry 1, signed, B from registers (0), from a row (1) or from a grid (2). -/
def opMma (b : Nat) : TrayOp :=
  { op0 with dst := if b = 2 then 0x4C else 0x40, srcA := 16, srcB := if b = 0 then 24 else 0x22
             srcC := if b = 0 then 0 else if b = 1 then 0x40 else 0x80, low := 0xC30 }

/-- MMA onto the open tile of set 1, subtracting. -/
def opMma1 : TrayOp := { op0 with srcA := 16, srcB := 24, low := 0x1038 }

/-- SMMA of rows 1 to 3 into columns 4 on of set 1. -/
def opSmma : TrayOp := { op0 with dst := 0x10, srcA := 0x28, srcB := 16, low := 0x1030 }

/-- The hypotheses of MMA. -/
def MmaMet (o : TrayOp) (s : State) (x : Ctx) : Prop :=
  let w := mxStepsPerCycle (mxFmtA o) (mxFmtB o)
  let occ := 2 * (o.fld 0 3 + 1)
  let na := fragRegs (mxFmtA o) (occ * w)
  let nb := fragRegs (mxFmtB o) (occ * w)
  MatrixReady o s x (o.fld 46 2) (mxFmtB o) (mmaRows o (occ * w)) ∧ o.fld 40 2 = 0 ∧ o.fld 22 2 ≠ 3 ∧
    runLegal x.L o.srcA.toNat na = true ∧ (o.fld 22 2 = 2 → 1 ≤ o.fld 42 4 ∧ o.fld 42 4 ≤ 9) ∧ (o.fld 22 2 ≠ 2 → o.fld 42 4 = 0) ∧
    (o.fld 22 2 = 0 → runLegal x.L o.srcB.toNat nb = true) ∧ (o.fld 22 2 ≠ 0 → o.fld 24 1 = 0 ∧ o.fld 25 4 ≤ 8) ∧
    x.clear (x.guards ++ ((List.range na).map (fun i => o.srcA.toNat + i) ++
      (if o.fld 22 2 = 0 then (List.range nb).map (fun i => o.srcB.toNat + i) else []))) = true

theorem witness_MatrixProducts :
    Meets (opMma 0) stateMx (MmaMet (opMma 0) stateMx) ∧ Meets (opMma 1) stateMx (MmaMet (opMma 1) stateMx) ∧
    Meets (opMma 2) stateMx (MmaMet (opMma 2) stateMx) ∧ Meets opMma1 stateMx (MmaMet opMma1 stateMx) ∧
    Meets opSmma stateMx (fun x => let o := opSmma
      let cols := (o.fld 0 3 + 1) * (mxFields (mxFmtB o) / 2)
      MatrixReady o stateMx x (o.fld 40 2) (mxFmtA o) ((List.range (o.fld 34 3 + 1)).map (fun i => (o.fld 37 3 + i) % 8)) ∧
      o.fld 32 2 = 0 ∧ o.fld 22 2 = 0 ∧ runLegal x.L o.srcB.toNat (o.fld 0 3 + 1) = true ∧ o.fld 42 6 + cols ≤ 64 ∧
      x.clear (x.guards ++ (List.range (o.fld 0 3 + 1)).map (fun i => o.srcB.toNat + i)) = true) := by
  unfold MmaMet MatrixReady
  exact ⟨canIssue_of (by decide +kernel), canIssue_of (by decide +kernel), canIssue_of (by decide +kernel),
    canIssue_of (by decide +kernel), canIssue_of (by decide +kernel)⟩

/-- FLD of two registers of FP8 elements into registers 16 and 17. -/
def opFld : TrayOp := { op0 with dst := 16, srcA := 4, srcB := 6, low := 0x400 }
/-- RHLD of row 5. -/
def opRhld : TrayOp := { op0 with srcA := 4, low := 0x1400 }

theorem witness_PanelLoads :
    Meets opFld stateMx (fun x => Mask.lowest x.on = some 0 ∧ let o := opFld
      let n := o.fld 10 3 + 1
      let fmt := o.fld 8 2
      let off := x.src64 o.srcA.toNat 0
      let stride := x.src o.srcB.toNat 0
      o.fld 16 8 = 0 ∧ o.fld 0 8 = 0 ∧ runLegal x.L o.dst.toNat n = true ∧ legalSrc64 x.L o.srcA.toNat = true ∧
      legalSrc x.L o.srcB.toNat = true ∧ off % 4 = 0 ∧ stride % 4 = 0 ∧
      PanelReady o stateMx x sheet0 off ((n * (mxFields fmt / 2) - 1) * stride + 64 * mxWidth fmt / 8) ∧
      x.clear (x.guards ++ ((List.range n).map (fun i => o.dst.toNat + i) ++ regsOf o.srcA.toNat 2 ++ regsOf o.srcB.toNat 1)) = true) ∧
    Meets opRhld stateMx (fun x => Mask.lowest x.on = some 0 ∧ let o := opRhld
      let off := x.src64 o.srcA.toNat 0
      o.dst = 0 ∧ o.srcB = 0 ∧ o.srcC = 0 ∧ o.fld 0 8 = 0 ∧ legalSrc64 x.L o.srcA.toNat = true ∧ off % 2 = 0 ∧
      rowLoading (stateMx.core o.core) (o.fld 10 3) = false ∧ PanelReady o stateMx x sheet0 off (72 * mxWidth (o.fld 8 2) / 8) ∧
      x.clear (x.guards ++ regsOf o.srcA.toNat 2) = true) := by
  unfold PanelReady
  exact ⟨canIssue_of (by decide +kernel), canIssue_of (by decide +kernel)⟩

/-- Entry 2 of the tile queue is ready for the sheet. -/
def stateTq : State := stateOf trayF { coreRows with tq := [(2, { state := .ready, sheet := 1, vals := [(32, 77), (64, -5)] })] }
/-- TRD of registers 16 and 17 from position 1 of entry 2. -/
def opTrd : TrayOp := { op0 with dst := 16, low := 0x1102 }

theorem witness_RowsEntriesSets :
    Meets { op0 with low := 0x8A } stateTq (fun x => x.on ≠ 0 ∧ TrayOp.fld { op0 with low := 0x8A } 8 5 = 0 ∧ x.clear x.guards = true) ∧
    Meets opTrd stateTq (fun x => x.on ≠ 0 ∧ let o := opTrd
      let e := (stateTq.core o.core).entry (o.fld 11 2)
      let n := o.fld 8 3 + 1
      e.state = .ready ∧ e.sheet = x.t.sheet ∧ o.unitEcc = .clean ∧ o.fld 0 1 = 0 ∧ o.fld 1 7 + n ≤ 128 ∧
      runLegal x.L o.dst.toNat n = true ∧ x.clear (x.guards ++ (List.range n).map (fun j => o.dst.toNat + j)) = true) ∧
    Meets { op0 with low := 0x1000 } stateTq (fun x => x.on ≠ 0 ∧ let o : TrayOp := { op0 with low := 0x1000 }
      ((stateTq.core o.core).entry (o.fld 11 2)).state = .ready ∧ ((stateTq.core o.core).entry (o.fld 11 2)).sheet = x.t.sheet ∧
      o.fld 0 11 = 0 ∧ x.clear x.guards = true) ∧
    (∀ owner ∈ [0, 1], ∀ low ∈ [0x1000, 0], let s := stateOf trayF { coreRows with sets := [(1, { state := .openTile, owner := owner })] }
      Meets { op0 with low := low } s (fun x => x.on ≠ 0 ∧ let o : TrayOp := { op0 with low := low }
        let a := (s.core o.core).accSet (o.fld 12 1)
        o.fld 0 12 = 0 ∧ a.state ≠ .draining ∧ x.clear x.guards = true ∧ (low = 0 ∨ (a.state = .openTile ∧ a.owner = owner)))) := by
  refine ⟨canIssue_of (by decide +kernel), canIssue_of (by decide +kernel), canIssue_of (by decide +kernel), ?_⟩
  intro owner ho low hl
  simp only [List.mem_cons, List.not_mem_nil, or_false] at ho hl
  rcases ho with rfl | rfl <;> rcases hl with rfl | rfl <;> exact canIssue_of (by decide +kernel)

/-- Set 1 drains into entry 2; the launch that issued last has a tail of 4 array cycles. -/
def stateDrain (idle : Nat) : State :=
  let c : Core := { coreRows with tq := [(2, { state := .filling, sheet := 1 })], lastMop := 1, mopIdle := idle
                                  sets := [(1, { state := .draining, owner := 0, acc := [(5, 9)], sat := 3, entry := 2, tag := 7 })] }
  let s := stateOf { trayF with pend := [{ serial := 4, kind := .matrix 1 (some 2) }] } c
  { s with launches := [(1, { launch0 with sugar := 4 })] }.rput Fld.CO_MX_SUGAR_CTRL_TAIL 9 0

theorem witness_DrainAndSugar : (let s := stateDrain 0
    let a := (s.core 0).accSet 1
    s.clocked = true ∧ a.state = .draining ∧ a.final = true ∧ ((s.core 0).sheet? ((s.core 0).entry a.entry).sheet).isSome = true ∧
    coresRun s = true ∧ (s.core 0).mopIdle < sugarTail s 0) ∧
    (let s := stateDrain 4
     s.clocked = true ∧ sugarTail s 0 ≤ (s.core 0).mopIdle) := by decide +kernel

/-! ### Vector engine -/

/-- A stream of 2 rows and 2 columns: the low and the high half of its descriptor. -/
def descLow (off fmt : Nat) : Nat := off + fmt * 2 ^ 20 + 2 ^ 24

/-- FP32 streams named by registers 4, 6, 16 and 18, int32 streams by 8, 20 and 22. -/
def trayVe : Tray :=
  { tray0 with regs := regs01 (fun r _ => if r % 2 = 1 then 16 else if r = 4 then descLow 64 1 else if r = 6 then descLow 128 1
      else if r = 16 then descLow 192 1 else if r = 18 then descLow 256 1 else if r = 8 then descLow 64 4
      else if r = 20 then descLow 128 4 else descLow 192 4) [4, 5, 6, 7, 8, 9, 16, 17, 18, 19, 20, 21, 22, 23] }

def stateVe : State := stateOf trayVe { coreRows with tq := [(2, { state := .ready, sheet := 1, vals := [(32, 77)] })] }

/-- A VEC instruction with its destination, its sources, and bits [12:0]. -/
def opV (d a b c : BitVec 8) (low : BitVec 13) : TrayOp := { op0 with dst := d, srcA := a, srcB := b, srcC := c, low := low, lit := 2 }

/-- The hypotheses of row `k` of the VEC instructions. -/
def VecMet (k : Nat) (o : TrayOp) (s : State) (x : Ctx) : Prop :=
  Mask.lowest x.on = some 0 ∧ o.vCin = false ∧ veUsed (s.core o.core) < 8 ∧ x.L.regs ≤ 128 ∧
    ∀ r ∈ (vecRows o)[k]?, vLegal o r.2 x.L = true ∧ vDynLegal (vInstr x o r.2 0) = true ∧
      (o.vTsrc = true → tileOwned (s.core o.core) x.t.sheet o.vTq = true) ∧
      x.clear (x.guards ++ (vReads o r.2 ++ redRegs o r.2 ++ countRegs o)) = true

/-- One operand form for each VEC row, by its place among the rows. -/
def vecForms : List (TrayOp × List Nat) :=
  [(opV 16 4 135 135 0, [0, 7, 8, 10, 25, 26, 27]), (opV 16 4 6 135 0, [1, 2, 3, 5, 6, 9, 11]), (opV 16 4 6 18 0, [4, 12]),
   (opV 22 8 20 135 0x200, [13, 14, 15, 16, 17, 18]), (opV 135 4 135 40 0, [19, 20, 21]), (opV 16 135 41 135 0x1060, [22]),
   (opV 22 135 41 135 0x260, [23]), (opV 135 4 135 135 0, [24]), (opV 16 4 6 135 0x1004, [28]), (opV 135 4 20 135 0x1000, [29]),
   (opV 135 4 20 22 0, [30])]

theorem witness_VectorIssue : ∀ f ∈ vecForms, Meets f.1 stateVe (fun x => ∀ k ∈ f.2, VecMet k f.1 stateVe x) := by
  unfold VecMet vecForms
  intro f hf
  simp only [List.mem_cons, List.not_mem_nil, or_false] at hf
  rcases hf with rfl | rfl | rfl | rfl | rfl | rfl | rfl | rfl | rfl | rfl | rfl <;> exact canIssue_of (by decide +kernel)

def stream0 (off fmt : Nat) : Stream := { offset := off, fmt := fmt, cols := 2, rows := 2, pitch := 0 }

/-- VADD of two FP32 streams, and a sum of each row. -/
def vAdd : VInstr := { op := 1, dst := some (stream0 192 1), srcA := some (stream0 64 1), srcB := some (stream0 128 1), srcC := none }
def vSum : VInstr := { op := 0x20, dst := some { stream0 192 1 with cols := 1 }, srcA := some (stream0 64 1), srcB := none, srcC := none }

def entryV (m : VInstr) : VEntry := { serial := 3, slot := 0, sheet := 1, launch := 1, members := [m], closed := true, lane := some 0 }

/-- The entry at the head of the queue; rows of 1.0, 2.0 and 3.0, 4.0 at offset 64 and twice as much at 128. -/
def stateHead (m : VInstr) : State :=
  { stateOf { trayVe with pend := [{ serial := 3, kind := .external 3, longLatency := true, regs := [40] }] } { coreRows with veq := [entryV m] } with
    mem := [(sramAddr 0 66, 0x80), (sramAddr 0 67, 0x3F), (sramAddr 0 71, 0x40), (sramAddr 0 74, 0x40), (sramAddr 0 75, 0x40),
      (sramAddr 0 78, 0x80), (sramAddr 0 79, 0x40), (sramAddr 0 131, 0x40)] }

theorem witness_VectorStart : ∀ m ∈ [vAdd, vSum], MayStart (stateHead m) 0 (entryV m) m sheet0 launch0 ∧ m.dst.isSome = true ∧
    (m.op < 0x16 ∨ isReduction m.op = true) := by
  intro m hm
  simp only [List.mem_cons, List.not_mem_nil, or_false] at hm
  unfold MayStart
  rcases hm with rfl | rfl <;> decide +kernel

-- R144, R154: 1.0 + 2.0, and the sum of 3.0 and 4.0
theorem test_vadd : (match exec (.veInstructionStart 0) (stateHead vAdd) with
    | .next s => (s.core 0).veq.map (fun e => e.result.map (fun r => r.writes.map (fun w => w.2.2 % 2 ^ 32)))
    | _ => []) = [some [0x40400000]] := by decide +kernel
theorem test_vrsum : (match exec (.veInstructionStart 0) (stateHead vSum) with
    | .next s => (s.core 0).veq.map (fun e => e.result.map (fun r => r.writes.map (fun w => w.2.2 / 2 ^ 32)))
    | _ => []) = [some [0x40E00000]] := by decide +kernel

theorem witness_StreamReadsBack : ∀ fmt ∈ [1, 7], let d := stream0 192 fmt
    d.rowBytes d.width ≤ d.pitchBytes d.width ∧ 0 < d.width ∧ ∀ row ∈ [[1, 2], [3, 0]], row.length = d.cols ∧ ∀ f ∈ row, f < 2 ^ d.width := by
  decide

/-- A started entry with a memory write, a register and a table. -/
def stateStarted (table : Option (Nat × Option (List Nat))) : State :=
  let r : VResult := { writes := [(sramAddr 0 192, 8, 0x4040000040400000)], regs := [{ reg := 40, lanes := 3#32, vals := [5, 6] }], table := table }
  stateOf { trayVe with pend := [{ serial := 3, kind := .external 3, longLatency := true, regs := [40] }] }
    { coreRows with veq := [{ entryV vAdd with result := some r }], tables := [(1, { valid := true })] }

theorem witness_VectorComplete : ∀ tb ∈ [none, some (1, some [7, 8]), some (1, none)], let s := stateStarted tb
    ∃ e r, s.clocked = true ∧ (s.core 0).veq.head? = some e ∧ e.result = some r ∧ s.memWf = true ∧ s.launch e.launch = some launch0 ∧
      r.table = tb ∧ r.writes.Pairwise (fun v w => overlaps (v.1, v.2.1) (w.1, w.2.1) = false) := by
  intro tb ht
  simp only [List.mem_cons, List.not_mem_nil, or_false] at ht
  rcases ht with rfl | rfl | rfl <;> exact ⟨_, _, by decide +kernel, rfl, rfl, by decide +kernel, rfl, rfl, by decide +kernel⟩

/-! ### DMA movers -/

/-- The low and high halves of the four words of a descriptor in registers 8 to 15: one 64 x 64 tile of bytes, the window from its base
on, cell 0; MODE `m`. -/
def descVal (m : Nat) (r _ : Nat) : Nat :=
  if r = 8 then m + 2 ^ 20 else if r = 12 then 64 else if r = 13 then 4 * 2 ^ 12 else if r = 14 then (if m = 2 then 4096 + 4 * 2 ^ 20 else 0) else 0

def trayMv (m : Nat) : Tray := { tray0 with regs := regs01 (descVal m) ((List.range 8).map (fun i => 8 + i)) }

/-- The device with a sheet of 8 KiB and a clean window; byte i of the window is 7 i. -/
def stateMv (m : Nat) : State :=
  { stateOf (trayMv m) with
    cores := [(0, { trays := [(0, trayMv m)], sheets := [{ sheet0 with size := 8192 }], l1KiB := 64 })]
    poison := (List.range 8).map (fun i => (i, false)) ++ (List.range 256).map (fun i => (2048 + i, false))
    mem := [(65536, 1), (65537, 2), (65600, 3)] }

def opD : TrayOp := { op0 with srcA := 8 }
def desc0 (m : Nat) : Desc := readDesc 1 0 0 (fun i => descVal m (8 + 2 * i) 0 + 2 ^ 32 * descVal m (9 + 2 * i) 0)

theorem witness_MoverPost : ∀ m ∈ [0, 1, 2], Meets opD (stateMv m) (fun x => CanPost opD x 0 (desc0 m) window0 ∧ opD.fld 0 13 = 0 ∧
    8 + 8 ≤ x.L.regs ∧ x.clear (x.guards ++ regsOf opD.srcA.toNat 8) = true) := by
  unfold CanPost
  intro m hm
  simp only [List.mem_cons, List.not_mem_nil, or_false] at hm
  rcases hm with rfl | rfl | rfl <;> exact canIssue_of (by decide +kernel)

/-- The descriptor as it reaches the mover. -/
def descAt (m : Nat) : Desc := { desc0 m with base := 65536 }

/-- Mover 0 with a job, or with a descriptor that waits. -/
def stateJob (m : Nat) (job : MoverJob) : State := { stateMv m with movers := [(0, { job := some job })] }

theorem moverAt_of (s : State) (job : MoverJob) (b : Nat) (h : (s.clocked = true ∧ s.domainStopped = false ∧ (s.mover b).job = some job ∧
    (s.mover b).waiting = 0 ∧ (s.mover b).failed = 0 ∧ (s.mover b).writing = false ∧ s.uc.held = [] ∧ s.el.waiting = [] ∧ hostReachable s = true))
    (a : s.cores.all (fun c => c.2.ops.all (fun p => !p.host || p.sent)) = true)
    (w : (waiters s).all (fun e => match e.2.2.2.kind with | .event _ _ => false | _ => true) = true) : MoverAt s b job :=
  ⟨h.1, h.2.1, h.2.2.1, h.2.2.2.1, h.2.2.2.2.1, h.2.2.2.2.2.1, ⟨allSent_of s a, h.2.2.2.2.2.2.1, h.2.2.2.2.2.2.2.1⟩, h.2.2.2.2.2.2.2.2,
    noEventWaits_of s w⟩

theorem witness_MoverMoves : ∀ m ∈ [0, 1, 2], let d := descAt m
    (let s := { stateMv m with movers := [(0, { queue := [d] })] }
     s.clocked = true ∧ s.domainStopped = false ∧ (s.mover 0).job = none ∧ (s.mover 0).fe = [] ∧ (s.mover 0).queue = d :: [] ∧
       descHeld s d = false ∧ (∀ c ∈ d.cells, cellOk s d c = true) ∧ isHost d.base = false) ∧
    (let s := stateJob m (.desc d)
     MoverAt s 0 (.desc d) ∧ d.toWindow = false ∧ d.mode < 3 ∧ 0 < d.tr ∧ 0 < d.tc ∧ d.base + d.span false d.wpitch ≤ hbmEnd ∧
       d.rowBytes ≤ d.wpitch ∧ (∀ c ∈ d.cells, cellOk s d c = true) ∧ (∀ p ∈ d.tiles, tilePoison s d p.1 p.2 = none) ∧ s.memWf = true ∧
       (d.mode ≠ 0 → d.tr * 64 ≤ d.dpitch) ∧ (d.mode = 0 → d.rowBytes ≤ d.dpitch) ∧
       (d.mode = 2 → d.rowBytes ≤ d.d2pitch ∧ overlaps (d.doff, d.span true d.dpitch) (d.d2off, d.span false d.d2pitch) = false)) ∧
    (let s := stateJob m (.desc d)
     0 < d.tr * d.tc ∧ s.launch d.launch = some launch0 ∧ ∀ l, reloadSource s l = none) := by
  intro m hm
  simp only [List.mem_cons, List.not_mem_nil, or_false] at hm
  rcases hm with rfl | rfl | rfl <;>
    exact ⟨by decide +kernel, ⟨moverAt_of _ _ _ (by decide +kernel) (by decide +kernel) (by decide +kernel), by decide +kernel⟩,
      by decide +kernel, by decide +kernel, fun l => rfl⟩

def granule0 : Granule := { queue := 0, seq := 1, node := 0, src := 65536, dst := 65536 + 4096, bytes := 256 }

theorem witness_GranuleCopies : let s := stateJob 0 (.granule granule0)
    let g := granule0
    MoverAt s 0 (.granule g) ∧ g.src + g.bytes ≤ hbmEnd ∧ g.dst + g.bytes ≤ hbmEnd ∧ s.memWf = true ∧
      overlaps (g.src, g.bytes) (g.dst, g.bytes) = false ∧ s.extentPoisoned g.src g.bytes = false ∧
      (∀ ch, ch < 128 → s.chanState ch = chanOnline) ∧ ∀ n, s.node g.ref = some n → n.wantsCrc = false ∧ n.status = 0 :=
  ⟨moverAt_of _ _ _ (by decide +kernel) (by decide +kernel) (by decide +kernel), by decide +kernel, by decide +kernel, by decide +kernel,
    by decide +kernel, by decide +kernel, by decide +kernel, fun n h => nomatch h⟩

/-! ### Coherence -/

/-- Line 512 as given, with core 0's and core 1's L1 of 64 KiB. -/
def stateLn (x : Line) : State :=
  { stateOf trayM with cores := [(0, { trays := [(0, trayM)], sheets := [sheet0], l1KiB := 64 }), (1, { l1KiB := 64 })], lines := [(512, x)] }

theorem witness_HomeRequests : ∀ r ∈ requestRows 0 512,
    (let s := stateLn { txn := some { req := .rdOwn, agent := 1 } }
     s.clocked = true ∧ s.domainStopped = false ∧ NoEventWaits s ∧ (s.line 512).txn.isSome = true) ∧
    (let s := stateLn { reloadAt := some 500 }
     s.clocked = true ∧ s.domainStopped = false ∧ NoEventWaits s ∧ (s.line 512).reloadAt.isSome = true) ∧
    (let s := stateLn { l1 := [(1, .m)] }
     NoEventWaits s ∧ LineFree s 512 ∧ snoopsFor (s.line 512) (effectiveReq (s.line 512) r.2 0) 0 ≠ []) ∧
    (let s := stateLn { l1 := [(0, .m)] }
     NoEventWaits s ∧ LineFree s 512 ∧ (r.2 ≠ .rdOnce → snoopsFor (s.line 512) (effectiveReq (s.line 512) r.2 0) 0 = []) ∧ (s.core 0).l1KiB ≠ 0) ∧
    (let s := stateLn {}
     NoEventWaits s ∧ LineFree s 512 ∧ snoopsFor (s.line 512) (effectiveReq (s.line 512) r.2 0) 0 = [] ∧ (s.core 0).l1KiB ≠ 0) ∧
    (let s := stateLn { l1 := [(1, .f), (2, .s)], slice := some {} }
     NoEventWaits s ∧ LineFree s 512 ∧ (r.2 = .rdShared → snoopsFor (s.line 512) (effectiveReq (s.line 512) r.2 0) 0 = [])) := by
  unfold requestRows LineFree
  intro r hr
  simp only [List.mem_cons, List.not_mem_nil, or_false] at hr
  rcases hr with rfl | rfl | rfl | rfl | rfl | rfl <;>
    exact ⟨⟨by decide +kernel, by decide +kernel, noEventWaits_of _ (by decide +kernel), by decide +kernel⟩,
      ⟨by decide +kernel, by decide +kernel, noEventWaits_of _ (by decide +kernel), by decide +kernel⟩,
      ⟨noEventWaits_of _ (by decide +kernel), by decide +kernel, by decide +kernel⟩,
      ⟨noEventWaits_of _ (by decide +kernel), by decide +kernel, by decide +kernel, by decide +kernel⟩,
      ⟨noEventWaits_of _ (by decide +kernel), by decide +kernel, by decide +kernel, by decide +kernel⟩,
      ⟨noEventWaits_of _ (by decide +kernel), by decide +kernel, by decide +kernel⟩⟩

/-- The home of line 512 waits for the answers of the cores given. -/
def stateSn (k : Snoop) (acted : Bool) (cs : List Nat) : State :=
  stateLn { l1 := [(0, .m)], txn := some { req := .claim, agent := 1, snoops := cs.map (fun c => { core := c, kind := k, acted := acted }) } }

theorem witness_SnoopsAndHolds :
    (∀ r ∈ snoopRows 0 512, let s := stateSn r.2 false [0]
      s.clocked = true ∧ NoEventWaits s ∧ ∃ x, (s.line 512).txn = some x ∧ heldBy s 0 512 = false ∧ ∃ q ∈ x.snoops, q.core = 0 ∧ q.kind = r.2 ∧ q.acted = false) ∧
    (∀ cs ∈ [[0], [0, 2]], let s := stateSn .inv true cs
      PortsQuiet s ∧ ∃ x, (s.line 512).txn = some x ∧ (∃ q ∈ x.snoops, q.core = 0 ∧ q.acted = true) ∧
        (x.snoops.filter (fun q => q.core != 0) = [] ↔ cs = [0]) ∧ x.req = .claim ∧ (s.core x.agent).l1KiB ≠ 0 ∧ (s.line 512).queue = [] ∧
        (s.line 512).reloadAt = none ∧ (x.snoops.find? (fun q => q.core == 0)).isSome = true) ∧
    (∃ y, (stateQ [resv0]).tray 0 0 = some y ∧ ∃ q ∈ y.resv, q.held = true) := by
  unfold snoopRows
  refine ⟨?_, ?_, ⟨_, rfl, _, List.mem_cons_self .., rfl⟩⟩
  · intro r hr
    simp only [List.mem_cons, List.not_mem_nil, or_false] at hr
    rcases hr with rfl | rfl | rfl | rfl <;>
      exact ⟨by decide +kernel, noEventWaits_of _ (by decide +kernel), _, rfl, by decide +kernel, _, List.mem_cons_self .., rfl, rfl, rfl⟩
  · intro cs hc
    simp only [List.mem_cons, List.not_mem_nil, or_false] at hc
    rcases hc with rfl | rfl <;>
      exact ⟨⟨allSent_of _ (by decide +kernel), rfl, rfl⟩, _, rfl, ⟨_, List.mem_cons_self .., rfl, rfl⟩, by decide +kernel, by decide +kernel,
        by decide +kernel, by decide +kernel, by decide +kernel, by decide +kernel⟩

/-- An atomic addition of one lane at 64 KiB + 16 at the front of core 0's accesses. -/
def stateAt : State :=
  { stateOf { tray0 with pend := [{ serial := 5, kind := .external 5, longLatency := true, regs := [8] }] } { ops := [memOp (.atomic .add true)] } with
    lines := [(512, { slice := some {} })], mem := [(65552, 0x2A)] }

theorem witness_HomeWrites :
    (let s := stateLn { l1 := [(1, .s)] }
     s.clocked = true ∧ s.domainStopped = false ∧ NoEventWaits s ∧ s.memWf = true ∧ (65552 : BitVec 48).toNat % 128 + 8 ≤ 128 ∧ LineFree s 512 ∧
       (∀ e ∈ (s.line 512).l1, heldBy s e.1 512 = false) ∧ isHbm 65552 = true) ∧
    (let s := stateAt
     ∃ op a, s.clocked = true ∧ s.domainStopped = false ∧ NoEventWaits s ∧ PortsQuiet s ∧ hostReachable s = true ∧ s.memWf = true ∧
       (s.core 0).ops[0]? = some op ∧ op.kind = .atomic .add true ∧ op.lanes = [a] ∧ op.got = [] ∧ op.near = false ∧ mayPerform (s.core 0) op = true ∧
       LineFree s (lineOf a.addr) ∧ (s.line (lineOf a.addr)).slice.isSome = true ∧ (s.line (lineOf a.addr)).l1 = [] ∧
       s.extentPoisoned a.addr op.size = false) := by
  unfold LineFree
  exact ⟨⟨by decide +kernel, by decide +kernel, noEventWaits_of _ (by decide +kernel), by decide +kernel, by decide +kernel, by decide +kernel,
    by decide +kernel, by decide +kernel⟩, _, _, by decide +kernel, by decide +kernel, noEventWaits_of _ (by decide +kernel),
    ⟨allSent_of _ (by decide +kernel), rfl, rfl⟩, by decide +kernel, by decide +kernel, rfl, rfl, rfl, rfl, rfl, by decide +kernel, by decide +kernel,
    by decide +kernel, by decide +kernel, by decide +kernel⟩

/-- A partition of context 0 that is enabled, does not borrow and has no tokens left. -/
def stateHeldFill : State := { stateLn {} with partitions := [(0, { ctrl := 2 ^ 48 })] }

theorem witness_LinesInSlices :
    (∀ st ∈ [L1St.m, .s], let s := stateLn { l1 := [(0, st)], slice := some {} }
      s.clocked = true ∧ NoEventWaits s ∧ holds s 512 0 = some st ∧ (s.line 512).txn = none ∧ (s.line 512).slice = some {}) ∧
    (let s := stateLn {}
     NoEventWaits s ∧ isHbmLine 512 = true ∧ (s.line 512).slice = none ∧ (s.line 512).reloadAt = none ∧ reloadSource s 512 = none ∧
       s.chanState (channelOf (128 * 512)) = chanOnline ∧ pcEnable (s.partition (partitionOf s 0)).ctrl = false ∧
       (freeWay s (homeOf 512).slice (homeOf 512).set (setLines s (homeOf 512).slice (homeOf 512).set)).isSome = true) ∧
    (let s := stateHeldFill
     let p := s.partition (partitionOf s 0)
     s.clocked = true ∧ NoEventWaits s ∧ s.chanState (channelOf (128 * 512)) = chanOnline ∧ (s.line 512).slice = none ∧ (s.line 512).reloadAt = none ∧
       reloadSource s 512 = none ∧ pcEnable p.ctrl = true ∧ pcBorrow p.ctrl = false ∧ SMap.get (p.fill s.now).tokens (channelOf (128 * 512) / 32) 0 < 128 * tokenUnit) ∧
    (let s := (stateLn { reloadAt := some 500000 }).rput Fld.FE_CARVEOUT_BASE_BASE 0x100000000
     s.clocked = true ∧ NoEventWaits s ∧ (s.line 512).reloadAt = some 500000 ∧ (s.line 512).queue = [] ∧ (s.line 512).txn = none ∧ PortsQuiet s ∧
       s.memWf = true ∧ (128 * 512 + 128 ≤ carveBase s ∨ carveBase s + carveBytes ≤ 128 * 512)) := by
  refine ⟨?_, ⟨noEventWaits_of _ (by decide +kernel), by decide +kernel⟩,
    ⟨by decide +kernel, noEventWaits_of _ (by decide +kernel), by decide +kernel⟩,
    ⟨by decide +kernel, noEventWaits_of _ (by decide +kernel), rfl, rfl, rfl, ⟨allSent_of _ (by decide +kernel), rfl, rfl⟩, by decide +kernel⟩⟩
  intro st hs
  simp only [List.mem_cons, List.not_mem_nil, or_false] at hs
  rcases hs with rfl | rfl <;> exact ⟨by decide +kernel, noEventWaits_of _ (by decide +kernel), by decide +kernel, by decide +kernel, by decide +kernel⟩

/-! ### Channels -/

/-- Channel 5 in a state, with failed attempts. -/
def stateCh (st attempts : Nat) : State := State.reset.setChan 5 st |>.mapChannel 5 (fun c => { c with attempts := attempts, windowCorrected := 9 })

theorem witness_Channels :
    (∀ st ∈ [0, 2, 3, 4, 5], (stateCh st 0).clocked = true ∧ stackBusy (stateCh st 0) 5 = false ∧ (stateCh st 0).chanState 5 = st) ∧
    (∀ a ∈ [0, 2], let s := stateCh 1 a
      s.clocked = true ∧ s.chanState 5 = 1 ∧ stackBusy s 5 = true ∧ PortsQuiet s ∧ (s.channel 5).attempts = a) ∧
    (let s := (stateCh 0 0).rput Fld.HM_RETRAIN_THRESH_CORRECTED 8
     s.clocked = true ∧ 0 < s.rget Fld.HM_RETRAIN_THRESH_CORRECTED ∧ s.rget Fld.HM_RETRAIN_THRESH_CORRECTED < (s.channel 5).windowCorrected ∧
       s.chanState 5 = 0 ∧ stackBusy s 5 = false) := by
  refine ⟨by decide +kernel, ?_, by decide +kernel⟩
  intro a ha
  simp only [List.mem_cons, List.not_mem_nil, or_false] at ha
  rcases ha with rfl | rfl <;>
    exact ⟨by decide +kernel, by decide +kernel, by decide +kernel, ⟨allSent_of _ (by decide +kernel), by decide +kernel, by decide +kernel⟩, by decide +kernel⟩

theorem witness_GeneratorAndPartitions : State.reset.clocked = true ∧
    (∀ st ∈ [0, 4], ((stateCh st 0).chanState 5 = 4 ∧ (stateCh st 0).flag Fld.HM_TG_STATUS_BUSY = false) ↔ st = 4) ∧
    (State.reset.rput Fld.HM_TG_STATUS_BUSY 1).flag Fld.HM_TG_STATUS_BUSY = true ∧
    partLegal State.reset 3 (100 + 50 * 2 ^ 16 + 2 ^ 32 + 2 ^ 48) = true ∧ partLegal State.reset 3 (50 + 100 * 2 ^ 16 + 2 ^ 48) = false := by
  decide +kernel

/-! ### Packets and registers -/

/-- The port is ACTIVE with one credit; one range of context 0 of 64 KiB stands at 64 KiB with object 0 LIVE, and lies at 64 KiB. -/
def stateP : State :=
  { stateLn {} with
    regs := State.reset.regs ++ [(regOffset 7 0 0, 2)]
    uc := { zpkt := 1, slots := 64, dreq := 8 }, ranges := [(0, { context := 0, vbase := 16, ngran := 16, perm := 15, mattr := 0, pbase := 16, object := 0 })]
    mem := [(0, 1), (8, 9)] }

def pkt (params : List (BitVec 64)) (queue : BitVec 10 := 0) : Pkt := { tag := 7, queue := queue, params := params }

theorem witness_PacketChecks : (∀ s ∈ [stateP, { stateP with unanswered := [7] }], s.clocked = true ∧ feRuns s = true ∧ CanReply s) ∧
    tagBusy { stateP with unanswered := [7] } 7 = true ∧ tagBusy stateP 7 = false ∧
    (∀ r ∈ packetRows { pkt [] with rsv := true }, pktFormat { pkt [] with rsv := true } r.2.1 = false) ∧
    (∀ r ∈ packetRows (pkt [] 3), pktFormat (pkt [] 3) r.2.1 = true) ∧ stateP.qState 3 = 0 ∧
    (stateP.rput Fld.FE_QUEUE_STATUS_STATE 1 0 3).qState 3 ≠ 0 := by
  unfold CanReply
  decide +kernel

/-- Queue 2 in a state. -/
def stateQueue (st : Nat) : State := stateP.rput Fld.FE_QUEUE_STATUS_STATE st 0 2

theorem witness_QueueCommands : Passes stateP (pkt [0]) [ones 0 10] ∧ pktParam (pkt [0]) 0 = 0 ∧
    ∀ r ∈ arrivals, Passes (stateQueue r.1) (pkt [2]) [ones 0 10] ∧ (stateQueue r.1).qState (pktParam (pkt [2]) 0) = r.1 ∧
      ((stateQueue r.1).queue 2).buffers = [] := by
  unfold Passes CanReply
  decide +kernel

/-- QUEUE_CREATE in context 0, PRIO 2, with its event at 64 KiB + 8. -/
def pktCreate : Pkt := pkt [2 * 2 ^ 6, 99, 65544]

theorem witness_QueuesAndContexts :
    (Passes stateP (pkt [1, 0, 0]) [ones 0 8, full, full] ∧ contextLive stateP (bits (pktParam (pkt [1, 0, 0]) 0) 0 6) = false) ∧
    (let s := stateP
     Passes s pktCreate [ones 0 8, full, full] ∧ contextLive s (bits (pktParam pktCreate 0) 0 6) = true ∧ freeQueue s = some 1 ∧
       (newObj s 3 0 1 false).any (fun u => match registerEvent u.1 0 (pktParam pktCreate 2) with
         | (_, st, some _) => st == stOk
         | _ => false) = true) ∧
    (let s := { stateP with contexts := (List.range 64).map (fun c => (c, {})) }
     Passes s (pkt []) [] ∧ ∀ c, c < 64 → (SMap.find? s.contexts c).isSome = true) ∧
    (Passes stateP (pkt []) [] ∧ SMap.find? stateP.contexts 1 = none ∧ (SMap.find? stateP.contexts 0).isSome = true) ∧
    (let s := { stateP with contexts := [(0, {}), (1, {})] }
     Passes s (pkt [1]) [ones 0 6] ∧ pktParam (pkt [1]) 0 ≠ 0 ∧ SMap.find? s.contexts 1 = some {} ∧ NoJobs s ∧ queuesOf s 1 = []) ∧
    (let s := { stateP with contexts := [(0, {}), (1, { destroying := true })] }
     s.clocked = true ∧ SMap.find? s.contexts 1 = some { destroying := true } ∧ queuesOf s 1 = []) := by
  unfold Passes CanReply NoJobs
  decide +kernel

/-- Every queue is in use. -/
def stateFull : State := { stateP with regs := (List.range 1024).map (fun q => (8 * (131 + q), 1)) ++ [(regOffset 7 0 0, 2)] }

theorem find?_inUse (m : SMap Word) (l : List Nat) (q : Nat) (h : q ∈ l) :
    SMap.find? (l.map (fun q => (8 * (131 + q), 1#64)) ++ m) (8 * (131 + q)) = some 1#64 := by
  induction l with
  | nil => cases h
  | cons k l ih =>
    by_cases e : 8 * (131 + k) = 8 * (131 + q)
    · simp [SMap.find?, e]
    · have : q ∈ l := by
        rcases List.mem_cons.mp h with rfl | h
        · exact absurd rfl e
        · exact h
      simpa [SMap.find?, e] using ih this

theorem qState_full (q : Nat) (h : q < 1024) : stateFull.qState q = 1 := by
  have f := find?_inUse [(regOffset 7 0 0, 2)] (List.range 1024) q (List.mem_range.mpr h)
  have k : Fld.FE_QUEUE_STATUS_STATE.offset 0 q = 8 * (131 + q) := by
    show regOffset 0 0 (131 + q) = _
    simp [regOffset]; omega
  have g : SMap.get stateFull.regs (8 * (131 + q)) = fun _ => 1#64 := by
    funext d; unfold SMap.get; rw [show SMap.find? stateFull.regs (8 * (131 + q)) = some 1#64 from f]
  simp [State.qState, State.rget, State.regWord, k, g]
  decide

theorem witness_NoFreeQueue : (Passes stateFull (pkt [0, 0, 0]) [ones 0 8, full, full] ∧
    contextLive stateFull (bits (pktParam (pkt [0, 0, 0]) 0) 0 6) = true) ∧ freeQueue stateFull = none := by
  refine ⟨by unfold Passes CanReply; decide +kernel, ?_⟩
  unfold freeQueue
  rw [List.find?_eq_none]
  intro q hq
  simp [qState_full q (List.mem_range.mp hq), qFree]

/-- A buffer of one node, TIMESTAMP, at 64 KiB. -/
def stateBuf : State := { stateP with mem := stateP.mem ++ [(65600, 9)] }

theorem witness_Submit :
    (∀ st ∈ [4, 5, 6], let s := stateP.rput Fld.FE_QUEUE_STATUS_STATE st 0 0
      Passes s (pkt [65536, 1]) [full, ones 0 14] ∧ s.qState 0 = st) ∧
    (let s := { stateP with queues := [(0, { buffers := List.replicate 64 { seq := 1, addr := 0, bytes := 128, concurrent := false, nodes := [] } })] }
     Passes s (pkt [65536, 1]) [full, ones 0 14] ∧ s.qState 0 < 4 ∧ 64 ≤ buffersOf s 0) ∧
    (Passes stateP (pkt [0, 1]) [full, ones 0 14] ∧ stateP.qState 0 < 4 ∧ buffersOf stateP 0 < 64 ∧ lookup stateP (stateP.qContext 0) 0 128 permR = none) ∧
    (let s := { stateP with queues := [(0, { pool := poolBytes })] }
     Passes s (pkt [65536, 1]) [full, ones 0 14] ∧ (lookup s (s.qContext 0) 65536 128 permR).isSome = true ∧ poolBytes < poolUsed s + 128) ∧
    (let s := stateBuf
     Passes s (pkt [65536, 1]) [full, ones 0 14] ∧ s.qState 0 < 4 ∧ buffersOf s 0 < 64 ∧
       (lookup s (s.qContext 0) 65536 128 permR).map (fun e => e.1) = some 65536 ∧
       poolUsed s + 128 ≤ poolBytes ∧ 4 * ((s.queue 0).pool + 128) ≤ poolBytes ∧ isHost 65536 = false ∧ (agentRead s 65536 128).2.2 = true ∧
       (readBuffer (wordsOf 16 ((toBytes 128 (s.readLE 65536 128)).map (fun b => b.toNat)))).isSome = true) := by
  unfold Passes CanReply
  exact ⟨by decide +kernel, by decide +kernel, by decide +kernel, by decide +kernel, by decide +kernel⟩

/-- Queue 3 exists; queue 2's fallback ring holds a record. -/
def stateRing : State := (stateQueue 1).rput Fld.FE_QUEUE_STATUS_ORPHAN_HELD 1 0 2

/-- PM's TRIP register, which only a privileged sender may write. -/
theorem regTrip : ∃ x, regNamed (regOffset 8 0 7) = some x ∧ x.hasKrw = true ∧ x.gated stateP = false ∧ x.gated State.reset = false ∧
    writeLegal x 12 = true ∧ writeLegal x 9 = false ∧ PlainWrite x ∧ x.unit ≠ 7 := by
  unfold PlainWrite
  exact ⟨_, rfl, by decide +kernel⟩

theorem witness_QueryPackets :
    (Passes stateP (pkt [4]) [full] ∧ regNamed (pktParam (pkt [4]) 0) = none) ∧
    (Passes stateP (pkt [0]) [full] ∧ ∃ x, regNamed (pktParam (pkt [0]) 0) = some x ∧ CanReply (regRead stateP x).1) ∧
    (Passes stateP (pkt [4, 0]) [full, full] ∧ regNamed (pktParam (pkt [4, 0]) 0) = none) ∧
    (∀ q ∈ [0, 2], let p := pkt [BitVec.ofNat 64 (regOffset 8 0 7), 12] q
      Passes (stateQueue 1) p [full, full] ∧ pktParam p 0 = regOffset 8 0 7) ∧
    (∀ s ∈ [stateQueue 1, stateRing], Passes s (pkt [2]) [ones 0 10] ∧ s.qState 2 ≠ 0 ∧
      (s.rget Fld.FE_QUEUE_STATUS_ORPHAN_HELD 0 2 = 0 ↔ s = stateQueue 1)) ∧
    Passes stateP (pkt [1, 2, 3]) [full, full, full] := by
  unfold Passes CanReply
  exact ⟨by decide +kernel, ⟨by decide +kernel, _, rfl, by decide +kernel⟩, by decide +kernel, by decide +kernel, by decide +kernel,
    by decide +kernel⟩

/-- With `regTrip`. -/
theorem witness_RegisterAccess : State.reset.clocked = true ∧ regNamed 4 = none ∧
    ∃ x, regNamed (regOffset 13 0 5) = some x ∧ x.gated State.reset = false :=
  ⟨by decide +kernel, by decide +kernel, _, rfl, by decide +kernel⟩

-- R9: a value below the register's range changes nothing
theorem test_writeOutOfRange : (match exec (.registerWrite true (BitVec.ofNat 32 (regOffset 8 0 7)) 9) State.reset with
    | .next t => decide (t.status = stInvalidArgument ∧ t.regs = State.reset.regs)
    | _ => false) = true := by decide +kernel

/-! ### Nodes -/

/-- A running node of queue 0, buffer 1, with words from word 8 on and translated addresses; node 1 runs beside it. -/
def nodeOf (typ : Nat) (body : List Nat) (phys : List Nat := []) : Node :=
  { index := 0, typ := typ, words := List.replicate 8 0 ++ body, stage := .running, phys := phys }
def stateN (n : Node) : State :=
  { stateP with
    queues := [(0, { buffers := [{ seq := 1, addr := 0, bytes := 64, concurrent := false, nodes := [n, { index := 1, stage := .running }] }] })] }

/-- The reference of that node. -/
def ref0 : NodeRef := { queue := 0, seq := 1, node := 0 }

theorem witness_SimpleNodes :
    (∀ t ∈ [ntLaunch, ntTimestamp, ntSetSeed, ntPartition], Acting (stateN (nodeOf t [5])) ref0 t (nodeOf t [5])) ∧
    Acting (stateN (nodeOf ntRegRead [0])) ref0 ntRegRead (nodeOf ntRegRead [0]) ∧ (regNamed 0).isSome = true ∧
    (let n := nodeOf ntRegWrite [regOffset 8 0 7, 12]
     Acting (stateN n) ref0 ntRegWrite n ∧ n.word 8 = regOffset 8 0 7) ∧
    (let n := nodeOf ntRegWrite [regOffset 8 0 7, 12]
     let s := { stateP with queues := [(2, { buffers := [{ seq := 1, addr := 0, bytes := 64, concurrent := false, nodes := [n] }] })] }
     Acting s { ref0 with queue := 2 } ntRegWrite n) ∧
    (SMap.find? (stateN (nodeOf ntPartition [0])).contexts 0).isSome = true ∧ Acting (stateN (nodeOf ntPartition [0])) ref0 ntPartition (nodeOf ntPartition [0]) := by
  unfold Acting
  decide +kernel

theorem witness_CopiesAndFills :
    (∀ c ∈ [(ntCopy, [0, 0, 0]), (ntCopy, [0, 0, 9000]), (ntCkpt, [0, 0, 0, 0]), (ntCkpt, [0, 0, 0, 8192])],
      let n := nodeOf c.1 c.2 [65536, 131072]
      Acting (stateN n) ref0 c.1 n ∧ (c.1 = ntCkpt → bits (n.word 8) 0 1 = 0) ∧ n.deal = [] ∧ n.moving = 0) ∧
    (let n := nodeOf ntFill [0, 136, 0x0102030405060708] [65600]
     Acting (stateN n) ref0 ntFill n ∧ n.waiting = 0 ∧ n.word 9 % 8 = 0 ∧ n.phys.getD 0 0 + n.word 9 ≤ hbmEnd ∧ NoEventWaits (stateN n) ∧
       (stateN n).memWf = true) := by
  unfold Acting
  exact ⟨by decide +kernel, by decide +kernel, by decide +kernel, by decide +kernel, by decide +kernel, noEventWaits_of _ (by decide +kernel),
    by decide +kernel⟩

/-- A node on the event word at 64 KiB + 16, which holds 5; the word is poisoned where `bad`. -/
def stateEv (typ v : Nat) (bad : Bool) (a : Nat := 65552) : State :=
  let s := stateN (nodeOf typ [0, v] [a])
  { s with mem := [(0, 1), (8, 9), (65552, 5)], poison := if bad then [(2048, true)] else s.poison }

theorem witness_EventNodes :
    (∀ v ∈ [5, 6], let s := stateEv ntSignal v false
      Acting s ref0 ntSignal (nodeOf ntSignal [0, v] [65552]) ∧ isHost 65552 = false ∧ s.extentPoisoned 65552 8 = false ∧
        channelTakes s 65552 = true ∧ NoEventWaits s ∧ s.memWf = true ∧ s.readLE 65552 8 = 5) ∧
    (∀ v ∈ [5, 6], Acting (stateEv ntWait v false) ref0 ntWait (nodeOf ntWait [0, v] [65552]) ∧ (stateEv ntWait v false).extentPoisoned 65552 8 = false ∧
      (stateEv ntWait v false).readLE 65552 8 = 5) ∧
    (∀ typ ∈ [ntSignal, ntWait], Acting (stateEv typ 6 true) ref0 typ (nodeOf typ [0, 6] [65552]) ∧ (stateEv typ 6 true).extentPoisoned 65552 8 = true) ∧
    (let s := stateEv ntWait 6 false (hostBase + 64)
     Acting s ref0 ntWait (nodeOf ntWait [0, 6] [hostBase + 64]) ∧ hostBase + 64 + 8 ≤ hostEnd ∧ (hostBase + 64) % 8 = 0 ∧ hostReachable s = true) := by
  unfold Acting
  refine ⟨?_, by decide +kernel, by decide +kernel, by decide +kernel⟩
  intro v hv
  simp only [List.mem_cons, List.not_mem_nil, or_false] at hv
  rcases hv with rfl | rfl <;> exact ⟨by decide +kernel, by decide +kernel, by decide +kernel, by decide +kernel, noEventWaits_of _ (by decide +kernel),
    by decide +kernel⟩

/-- PRELOAD of line 512 (and 513 where `len` is 256) into group 3, with `progress` lines done. -/
def nodePre (len progress : Nat) : Node :=
  { nodeOf ntPreload [0, 0, 0, len, 3] with windows := [window0], progress := progress }
def statePre (len progress : Nat) : State := { stateN (nodePre len progress) with lines := [(512, { slice := some {} })] }

/-- Group 3 in a state and a context, with an UNLOCK of it; line 512 is locked for it. -/
def stateUn (st ctx : Nat) : State :=
  let s := stateN (nodeOf ntUnlock [3])
  ({ s with lines := [(512, { slice := some { lock := some 3 } })] }.rput Fld.L2_GROUP_STATE st 0 3).rput Fld.L2_GROUP_CONTEXT ctx 0 3

theorem witness_LockGroups :
    (∀ e ∈ [(128, 0), (256, 0), (128, 1)], let s := statePre e.1 e.2
      let n := nodePre e.1 e.2
      Acting s ref0 ntPreload n ∧ s.rget Fld.L2_GROUP_STATE 0 3 = 0 ∧ SMap.find? s.groupLoad 3 = none ∧ bits (n.word 12) 0 4 = 3 ∧
        (preloadLines n)[n.progress]? = (if e.2 = 1 then none else some 512) ∧ isHbmLine 512 = true ∧ (s.line 512).slice = some {} ∧
        lockedWays s (homeOf 512).slice (homeOf 512).set 512 < lockLimit s (homeOf 512).slice (homeOf 512).set ∧
        (n.progress + 1 = (preloadLines n).length ↔ e = (128, 0))) ∧
    (∀ e ∈ [(0, 0), (2, 5), (1, 0), (2, 0), (3, 0)], let s := stateUn e.1 e.2
      Acting s ref0 ntUnlock (nodeOf ntUnlock [3]) ∧ s.rget Fld.L2_GROUP_STATE 0 3 = e.1 ∧ s.rget Fld.L2_GROUP_CONTEXT 0 3 = e.2 ∧ s.qContext 0 = 0 ∧
        SMap.find? s.groupLoad 3 = none) := by
  unfold Acting
  decide +kernel

/-- REALIGN_SET of pair 2: cores 3 and 4, counters 5 and 6; CLEAR where `c`. -/
def nodeRa (c : Nat) : Node := nodeOf ntRealign [2 + 16 * c + 3 * 2 ^ 8 + 5 * 2 ^ 16 + 4 * 2 ^ 24 + 6 * 2 ^ 32, 77, 20000, 5000]

theorem witness_RealignSet : ∀ c ∈ [0, 1], ∀ h ∈ [0, 1, 2],
    let s0 := stateN (nodeRa c)
    let s := if h = 0 then s0 else (s0.rput Fld.FE_RALIGN_PAIR_VALID 1 0 2).rput Fld.FE_RALIGN_PAIR_CONTEXT (if h = 1 then 0 else 9) 0 2
    Acting s ref0 ntRealign (nodeRa c) ∧ bits ((nodeRa c).word 8) 0 4 = 2 ∧ s.flag Fld.FE_RALIGN_PAIR_VALID 0 2 = decide (h ≠ 0) ∧
      (s.rget Fld.FE_RALIGN_PAIR_CONTEXT 0 2 ≠ s.qContext 0 ↔ h = 2) ∧ pairWaiters s 2 = [] ∧ bits ((nodeRa c).word 8) 4 1 = c := by
  unfold Acting
  decide +kernel

/-- A waiting node behind node 2, which has completed with a status. -/
def stateDep (st : Nat) (stage : NodeStage) : State :=
  { stateP with queues := [(0, { buffers := [{ seq := 1, addr := 0, bytes := 64, concurrent := false, nodes := [
    { index := 0, deps := [2], stage := stage }, { index := 1, stage := .running }, { index := 2, stage := .done, status := st }] }] })] }

/-- A node whose watchdog has run out. -/
def nodeDog : Node := { nodeOf ntTimestamp [] with timer := some { span := 0, mark := 0 } }

theorem witness_NodeLife :
    (let s := stateDep 0 .waiting
     s.clocked = true ∧ feRuns s = true ∧ s.qState 0 = 1 ∧ s.sp.jobs = [] ∧ s.node ref0 = some { index := 0, deps := [2] } ∧ mayStart s ref0 = true ∧
       noRoom s ref0 = false ∧ (readyNodes s 0).head? = some ref0) ∧
    (let n : Node := { nodeOf ntTimestamp [] with stage := .acted }
     (stateN n).node ref0 = some n ∧ isGuilty n.status = false ∧ (stateN n).qState 0 = 1 ∧ OtherOpen (stateN n) ref0) ∧
    (let n : Node := { nodeOf ntTimestamp [] with stage := .acted, record := some 65664 }
     let s := stateN n
     s.node ref0 = some n ∧ isHost 65664 = false ∧ channelTakes s 65664 = true ∧ NoEventWaits s ∧ s.memWf = true ∧ OtherOpen s ref0) ∧
    (let s := stateDep 5 .waiting
     s.node ref0 = some { index := 0, deps := [2] } ∧ OtherOpen s ref0 ∧ (∀ b, (s.queue 0).buffer 1 = some b → depFailed b { index := 0, deps := [2] } = true)) ∧
    (let s := stateN nodeDog
     s.node ref0 = some nodeDog ∧ OtherOpen s ref0 ∧ nodeDog.timer = some { span := 0, mark := 0 } ∧
       s.ranOut (s.qContext 0) { span := 0, mark := 0 } = true ∧ NoJobs s) := by
  unfold OtherOpen NoJobs
  refine ⟨by decide +kernel, ⟨by decide +kernel, by decide +kernel, by decide +kernel, _, rfl, by decide +kernel⟩,
    ⟨by decide +kernel, by decide +kernel, by decide +kernel, noEventWaits_of _ (by decide +kernel), by decide +kernel, _, rfl, by decide +kernel⟩,
    ⟨by decide +kernel, ⟨_, rfl, by decide +kernel⟩, ?_⟩, by decide +kernel, ⟨_, rfl, by decide +kernel⟩, by decide +kernel, by decide +kernel,
    by decide +kernel⟩
  intro b h
  cases h
  decide +kernel

/-- Queue 2 with no work, in a state; and a node whose abort has not been reported. -/
def nodeAb : Node := { nodeOf ntTimestamp [] with aborting := true, status := 9 }
def stateAb : State :=
  { stateP with queues := [(0, { buffers := [{ seq := 1, addr := 0, bytes := 64, concurrent := false, nodes := [nodeAb, { index := 1, stage := .running }] }]
                                 aborts := [ref0], abortAt := 100 })] }

theorem witness_QueueAborts :
    (∀ st ∈ [4, 6], let s := stateQueue st
      s.clocked = true ∧ (s.queue 2).aborts = [] ∧ (s.queue 2).buffers = [] ∧ s.qState 2 = st ∧ (s.queue 2).held = none ∧
        (s.queue 2).nextSeq ≤ (s.queue 2).doneSeq + 1 ∧ CanReply s ∧ s.uc.outbox = [] ∧ (s.queue 2).event = none ∧ (s.queue 2).obj = none ∧
        (s.queue 2).eventObj = none) ∧
    (stateAb.clocked = true ∧ stateAb.node ref0 = some nodeAb ∧ OtherOpen stateAb ref0 ∧ nodeAb.moving = 0 ∧ ref0 ∈ (stateAb.queue 0).aborts ∧
      NoJobs stateAb) ∧
    objState { stateP with mem := [(8, 0x11)] } 0 = 2 := by
  unfold OtherOpen NoJobs CanReply
  exact ⟨by decide +kernel, ⟨by decide +kernel, by decide +kernel, ⟨_, rfl, by decide +kernel⟩, by decide +kernel⟩, by decide +kernel⟩

/-! ### Ranges, heaps and mailboxes -/

/-- A RANGE_WRITE node of context 0: operation, words 9, 10, 11. -/
def nodeRg (op w9 w10 w11 : Nat) : Node := nodeOf ntRange [op, w9, w10, w11, 0]

/-- A range of two granules at granule `v` on local SRAM, R only. -/
def nodeCr (v : Nat) : Node := nodeRg 1 (4096 * v) (1 + 2 ^ 36) sramBase

theorem witness_RangeNodes :
    (∀ v ∈ [16, 32], let s := stateN (nodeCr v)
      contextLive s 0 = true ∧ ActingOp s ref0 ntRange 1 (nodeCr v) ∧ physOk s sramBase 8192 = true ∧
        reloadOk (reloadFields (nodeCr v)) 8192 false = true ∧ virtTaken s 0 v 2 = decide (v = 16) ∧ heapElsewhere s 0 (sramBase / 4096) 2 = false ∧
        freeTu s = some 1 ∧ (newObj s 1 0 1 false).isSome = true ∧ s.retired = []) ∧
    (∀ d ∈ [0, 1], let n := nodeRg 2 0 0 0
      let s := { stateN n with mem := [(0, 2), (8, 9), (9, BitVec.ofNat 8 (8 * d))] }
      contextLive s (rangeContext n) = true ∧ ActingOp s ref0 ntRange 2 n ∧ handleObj s n [1, 2] = some 0 ∧ objState s 0 = 1 ∧ objDying s 0 = decide (d = 1) ∧
        1 ≤ objCount s 0 ∧ s.allocs.all (fun a => a.object != 0) = true) ∧
    (let n := nodeRg 3 0 0 0
     let s := stateN n
     ActingOp s ref0 ntRange 3 n ∧ handleObj s n [1] = some 0 ∧ (SMap.find? s.ranges (objWhat s 0)).isSome = true ∧
       reloadOk (reloadFields n) 65536 false = true) ∧
    (let n := nodeRg 4 (4096 * 64) 3 sramBase
     let s := stateN n
     ActingOp s ref0 ntRange 4 n ∧ (SMap.find? s.contexts 0).map (fun x => x.heaps.any (fun h => h.index == 0)) = some false ∧
       physOk s sramBase (4096 * 4) = true ∧ virtTaken s 0 64 4 = false ∧ heapElsewhere s 0 (sramBase / 4096) 4 = false ∧
       rangeElsewhere s 0 (sramBase / 4096) 4 = false) ∧
    (let n := nodeRg 5 65552 0 0
     let s := stateN n
     ActingOp s ref0 ntRange 5 n ∧ (match registerEvent s 0 65552 with
       | (_, st, some _) => st == stOk
       | _ => false) = true) := by
  unfold ActingOp
  refine ⟨by decide +kernel, by decide +kernel, by decide +kernel, by decide +kernel, by decide +kernel, ?_⟩
  decide +kernel

/-- Launch 1 with window 1 of a DYNAMIC argument; slot 0 of its mailbox holds request 1 with words 1 and 2. -/
def launchMb (v : Window) : Launch := { launch0 with windows := [window0, v], mailbox := some 0 }
def nodeMb : Node := { nodeOf ntLaunch [0, 2 * 2 ^ 48, 0, 0, 0, 0, 0, 0, 0, 0, 0, 2 ^ 52] with launch := 1 }
def heapMb : Heap := { index := 0, vbase := 64, ngran := 8, pbase := sramBase / 4096 }
def stateMb (v : Window) (w1 w2 : Nat) (allocs : List Alloc := []) : State :=
  let s := stateN nodeMb
  (({ s with launches := [(1, launchMb v)], contexts := [(0, { heaps := [heapMb] })], allocs := allocs }.putLE (mailboxOff) 8 1).putLE
    (mailboxOff + 8) 8 w1).putLE (mailboxOff + 16) 8 w2

/-- ALLOC in window 1 of heap 0, 4 KiB aligned, R, W, A; FREE of window 1. -/
def wordAlloc : Nat := 1 + 4 * 1 + 1024 * 12 + 2 ^ 15 * 7
def wordFree : Nat := 2 + 4 * 1

theorem witness_Mailbox :
    (let s := stateMb {} wordAlloc 8000
     let L := launchMb {}
     Request s 1 0 L mailboxOff 1 wordAlloc 8000 ∧
       (SMap.find? s.contexts L.context).bind (fun c => c.heaps.find? (fun h => h.index == bits wordAlloc 8 2)) = some heapMb ∧
       L.windows[bits wordAlloc 2 6]? = some {} ∧ s.retired = [] ∧ firstFit heapMb (heapTaken s L.context heapMb) 2 1 = some 0 ∧
       bits wordAlloc 0 2 = 1 ∧ bits wordAlloc 10 5 = 12 ∧ bits wordAlloc 22 5 = 0 ∧
       (match addRange s { context := 0, vbase := 64, ngran := 2, perm := 7, mattr := 0, pbase := sramBase / 4096, object := 0, heap := some 0 } true with
         | .ok _ => true
         | .error _ => false) = true) ∧
    (let s := stateMb window0 wordFree 0 [{ object := 0, context := 0, launch := some 1, win := 1 }]
     let L := launchMb window0
     Request s 1 0 L mailboxOff 1 wordFree 0 ∧ bits wordFree 0 2 = 2 ∧ L.windows[bits wordFree 2 6]? = some window0 ∧ window0.bound ≠ 0 ∧
       winInUse s L 1 window0 = false ∧ window0.range < 65536) := by
  unfold Request
  exact ⟨⟨⟨by decide +kernel, by decide +kernel, by decide +kernel, by decide +kernel, by decide +kernel, by decide +kernel, by decide +kernel,
    by decide +kernel, by decide +kernel, by decide +kernel, noEventWaits_of _ (by decide +kernel)⟩, by decide +kernel, by decide +kernel, by decide +kernel,
    by decide +kernel, by decide +kernel, by decide +kernel, by decide +kernel, by decide +kernel⟩,
    ⟨by decide +kernel, by decide +kernel, by decide +kernel, by decide +kernel, by decide +kernel, by decide +kernel, by decide +kernel,
    by decide +kernel, by decide +kernel, by decide +kernel, noEventWaits_of _ (by decide +kernel)⟩, by decide +kernel, by decide +kernel, by decide +kernel,
    by decide +kernel, by decide +kernel⟩

/-- REGION_CONTROL of region 1: a shutdown, or an enable where `e`. -/
def nodeRc (e : Nat) : Node := nodeOf ntRegion [1 + 4 * e]

/-- Region 1 in a state, with its node; realign pair 2 names a core. -/
def stateRg (e st : Nat) (job : RegionJob := {}) (pair : Option Nat := none) : State :=
  let s := { stateN (nodeRc e) with regions := [(1, job)] }
  let s := s.setRegion 1 st
  match pair with
  | some id => ((s.rput Fld.FE_RALIGN_PAIR_VALID 1 0 2).rput Fld.FE_RALIGN_PAIR_CORE_A id 0 2).rput Fld.FE_RALIGN_PAIR_CORE_B id 0 2
  | none => s

/-- The identifier of linear core 48, the first of region 1. -/
def id48 : Nat := ((List.range 256).find? (fun i => linearCore i == some 48)).getD 0

theorem witness_RegionControl :
    (Acting (stateRg 0 0) ref0 ntRegion (nodeRc 0) ∧ bits ((nodeRc 0).word 8) 0 2 = 1 ∧ Nat.testBit ((nodeRc 0).word 8) 2 = false ∧
      (stateRg 0 0).regionState 1 = 0 ∧ pairInRegion (stateRg 0 0) 1 = false ∧ regionOn (stateRg 0 0) 0 = true ∧
      (let s := stateRg 0 0 {} (some id48)
       Acting s ref0 ntRegion (nodeRc 0) ∧ s.regionState 1 = 0 ∧ pairInRegion s 1 = true) ∧
      (let s := stateRg 0 2
       Acting s ref0 ntRegion (nodeRc 0) ∧ s.regionState 1 = 2 ∧ (s.regionJob 1).enabling = false)) ∧
    (∀ st ∈ [0, 1, 2], let s := stateRg 1 st
      Acting s ref0 ntRegion (nodeRc 1) ∧ Nat.testBit ((nodeRc 1).word 8) 2 = true ∧ s.regionState 1 = st) ∧
    (∀ st ∈ [1, 3], let s := stateRg 0 st { down := [ref0] }
      s.clocked = true ∧ s.regionState 1 = st ∧ regionSheets s 1 = [] ∧ NoEventWaits s ∧ actNode s ref0 ntRegion = some (nodeRc 0)) ∧
    (let s := stateRg 1 2 { up := [ref0], enabling := true }
     s.clocked = true ∧ s.regionState 1 = 2 ∧ (s.regionJob 1).enabling = true ∧ s.memWf = true ∧ actNode s ref0 ntRegion = some (nodeRc 1)) := by
  unfold Acting
  refine ⟨by decide +kernel, by decide +kernel, ?_, by decide +kernel⟩
  intro st hv
  simp only [List.mem_cons, List.not_mem_nil, or_false] at hv
  rcases hv with rfl | rfl <;>
    exact ⟨by decide +kernel, by decide +kernel, by decide +kernel, noEventWaits_of _ (by decide +kernel), by decide +kernel⟩

/-- A timed launch that is ready; a sheet of a launch of context 1 stands on core 0, with a tray at a safe point; queue 3 has PRIO `p`. -/
def nodeTl (startAt : Nat) : Node :=
  { nodeOf ntLaunch [0, 1, 0, 0, 0, startAt] with stage := .waiting, readyAt := some 50 }
def sheetLc : Sheet := { uid := 4, launch := 2, index := 0, base := 0, size := 4096, trays := 1 }
def launchLc : Launch := { launch0 with serial := 2, context := 1, queue := 3, counterMask := 5 }
def stateLc (leaving : Bool) (prio : Nat) : State :=
  let s := stateN (nodeTl 90)
  ({ s with cores := [(0, { trays := [(0, { tray0 with launch := 2, sheet := 4 })], sheets := [{ sheetLc with leaving := leaving }] })]
            launches := [(2, launchLc)], now := 60 }).rput Fld.FE_QUEUE_STATUS_PRIO prio 0 0

theorem witness_LaunchCompetition :
    (let s := stateLc false 0
     s.clocked = true ∧ feRuns s = true ∧ s.node ref0 = some (nodeTl 90) ∧ (nodeTl 90).word 13 = 90 ∧ s.now ≤ 90) ∧
    (∀ prio ∈ [0, 1], let s := stateLc false prio
      (waitingLaunch s ref0).map (fun e => (e.1, e.2.1)) = some (0, 1) ∧ sheetLc ∈ (s.core 0).sheets ∧ s.launch 2 = some launchLc ∧ launchLc.context ≠ 0 ∧
        (if prio = 0 then prioOf s 3 = prioOf s 0 else prioOf s 3 < prioOf s 0)) ∧
    (let s := stateLc true 0
     s.clocked = true ∧ feRuns s = true ∧ outgoing s = [(0, { sheetLc with leaving := true })] ∧ sheetQuiet s 0 { sheetLc with leaving := true } = true ∧
       s.launch 2 = some launchLc ∧ launchLc.gang = false ∧ fabricMode s = false ∧ (s.node ref0).bind (fun n => s.launch n.launch) = none) := by
  decide +kernel

/-! ### Links and machine time -/

/-- Link 7 in a state, with its frames; a node of type LINK_CONTROL. -/
def nodeLk (op : Nat) : Node := nodeOf ntLink [op + 16 * 7 + 2 ^ 16 * 41, 0, 5 + 2 ^ 16 * 2] [65536]
def stateLk (st op : Nat) (l : ELink := {}) : State :=
  let s := stateN (nodeLk op)
  { s with el := { s.el with links := [(7, l)] } }.rput Fld.EL_LINK_STATUS_STATE st 0 7

theorem witness_LinkNodes :
    (∀ op ∈ [1, 2, 3, 4], ∀ st ∈ [0, 1, 2, 3, 4, 5], let s := stateLk st op
      ActingOp s ref0 ntLink op (nodeLk op) ∧ s.el.out = [] ∧ bits ((nodeLk op).word 8) 4 6 = 7 ∧ s.lkState 7 = st) ∧
    (ActingOp (stateLk 0 5) ref0 ntLink 5 (nodeLk 5) ∧ (∀ j, j < 64 → jsState (stateLk 0 5) j = 0 ∧ expValid (stateLk 0 5) j = false) ∧
      (let s := (stateLk 0 5).rput Fld.EL_EXPORT_BASE_VALID 1 0 63
       ActingOp s ref0 ntLink 5 (nodeLk 5) ∧ expValid s 63 = true) ∧
      (let s := (stateLk 0 5).rput Fld.EL_JOBSET_STATE 2 0 0
       ActingOp s ref0 ntLink 5 (nodeLk 5) ∧ jsState s 0 ≠ 0)) ∧
    (let s := stateLk 0 6
     ActingOp s ref0 ntLink 6 (nodeLk 6) ∧ isHost 65536 = false ∧ extentReady s 65536 16 = true ∧ (agentRead s 65536 16).2.2 = true ∧
       bits ((nodeLk 6).word 10) 16 17 = 2) := by
  unfold ActingOp
  decide +kernel

def frame7 : SentFrame := { seq := 3, pkt := {}, since := 40 }
def link7 : ELink := { sent := [frame7], rx := 9, ackAt := 40 }

theorem witness_LinkFrames : (∀ st ∈ [2, 4], (stateLk st 1 link7).clocked = true ∧ (stateLk st 1 link7).lkState 7 = st) ∧
    ((stateLk 2 1 link7).link 7).sent ≠ [] ∧
    (((stateLk 2 1).link 7).lane = none ∧ lanesLeft (stateLk 2 1) 7 = 2 ∧ (stateLk 2 1).flag Fld.EL_LINK_STATUS_LANE1_FAILED 0 7 = false) ∧
    (let s := (stateLk 2 1).rput Fld.EL_LINK_STATUS_LANE0_FAILED 1 0 7
     lanesLeft s 7 = 1 ∧ s.flag Fld.EL_LINK_STATUS_LANE1_FAILED 0 7 = false ∧ s.flag Fld.EL_LINK_STATUS_LANE0_FAILED 0 7 = true ∧ s.lkState 7 = 2 ∧
       (s.link 7).lane = none) ∧
    (∀ lane ∈ [0, 1], ((stateLk 2 1 { lane := some lane }).link 7).lane = some lane) := by
  decide +kernel

theorem witness_LinkStates : (∀ st ∈ [1, 2, 4, 5], (stateLk st 1).lkState 7 = st) ∧
    ((stateLk 4 1).rput Fld.EL_LINK_STATUS_PENDING 1 0 7).flag Fld.EL_LINK_STATUS_PENDING 0 7 = true ∧
    ((stateLk 2 1).flag Fld.EL_DEVICE_ID_ASSIGNED = false) ∧ ((stateLk 2 1 link7).link 7).sent[0]? = some frame7 := by
  decide +kernel

/-- A device whose machine time is in a state, from the fabric by link 7 where `source` is 2. -/
def stateMt (st source : Nat) : State :=
  (((((stateLk 2 1).rput Fld.MT_STATUS_STATE st).rput Fld.MT_CTRL_SOURCE source).rput Fld.MT_CTRL_ENABLE 1).rput Fld.MT_UPSTREAM_LINK 7).rput
    Fld.MT_UPSTREAM_VALID 1

theorem witness_TimeSync : (stateMt 3 2).clocked = true ∧ usesFabric (stateMt 3 2) = true ∧
    (stateMt 3 2).lkState ((stateMt 3 2).rget Fld.MT_UPSTREAM_LINK) = 2 ∧
    (let s := stateMt 3 2
     { s with mt := { s.mt with req := some (7, 30) } }.mt.req = some ((7 : Fin 48).val, 30) ∧ s.lkState 7 = 2) := by
  decide +kernel

theorem witness_TimeWrites : State.reset.clocked = true ∧ mtSteppable State.reset = true ∧ mtSteppable (stateMt 3 2) = false ∧
    State.reset.flag Fld.MT_UPSTREAM_VALID = false ∧ (stateMt 3 2).flag Fld.MT_UPSTREAM_VALID = true ∧ 2 ≤ (stateMt 3 2).mtState ∧
    State.reset.flag Fld.MT_CTRL_ENABLE = false ∧ State.reset.mtState ≤ 1 ∧
    (0 ≤ (State.reset.now : Int) + (7#64).toInt ∧ (State.reset.now : Int) + (7#64).toInt < 2 ^ 64) ∧
    (State.reset.now : Int) + (0xFFFFFFFFFFFFFFFF#64).toInt < 0 ∧ (bits (48#64).toNat 0 6 = 48 ∧ bits (7#64).toNat 0 6 = 7) ∧
    bits (2#64).toNat 0 2 = 2 ∧ (bits (5#64).toNat 2 1 = 1 ∧ bits (5#64).toNat 0 2 ≠ 0) := by
  decide +kernel

/-- Machine time disciplined by PPS, one edge accepted. -/
def statePps (first : Bool) (edge : Option Nat) : State :=
  let s := stateMt 2 1
  { s.rput Fld.MT_STATUS_STEPPABLE 1 with now := 1700000000, mt := { s.mt with first := first, lastEdge := edge } }

theorem witness_TimeEvents :
    ((statePps true (some 1600000000)).now - 1600000000 < 500000000 ∧ (statePps true (some 1600000000)).mt.lastEdge = some 1600000000) ∧
    (let s := statePps true (some 600000000)
     s.clocked = true ∧ (∀ e, s.mt.lastEdge = some e → 500000000 ≤ s.now - e) ∧ s.now < 2 ^ 63 ∧ usesPps s = true ∧ s.mtState = 2 ∧ s.mt.first = true ∧
       s.flag Fld.MT_STATUS_STEPPABLE = true ∧ s.nowFrac < 2 ^ 32) ∧
    (State.reset.mt.lastEdge = none ∧ usesPps State.reset = false) ∧
    (2 ≤ (stateMt 3 1).mtState ∧ (stateMt 4 1).mtState = 4) := by
  refine ⟨by decide +kernel, ⟨by decide +kernel, ?_, by decide +kernel⟩, by decide +kernel, by decide +kernel⟩
  intro e h
  cases h
  decide +kernel

/-! ### Job sets and remote operations -/

/-- JOBSET_CONTROL: slot 3, context 0, job set 500, epoch 9, member, export 5; words 9 to 11. -/
def nodeJs (op : Nat) (open_ : Nat := 0) : Node :=
  nodeOf ntJobSet [op + 16 * 3 + 2 ^ 16 * 500 + 2 ^ 32 * 9 + 2 ^ 40 + 2 ^ 41 * 5 + 2 ^ 47 * open_, 2 ^ 7, 65536, 128 + 2 ^ 49 * 3]

/-- Slot 3 in a state; the device's ID is assigned; export 5 is valid where `e`. -/
def stateJs (n : Node) (st epoch e : Nat) : State :=
  ((((stateN n).rput Fld.EL_DEVICE_ID_ASSIGNED 1).rput Fld.EL_JOBSET_STATE st 0 3).rput Fld.EL_JOBSET_EPOCH epoch 0 3).rput
    Fld.EL_EXPORT_BASE_VALID e 0 5

theorem witness_JobSetNodes :
    (∀ op ∈ [1, 2, 4, 6], ∀ st ∈ [0, 1, 2], ∀ ep ∈ [8, 9], ∀ e ∈ [0, 1], let n := nodeJs op
      let s := stateJs n st ep e
      ActingOp s ref0 ntJobSet op n ∧ n.progress = 0 ∧ bits (n.word 8) 4 6 = 3 ∧ bits (n.word 8) 41 6 = 5 ∧ s.flag Fld.EL_DEVICE_ID_ASSIGNED = true ∧
        jsState s 3 = st ∧ s.rget Fld.EL_JOBSET_EPOCH 0 3 = ep ∧ bits (n.word 8) 32 8 = 9 ∧ expValid s 5 = decide (e = 1) ∧ s.el.waiting = [] ∧
        s.el.ops.all (fun o => o.2.jslot != 3) = true ∧ SMap.find? s.el.joins 3 = none) ∧
    (let n := nodeJs 1
     bits (n.word 8) 16 16 = 500 ∧ jobsetElsewhere (stateJs n 0 0 0) 500 3 = false ∧ memberElsewhere (stateJs n 0 0 0) (bits (n.word 8) 10 6) 3 = false ∧
       contextLive (stateJs n 0 0 0) (bits (n.word 8) 10 6) = true ∧
       (let s := ((stateJs n 0 0 0).rput Fld.EL_JOBSET_STATE 1 0 63).rput Fld.EL_JOBSET_JOBSET 500 0 63
        jsState s 3 = 0 ∧ jobsetElsewhere s 500 3 = true)) ∧
    (∀ o ∈ [0, 1], let n := nodeJs 3 o
      let s := stateJs n (1 - o) 0 0
      ActingOp s ref0 ntJobSet 3 n ∧ bits (n.word 8) 47 1 = o ∧ (o = 0 → jsState s 3 ≠ 0) ∧ argKind (n.word 11) = 0 ∧ argRange (n.word 10) (n.word 11) = true ∧
        (buildWindow s (s.rget Fld.EL_JOBSET_CONTEXT 0 3) (n.word 10) (n.word 11)).any (fun v => v.1.base < 2 ^ 48) = true) ∧
    ActingOp (stateJs (nodeJs 3) 1 0 1) ref0 ntJobSet 3 (nodeJs 3) := by
  unfold ActingOp
  decide +kernel

/-- Device 20 on job set 500, epoch 9, in slot 3 of context 0; export 5 shows 64 KiB on; link 7 is UP and routes to device 21. -/
def stateRm (member : Nat) : State :=
  let s := stateLk 2 1
  let s := { s with el := { s.el with routes := [(21, 7 + 2 ^ 6 + 2 ^ 9)] } }.rput Fld.EL_LINK_STATUS_WIDTH 2 0 7
  let s := (((s.rput Fld.EL_DEVICE_ID_ID 20).rput Fld.EL_JOBSET_STATE 1 0 3).rput Fld.EL_JOBSET_JOBSET 500 0 3).rput Fld.EL_JOBSET_EPOCH 9 0 3
  let s := ((s.rput Fld.EL_JOBSET_MEMBER member 0 3).rput Fld.EL_EXPORT_BASE_BASE 65536 0 5).rput Fld.EL_EXPORT_BASE_VALID 1 0 5
  let s := ((s.rput Fld.EL_EXPORT_BASE_R 1 0 5).rput Fld.EL_EXPORT_BASE_W 1 0 5).rput Fld.EL_EXPORT_BASE_A 1 0 5
  { (s.rput Fld.EL_EXPORT_BASE_SLOT 3 0 5).rput Fld.EL_EXPORT_BOUND_BOUND 4096 0 5 with
    mem := [(0, 1), (8, 9), (65552, 5)], poison := (List.range 16).map (fun i => (2048 + i, false)) }

/-- A packet from device 21 for export 5, offset 16. -/
def pktRm : EPkt :=
  { dwin := 5, jobset := 500, dst := 20, src := 21, doff := 16, len := 15, seq := 8, epoch := 9, evalue := 77, size64 := true, operand := 3, compare := 5
    payload := 0x1122334455667788 }

theorem witness_JobAborts :
    (∀ st ∈ [0, 1], let n := nodeJs 5
      ActingOp (stateJs n st 0 0) ref0 ntJobSet 5 n ∧ jsState (stateJs n st 0 0) 3 = st ∧ NoMember (stateJs n st 0 0) 3) ∧
    (∀ st ∈ [1, 2], let s := (stateRm 0).rput Fld.EL_JOBSET_STATE st 0 3
      s.clocked = true ∧ linkCarries s 7 = true ∧ slotOf s pktRm.jobset.toNat = some 3 ∧ s.rget Fld.EL_JOBSET_EPOCH 0 3 = pktRm.epoch.toNat ∧ jsState s 3 = st ∧
        NoMember s 3) := by
  unfold ActingOp NoMember
  decide +kernel

/-- Device 21 is new to the filter. -/
def filter21 : Filter := { incarn := 0, base := 8 }

theorem witness_TargetOperations : ∀ op ∈ [(1 : BitVec 5), 2, 3, 0x08, 0x09, 0x0A, 0x0B, 0x0C, 0x0D, 0x0E, 0x0F, 0x10, 0x11, 0x12],
    let q := { pktRm with op := op }
    Arrives (stateRm 1) 7 q ∧ Accepted (stateRm 1) q 65552 filter21 ∧ pktRm.poison = 0 ∧ pktRm.len.toNat < 256 ∧
      (stateRm 1).extentPoisoned 65552 8 = false ∧ (stateRm 1).readLE 65552 8 < pktRm.evalue.toNat := by
  have a : ∀ op ∈ [(1 : BitVec 5), 2, 3, 0x08, 0x09, 0x0A, 0x0B, 0x0C, 0x0D, 0x0E, 0x0F, 0x10, 0x11, 0x12],
      pktWaits (stateRm 1) { pktRm with op := op } = false := by decide +kernel
  have b : ∀ op ∈ [(1 : BitVec 5), 2, 3, 0x08, 0x09, 0x0A, 0x0B, 0x0C, 0x0D, 0x0E, 0x0F, 0x10, 0x11, 0x12],
      (match checkPkt (stateRm 1) { pktRm with op := op } with
        | .ok e => e == (some 3, 65552)
        | .error _ => false) = true := by decide +kernel
  have d : pktRm.dst.toNat = ownId (stateRm 1) := by decide +kernel
  have r : (pickSlot (stateRm 1) pktRm.src.toNat 63).isSome = true := by decide +kernel
  have g : filterPkt (SMap.find? (stateRm 1).el.filters pktRm.src.toNat) pktRm.incarn.toNat pktRm.seq.toNat pktRm.ackDelta.toNat =
    (some filter21, .goOn) := by decide +kernel
  have v : bits pktRm.evt.toNat 0 1 = 0 := by decide +kernel
  intro op h
  refine ⟨⟨by decide +kernel, by decide +kernel, .inr (by decide +kernel), d, a op h, noEventWaits_of _ (by decide +kernel), by decide +kernel,
    .inr r⟩, ⟨g, ⟨some 3, ?_⟩, v⟩, by decide +kernel⟩
  have := b op h
  revert this
  split
  · rename_i e he
    intro k
    rw [he, eq_of_beq k]
  · intro k
    cases k

/-- The filter holds the answer to packet 8 of device 21, or packets from 4096 on. -/
def stateFl (f : Filter) : State :=
  let s := stateRm 1
  { s with el := { s.el with filters := [(21, f)] } }

theorem witness_ExactlyOnce : ∀ op ∈ [(1 : BitVec 5), 3, 0x08, 0x10],
    (let s := stateFl { filter21 with done := [(8, 16, 5)] }
     Arrives s 7 { pktRm with op := op } ∧ filterPkt (SMap.find? s.el.filters 21) 0 8 0 = (some { filter21 with done := [(8, 16, 5)] }, .dup 16 5)) ∧
    (let s := stateFl { incarn := 0, base := 4096 }
     Arrives s 7 { pktRm with op := op } ∧ (filterPkt (SMap.find? s.el.filters 21) 0 8 0).2 = .stale) ∧
    (let q := { pktRm with op := op, doff := 4090 }
     Arrives (stateRm 1) 7 q ∧ filterPkt (SMap.find? (stateRm 1).el.filters 21) 0 8 0 = (some filter21, .goOn) ∧
       (match checkPkt (stateRm 1) q with
        | .ok _ => false
        | .error st => st == stBound) = true) := by
  have arr : ∀ f, (f = none ∨ f = some { filter21 with done := [(8, 16, 5)] } ∨ f = some { incarn := 0, base := 4096 }) →
      ∀ op ∈ [(1 : BitVec 5), 3, 0x08, 0x10], ∀ off ∈ [(16 : BitVec 48), 4090],
      Arrives (match f with
        | none => stateRm 1
        | some f => stateFl f) 7 { pktRm with op := op, doff := off } := by
    intro f hf op ho off hd
    simp only [List.mem_cons, List.not_mem_nil, or_false] at ho hd
    rcases hf with rfl | rfl | rfl <;> rcases ho with rfl | rfl | rfl | rfl <;> rcases hd with rfl | rfl <;>
      exact ⟨by decide +kernel, by decide +kernel, .inr (by decide +kernel), by decide +kernel, by decide +kernel, noEventWaits_of _ (by decide +kernel),
        by decide +kernel, .inr (by decide +kernel)⟩
  intro op h
  refine ⟨⟨arr _ (.inr (.inl rfl)) op h 16 (by decide), by decide +kernel⟩, ⟨arr _ (.inr (.inr rfl)) op h 16 (by decide), by decide +kernel⟩,
    arr none (.inl rfl) op h 4090 (by decide), by decide +kernel, ?_⟩
  revert op
  decide +kernel

/-- RPOST of a descriptor in registers 16 to 31 of lane 0: operation `op` on job-set slot 3, for device 21. -/
def opRp : TrayOp := { op0 with srcA := 16 }
def trayRp (op : Nat) : Tray :=
  let w : List Nat := [op + 2 ^ 6 + 2 ^ 7 + 2 ^ 8 * 5 + 2 ^ 16 * 3 + 2 ^ 32 * 21 + 2 ^ 48 * 15, 16, 32, 3, 5, 0, 77, 8]
  { tray0 with regs := (w.zip (List.range 8)).flatMap (fun e =>
      [(32 * (16 + 2 * e.2), BitVec.ofNat 32 (e.1 % 2 ^ 32)), (32 * (17 + 2 * e.2), BitVec.ofNat 32 (e.1 / 2 ^ 32))]) }
def stateRp (op : Nat) : State :=
  (((stateOf (trayRp op)).rput Fld.EL_JOBSET_STATE 1 0 3).rput Fld.EL_JOBSET_MEMBER 1 0 3).rput Fld.EL_JOBSET_EPOCH 9 0 3

theorem witness_RemotePost : ∀ op ∈ [1, 2, 3, 0x08, 0x10, 0x12],
    Meets opRp (stateRp op) (fun x => opRp.srcA.toNat + 16 ≤ x.L.regs ∧ opRp.fld 0 7 = 0 ∧ x.clear (x.guards ++ regsOf opRp.srcA.toNat 16) = true ∧
      Mask.lowest x.on = some 0 ∧
      (let w := fun i => x.regsVal (opRp.srcA.toNat + 2 * i) 2 0
       bits (w 0) 0 5 = op ∧ bits (w 0) 16 6 = 3 ∧ bits (w 0) 14 2 = 0 ∧ bits (w 0) 22 10 = 0 ∧ bits (w 1) 48 16 = 0 ∧ bits (w 2) 48 16 = 0 ∧
         bits (w 5) 54 10 = 0 ∧ bits (w 7) 54 10 = 0 ∧ bits (w 0) 5 1 = 0 ∧ bits (w 0) 6 1 = 1 ∧ bits (w 1) 0 48 % 8 = 0 ∧
         bits (w 2) 0 48 + 16 ≤ ((x.L.windows[opRp.fld 7 6]?).getD {}).bound ∧ bits (w 7) 0 48 = 8 ∧ bits (w 7) 48 6 = 0) ∧
      (stateRp op).rget Fld.EL_JOBSET_CONTEXT 0 3 = x.L.context ∧ x.released = true) ∧
    jsState (stateRp op) 3 = 1 ∧ jsMember (stateRp op) 3 = true ∧ AllSent (stateRp op) ∧ 0 < ((stateRp op).core opRp.core).remoteCredits ∧
    window0.r = true ∧ window0.w = true ∧ window0.a = true ∧ isHost (window0.base + 32) = false ∧ isHost (window0.base + 8) = false := by
  intro op h
  simp only [List.mem_cons, List.not_mem_nil, or_false] at h
  rcases h with rfl | rfl | rfl | rfl | rfl | rfl <;>
    exact ⟨canIssue_of (by decide +kernel), by decide +kernel, by decide +kernel, allSent_of _ (by decide +kernel), by decide +kernel⟩

/-- An operation of tray 0 of core 0 with one packet out, sent on link 7 or the loopback. -/
def eopRm (op : Nat) : EOp :=
  { core := 0, launch := 1, sheet := 0, tray := 0, slot := 0, op := op, evt := 0, size64 := true, jslot := 3, jobset := 500, epoch := 9, dst := 21
    dwin := 5, doff := 16, len := 16, loc := 65600, operand := 3, compare := 5, evwin := 0, evoff := 0, evalue := 0, sevt := 0, started := 0, left := 1 }
def eoutRm (op link : Nat) : EOut :=
  { op := 4, pkt := { pktRm with op := BitVec.ofNat 5 op, dst := 21, src := 20 }, loc := 65600, sent := true, link := link, first := 10, last := 10 }
def stateOut (op link : Nat) : State :=
  let s := stateRm 0
  { s with el := { s.el with ops := [(4, eopRm op)], out := [eoutRm op link], nextOp := 5 } }

/-- Its answer. -/
def rspRm : EPkt := { op := 0x1F, dst := 20, src := 21, seq := 8, operand := 6, payload := 0x99AABBCCDDEEFF }

theorem witness_RemoteEnds :
    (∀ op ∈ [1, 2, 3, 0x10], let s := stateOut op 7
      s.clocked = true ∧ linkCarries s (7 : Fin 49) = true ∧ rspRm.dst.toNat = ownId s ∧ OneOut s (eoutRm op 7) (eopRm op) ∧ (eoutRm op 7).pkt.dst = rspRm.src ∧
        (eoutRm op 7).pkt.seq = rspRm.seq ∧ rspRm.status.toNat = 0 ∧ rspRm.poison = 0 ∧ (eoutRm op 7).pkt.len.toNat < 256 ∧ (eopRm op).parts = [] ∧
        (eoutRm op 7).pkt.op ≠ 0x04) ∧
    (let s := stateOut 1 7
     s.el.out[0]? = some (eoutRm 1 7) ∧ timersStand s (eoutRm 1 7) = false ∧ (eoutRm 1 7).pkt.dst.toNat ≠ ownId s ∧
       (pickSlot s (eoutRm 1 7).pkt.dst.toNat 7).isSome = true ∧ s.el.ops = [((eoutRm 1 7).op, eopRm 1)] ∧ (eopRm 1).node = none ∧ jsState s 3 = 1 ∧ AllSent s) ∧
    (let s := stateRm 1
     s.clocked = true ∧ s.domainStopped = false ∧ linkCarries s 7 = true ∧ slotOf s pktRm.jobset.toNat = some 3 ∧ jsState s 3 = 1 ∧
       s.rget Fld.EL_JOBSET_EPOCH 0 3 = pktRm.epoch.toNat ∧ jsMember s 3 = true ∧
       (match checkPkt s { pktRm with op := 0x03 } with
        | .ok e => e == (some 3, 65552)
        | .error _ => false) = true ∧
       s.extentPoisoned 65552 8 = false ∧ NoEventWaits s ∧ s.memWf = true ∧ s.readLE 65552 8 < pktRm.evalue.toNat) := by
  unfold OneOut
  refine ⟨?_, ⟨by decide +kernel, by decide +kernel, by decide +kernel, by decide +kernel, by decide +kernel, by decide +kernel, by decide +kernel,
      allSent_of _ (by decide +kernel)⟩, by decide +kernel, by decide +kernel, by decide +kernel, by decide +kernel, by decide +kernel, by decide +kernel,
      by decide +kernel, by decide +kernel, by decide +kernel, noEventWaits_of _ (by decide +kernel), by decide +kernel⟩
  intro op h
  simp only [List.mem_cons, List.not_mem_nil, or_false] at h
  rcases h with rfl | rfl | rfl | rfl <;>
    exact ⟨by decide +kernel, by decide +kernel, by decide +kernel, ⟨by decide +kernel, by decide +kernel, by decide +kernel, by decide +kernel,
      by decide +kernel, by decide +kernel, by decide +kernel, by decide +kernel, allSent_of _ (by decide +kernel), noEventWaits_of _ (by decide +kernel),
      by decide +kernel⟩, by decide +kernel⟩

/-! ### The port -/

/-- 8 GiB of HBM with the carve-out at 4 GiB; the port is ACTIVE; the word at 64 KiB + 16 holds `v`. -/
def stateHr (v : Byte := 5) : State :=
  let s := { stateP with mem := [(65552, v)] }
  (s.rput Fld.FE_CARVEOUT_BASE_BASE 0x100000000).rput Fld.HM_CAPACITY_BYTES 0x200000000

/-- A host request for 8 bytes at an address, with its data slots. -/
def hreq (kind : Nat) (a : Nat := 65552) : HostReq :=
  let q : HostReq := { rtag := 9, addr := BitVec.ofNat 48 a, len := 7, size64 := true, data := 5 }
  { q with slots := BitVec.ofNat 5 (hostSlots kind q) }

theorem witness_HostRequests :
    (∀ kind ∈ [0, 1, 2, 3, 4, 5], HostReaches kind (hreq kind) (stateHr 5) ∧ (hreq kind).size64 = true) ∧
    ((stateHr 5).readLE 65552 8 = (hreq 5).data.toNat % 2 ^ 64 ∧ (stateHr 4).readLE 65552 8 < (hreq 5).data.toNat % 2 ^ 64 ∧
      HostReaches 5 (hreq 5) (stateHr 4)) ∧
    ∀ kind ∈ [0, 1, 2, 3, 4, 5],
      (HostArrives kind (hreq kind 0x200000000) (stateHr 5) ∧ hostPlace (stateHr 5) 0x200000000 8 = .other) ∧
      (HostArrives kind (hreq kind 0x100000008) (stateHr 5) ∧ hostPlace (stateHr 5) 0x100000008 8 = .table) ∧
      (HostArrives kind (hreq kind 65553) (stateHr 5) ∧ hostPlace (stateHr 5) 65553 8 = .hbm ∧ 65553 % hostBytes kind (hreq kind) ≠ 0) ∧
      ((stateHr 5).clocked = true ∧ (stateHr 5).ucState = 2 ∧ { hreq kind with rsv := true }.rsv = true ∧ ({ hreq kind with slots := 31 }.slots.toNat ≠ hostSlots kind (hreq kind))) ∧
      (let s := { stateHr 5 with domainStopped := true }
       s.clocked = true ∧ s.ucState = 2 ∧ s.domainStopped = true ∧ (hreq kind).rsv = false ∧ (hreq kind).slots.toNat = hostSlots kind (hreq kind) ∧
         65552 % 256 + ((hreq kind).len.toNat + 1) ≤ 256) := by
  have reach : ∀ kind ∈ [0, 1, 2, 3, 4, 5], ∀ v ∈ [(4 : Byte), 5], HostReaches kind (hreq kind) (stateHr v) := by
    intro kind hk v hv
    simp only [List.mem_cons, List.not_mem_nil, or_false] at hk hv
    rcases hk with rfl | rfl | rfl | rfl | rfl | rfl <;> rcases hv with rfl | rfl <;>
      (unfold HostReaches HostArrives LineFree
       exact ⟨by decide +kernel, by decide +kernel, by decide +kernel, noEventWaits_of _ (by decide +kernel), by decide +kernel, by decide +kernel,
         by decide +kernel, by decide +kernel⟩)
  refine ⟨fun kind hk => ⟨reach kind hk 5 (by decide), rfl⟩, ⟨by decide +kernel, by decide +kernel, reach 5 (by decide) 4 (by decide)⟩, ?_⟩
  unfold HostArrives
  decide +kernel

/-- A request of node 0's own action, or of mover 4, is out under tag 9. -/
def reqOut (src : ReqSrc) (kind : ReqKind) : DevReq := { src := src, kind := kind, stream := 0, off := 512, len := 40, started := 3 }
def nodePo : Node := { nodeOf ntFill [0, 40, 7] with waiting := 1 }
def statePo (src : ReqSrc) (kind : ReqKind) : State :=
  let s := stateN nodePo
  { s with uc := { s.uc with out := [(9, reqOut src kind)] } }

theorem witness_PortReplies :
    ((statePo (.mover 4) .read).clocked = true ∧ (statePo (.mover 4) .read).ucState = 2 ∧ SMap.find? (statePo (.mover 4) .read).uc.out 8 = none) ∧
    (∀ kind ∈ [ReqKind.write, .read], let s := statePo (.body ref0) kind
      BodyOut s 9 (reqOut (.body ref0) kind) ref0 nodePo ∧ s.uc.waiting = [] ∧ s.uc.outbox = [] ∧ s.recovering = false) ∧
    (let s := statePo (.mover 4) .read
     SMap.find? s.uc.out 9 = some (reqOut (.mover 4) .read) ∧ (reqOut (.mover 4) .read).len ≤ 256 ∧ AllSent s ∧ s.uc.waiting = [] ∧ s.uc.outbox = []) := by
  unfold BodyOut
  refine ⟨by decide +kernel, ?_, by decide +kernel, by decide +kernel, allSent_of _ (by decide +kernel), by decide +kernel⟩
  intro kind h
  simp only [List.mem_cons, List.not_mem_nil, or_false] at h
  rcases h with rfl | rfl <;>
    exact ⟨⟨by decide +kernel, by decide +kernel, by decide +kernel, by decide +kernel, by decide +kernel, by decide +kernel, by decide +kernel,
      by decide +kernel, by decide +kernel, allSent_of _ (by decide +kernel)⟩, by decide +kernel⟩

/-- The port in a state, after so many failed tries and replays. -/
def statePs (st attempts replays : Nat) : State :=
  let s := stateP.rput Fld.UC_LINK_STATUS_STATE st
  { s with uc := { s.uc with attempts := attempts, replays := replays } }

theorem witness_PortStates : ∀ e ∈ [(1, 0), (1, 11), (3, 0), (3, 2), (2, 0), (2, 8), (4, 0), (5, 0), (6, 0)], let s := statePs e.1 e.2 e.2
    s.clocked = true ∧ PortIdle s ∧ s.ucState = e.1 ∧ s.uc.attempts = e.2 ∧ s.uc.replays = e.2 := by
  intro e h
  simp only [List.mem_cons, List.not_mem_nil, or_false] at h
  rcases h with rfl | rfl | rfl | rfl | rfl | rfl | rfl | rfl | rfl <;>
    exact ⟨by decide +kernel, ⟨allSent_of _ (by decide +kernel), by decide +kernel⟩, by decide +kernel⟩

/-! ### Power and temperature -/

/-- POWER_POLICY with 700 W, or 1,000 W without LIQUID. -/
def nodePp (bad : Bool) : Node :=
  nodeOf ntPower [(if bad then 1000 else 700) + 2 ^ 12 + 2 ^ 14 * 60 + 2 ^ 21 + 2 ^ 22 * 3 + 2 ^ 29]

theorem witness_PowerPolicy : State.reset.clocked = true ∧
    (CapOk (bits (900#64).toNat 0 11) (bits (900#64).toNat 16 1) ∧ ¬ CapOk (bits (901#64).toNat 0 11) (bits (901#64).toNat 16 1)) ∧
    (bits (120#64).toNat 1 7 = 60 ∧ bits (122#64).toNat 1 7 = 61) ∧
    (∀ bad ∈ [false, true], Acting (stateN (nodePp bad)) ref0 ntPower (nodePp bad)) ∧ PolicyOk ((nodePp false).word 8) ∧ ¬ PolicyOk ((nodePp true).word 8) := by
  unfold Acting CapOk PolicyOk CapOk
  decide +kernel

/-- An epoch with 3 samples of 800 W each at a point and a duty. -/
def statePw (point : Nat) (skip : Bool := false) : State :=
  let s := State.reset.rput Fld.PM_STATUS_POINT point
  { s with pw := { s.pw with samples := 3, count := 3, sum := 2400000, skip := skip }
           cores := (List.range 4).map (fun r => (48 * r, { trays := [(0, tray0)] })) }

theorem witness_PowerLoop :
    (∀ point ∈ [0, 40], let s := statePw point
      s.clocked = true ∧ s.flag Fld.PM_STATUS_TRIP = false ∧ 0 < s.pw.samples ∧ s.pw.skip = false ∧
        above s { num := s.pw.sum + (800000#32).toNat, den := s.pw.count + 1 } 110 = true ∧ above s { num := s.pw.sum + 0, den := s.pw.count + 1 } 110 = false ∧
        0 < s.pw.count ∧ (∀ r, r < 4 → regionLent s r = false ∧ regionLends s r = false) ∧ s.flag Fld.PM_CLK_MODE_FIXED = false ∧ s.point ≤ 70 ∧
        s.pw.count * (1000 * s.rget Fld.PM_CAP_WATTS) < s.pw.sum) ∧
    (statePw 40 true).pw.skip = true := by
  decide +kernel

theorem witness_DroopAndWindows : State.reset.clocked = true ∧ (95 : Fin 96).val ∉ State.reset.pw.detOff ∧
    (∀ e ∈ (stateQueue 1).queues, e.1 < 1024) := by
  decide +kernel

/-- Sensor 5 has read 30 degrees; HOT_N is driven. -/
def stateTh : State :=
  let s := State.reset
  { s with pw := { s.pw with seen := [(5, (240, 0))] } }.rput Fld.TH_STATUS_HOT_DRIVEN 1

theorem witness_Temperature : stateTh.clocked = true ∧ (5 : Fin 64).val ∉ stateTh.pw.bad ∧
    (∀ raw ∈ [920#12, 919, 1200, 1201, 4095, 3000], ∀ v t0, SMap.find? stateTh.pw.seen (5 : Fin 64) = some (v, t0) → v ≠ raw.toNat) ∧
    signedOf 12 (920#12).toNat = 920 ∧ signedOf 12 (1201#12).toNat = 1201 ∧ signedOf 12 (3000#12).toNat < -320 ∧ signedOf 12 (4095#12).toNat = -1 ∧
    stateTh.flag Fld.PM_STATUS_TRIP = false ∧ stateTh.flag Fld.TH_STATUS_HOT_DRIVEN = true := by
  refine ⟨by decide +kernel, by decide +kernel, ?_, by decide +kernel⟩
  intro raw h v t0 e
  have : v = 240 := by
    have f : SMap.find? stateTh.pw.seen (5 : Fin 64) = some (240, 0) := by decide +kernel
    rw [f] at e
    cases e
    rfl
  subst this
  revert raw
  decide +kernel

/-! ### Faults, reset and boot -/

/-- A front end that has disagreed (5), in a mode; recovery since 200 ns. -/
def stateFa (sources mode : Nat) (fault : Bool) : State :=
  let s := (stateN { nodeOf ntTimestamp [] with stage := .acted }).rput Fld.FE_RECOVERY_SOURCES sources
  { s.rput Fld.FE_PAIR_STATUS_MODE mode with feFault := fault, recSince := some 200 }

/-- A domain reset under way: one tray on core 0, one writable range. -/
def stateDr : State := { stateP with domainStopped := true, queues := [] }

theorem witness_FaultEvents :
    (coreOffline State.reset (7 : Fin 192) = false ∧ (State.reset.core (7 : Fin 192)).sheets = []) ∧
    (let s := stateFa 0 0 false
     s.clocked = true ∧ s.rget Fld.FE_PAIR_STATUS_MODE = 0 ∧ bits (s.rget Fld.FE_RECOVERY_SOURCES) 5 1 = 0 ∧
       s.node ref0 = some { nodeOf ntTimestamp [] with stage := .acted }) ∧
    (∀ mode ∈ [0, 2], ∀ fault ∈ [false, true], let s := stateFa 32 mode fault
      bits (s.rget Fld.FE_RECOVERY_SOURCES) 5 1 = 1 ∧ s.feFault = fault ∧ s.rget Fld.FE_PAIR_STATUS_MODE = mode ∧ s.rget Fld.FE_PAIR_STATUS_MODE < 3 ∧
        s.recSince = some 200 ∧ s.flag Fld.FE_RECOVERY_OVERRUN = false) ∧
    (let s := State.reset.rput Fld.FE_RECOVERY_OVERRUN 1
     s.flag Fld.FE_RECOVERY_OVERRUN = true ∧ s.rget Fld.FE_RECOVERY_SOURCES = 0) ∧
    (stateDr.clocked = true ∧ stateDr.domainStopped = true ∧ stateDr.queues = [] ∧ (∀ j, j < 64 → jsMember stateDr j = false) ∧ stateDr.uc.held = [] ∧
      stateDr.el.waiting = [] ∧ (stateDr.tray 0 0).isSome = true ∧ stateDr.ranges.any losesContents = true) := by
  decide +kernel

/-- A device in reset by its pin, with images in the store. -/
def stateRs (pin up : Nat) (slots : SMap (List Byte) := []) : State :=
  let s := State.reset.rput Fld.MC_STATUS_RAILS_UP up
  { s with boot := { s.boot with pinLow := decide (pin = 1), held := true }, store := { s.store with slots := slots } }

/-- Valid images of every KIND in the slots A: what the free values of the checks accept (R403). -/
theorem bootable (img : Nat → List Byte) (h : ∀ k ∈ [1, 2, 3, 4], imageReason State.reset k (img k) = 0) (pin up : Nat) :
    Bootable (stateRs pin up [(2, img 1), (4, img 2), (6, img 3), (8, img 4)]) := by
  refine ⟨rfl, ?_⟩
  intro k hk
  have v := h k hk
  have e : (stateRs pin up [(2, img 1), (4, img 2), (6, img 3), (8, img 4)]).image k 0 = img k := by
    simp only [List.mem_cons, List.not_mem_nil, or_false] at hk
    rcases hk with rfl | rfl | rfl | rfl <;> rfl
  have a : (stateRs pin up [(2, img 1), (4, img 2), (6, img 3), (8, img 4)]).activeSlot k = 0 := rfl
  unfold slotValid
  rw [a, e]
  exact decide_eq_true v

/-- What an image's check reads of the state is its store. -/
theorem imageReason_congr (s t : State) (h : s.store = t.store) (k : Nat) (img : List Byte) : imageReason s k img = imageReason t k img := by
  unfold imageReason
  rw [h]

theorem bootable_congr (s t : State) (h : s.store = t.store) (b : Bootable t) : Bootable s := by
  unfold Bootable slotValid State.image State.activeSlot at *
  rw [h]
  refine ⟨b.1, fun k hk => ?_⟩
  rw [imageReason_congr s t h]
  exact b.2 k hk

theorem witness_ResetAndBoot : railsUp (stateRs 0 1) = true ∧ railsUp (stateRs 0 0) = false ∧ (stateRs 0 1).boot.bypass = false ∧
    (stateRs 0 1).boot.pinLow = false ∧ ((stateRs 1 1).boot.pinLow = true ∧ railsUp (stateRs 1 1) = true) ∧
    (∀ k b, slotValid (stateRs 1 1) k b = false) ∧
    (∀ img : Nat → List Byte, (∀ k ∈ [1, 2, 3, 4], imageReason State.reset k (img k) = 0) →
      Bootable (stateRs 1 1 [(2, img 1), (4, img 2), (6, img 3), (8, img 4)]) ∧
        Bootable (stateRs 0 0 [(2, img 1), (4, img 2), (6, img 3), (8, img 4)])) := by
  refine ⟨by decide +kernel, by decide +kernel, rfl, rfl, ⟨rfl, by decide +kernel⟩, ?_, fun img h => ⟨bootable img h 1 1, bootable img h 0 0⟩⟩
  intro k b
  have e : (stateRs 1 1).image k b = [] := rfl
  have f : ∀ k, imgFormat k [] = false := fun _ => rfl
  simp [slotValid, e, imageReason, f]

theorem witness_StrapBoot : (stateRs 1 1).boot.pinLow = true ∧ railsUp (stateRs 1 1) = true ∧
    ∀ img : Nat → List Byte, (∀ k ∈ [1, 2, 3, 4], imageReason State.reset k (img k) = 0) →
      (stateRs 1 1 [(2, img 1), (4, img 2), (6, img 3), (8, img 4)]).boot.pinLow = true ∧
        railsUp (stateRs 1 1 [(2, img 1), (4, img 2), (6, img 3), (8, img 4)]) = true ∧
        Bootable (stateRs 1 1 [(2, img 1), (4, img 2), (6, img 3), (8, img 4)]) :=
  ⟨rfl, by decide +kernel, fun img h => ⟨rfl, (by decide +kernel : railsUp (stateRs 1 1) = true), bootable img h 1 1⟩⟩

/-- A device that is up, or iced. -/
def stateUp (frozen : Nat) : State := (State.reset.rput Fld.MC_STATUS_RAILS_UP 1).rput Fld.MC_FREEZE_STATUS_FROZEN frozen

theorem witness_CalibrationAndIcing : State.reset.clocked = true ∧ bits ((State.reset.rput Fld.PM_CAL_STATUS_BUSY 4).rget Fld.PM_CAL_STATUS_BUSY) 2 1 = 1 ∧
    freezable State.reset = railsUp State.reset ∧ (∀ f ∈ [0, 1], freezable (stateUp f) = true ∧ (stateUp f).flag Fld.MC_FREEZE_STATUS_FROZEN = decide (f = 1)) ∧
    freezable { stateUp 0 with boot := { pinLow := true } } = false := by
  decide +kernel

theorem witness_ClocksStand : let s := { stateUp 1 with pending := [.add op0] }
    s.clocked = false ∧ (∀ c rest, s.pending = c :: rest → onIoRail c = false) ∧ ∃ t, step s = .next t := by
  refine ⟨by decide +kernel, ?_, _, rfl⟩
  intro c rest h
  cases h
  rfl

/-! ### Images, fuses and settings -/

/-- FW_UPDATE: operation, KIND, length of the image at 64 KiB; key slot 2. -/
def nodeFw (op kind len : Nat) : Node := nodeOf ntFw [op + 16 * kind + 2 ^ 8 * 2, 0, len] [65536]
def stateFw (op kind len : Nat) (slots : SMap (List Byte) := []) : State :=
  let s := stateN (nodeFw op kind len)
  { s with store := { s.store with slots := slots } }

theorem witness_Images :
    (∀ kind ∈ [0, 1, 4, 5], let n := nodeFw 1 kind 100
      let s := stateFw 1 kind 100
      NoStoreJobs s ∧ ActingOp s ref0 ntFw 1 n ∧ fwKind n = kind ∧ fwBad n = decide (kind = 0 ∨ 4 < kind) ∧ isHost 65536 = false ∧
        s.extentPoisoned 65536 100 = false ∧ ∀ l ∈ linesOf 65536 100, channelRead s l = some s) ∧
    (let n := nodeFw 1 1 12289
     ActingOp (stateFw 1 1 12289) ref0 ntFw 1 n ∧ fwBad n = false ∧ slotBytes 1 < bits (n.word 10) 0 32) ∧
    (∀ kind ∈ [0, 2], ActingOp (stateFw 2 kind 0) ref0 ntFw 2 (nodeFw 2 kind 0) ∧ fwBad (nodeFw 2 kind 0) = decide (kind = 0)) ∧
    slotValid (stateFw 2 2 0) 2 (1 - (stateFw 2 2 0).activeSlot 2) = false ∧
    (∀ img : List Byte, imageReason State.reset 2 img = 0 → let s := stateFw 2 2 0 [(5, img)]
      ActingOp s ref0 ntFw 2 (nodeFw 2 2 0) ∧ slotValid s 2 (1 - s.activeSlot 2) = true) ∧
    (∀ kind ∈ [2, 3], let n : Node := { nodeFw 2 kind 0 with stage := .acted }
      let s := { stateN n with sp := { switching := some { node := ref0, kind := kind, was := 1 } } }
      s.clocked = true ∧ NoStoreJobs s ∧ switchOpen s = some { node := ref0, kind := kind, was := 1 } ∧ s.node ref0 = some n) := by
  unfold ActingOp NoStoreJobs
  refine ⟨by decide +kernel, by decide +kernel, by decide +kernel, by decide +kernel, ?_, by decide +kernel⟩
  intro img h
  have k : (stateFw 2 2 0 [(5, img)]).image 2 1 = img := rfl
  have b : 1 - (stateFw 2 2 0 [(5, img)]).activeSlot 2 = 1 := rfl
  refine ⟨⟨(by decide +kernel : (stateFw 2 2 0).clocked = true), (by decide +kernel : actOp (stateFw 2 2 0) ref0 ntFw 2 = some (nodeFw 2 2 0))⟩, ?_⟩
  show slotValid (stateFw 2 2 0 [(5, img)]) 2 (1 - (stateFw 2 2 0 [(5, img)]).activeSlot 2) = true
  rw [b]
  unfold slotValid
  rw [k]
  exact decide_eq_true h

theorem witness_FusesAndReports :
    (let n := nodeFw 3 2 0
     NoStoreJobs (stateFw 3 2 0) ∧ ActingOp (stateFw 3 2 0) ref0 ntFw 3 n ∧ fwBad n = false) ∧
    (∀ key ∈ [2, 3], let s := stateFw 4 2 0 [(4, List.replicate 5 0 ++ [BitVec.ofNat 8 key])]
      ActingOp s ref0 ntFw 4 (nodeFw 4 2 0) ∧ bits ((nodeFw 4 2 0).word 8) 8 2 = 2 ∧ s.store.slots.map (fun e => imgKeySlot e.2) = [key]) ∧
    (∀ m ∈ [0, 32768], let n := nodeFw 5 0 0
      let s := { stateN n with store := { middle := m } }
      ActingOp s ref0 ntFw 5 n ∧ n.waiting = 0 ∧ ((nextLeaf s).isSome = decide (m = 0)) ∧ bits (n.word 8) 7 1 = 0 ∧ isHost 65536 = false ∧ s.memWf = true) ∧
    NoEventWaits { stateN (nodeFw 5 0 0) with store := { middle := 0 } } := by
  unfold ActingOp NoStoreJobs
  exact ⟨by decide +kernel, by decide +kernel, by decide +kernel, noEventWaits_of _ (by decide +kernel)⟩

/-- STORE_SETTINGS or REVERT after so many commits, with a commit under way where `job`. -/
def nodeSs (op : Nat) : Node := nodeOf ntSettings [op]
def stateSs (op commits : Nat) (job : Bool) : State :=
  let s := stateN (nodeSs op)
  { s with store := { s.store with commits := commits, last := 1 }, sp := { s.sp with job := if job then some ({ seq := 7 }, some ref0) else none } }

theorem witness_SettingsStore :
    (∀ c ∈ [0, 99999, 100000], let s := stateSs 1 c false
      NoStoreJobs s ∧ ActingOp s ref0 ntSettings 1 (nodeSs 1) ∧ s.sp.job = none ∧ s.store.commits = c ∧ s.store.last ≤ 1) ∧
    (∀ c ∈ [0, 99999], let s := stateSs 1 c true
      NoStoreJobs s ∧ ActingOp s ref0 ntSettings 1 (nodeSs 1) ∧ s.sp.job = some ({ seq := 7 }, some ref0) ∧ s.node ref0 = some (nodeSs 1) ∧
        (nodeSs 1).stage = .running ∧ (nodeSs 1).aborting = false ∧ s.store.last ≤ 1) ∧
    (NoStoreJobs (stateSs 2 0 false) ∧ ActingOp (stateSs 2 0 false) ref0 ntSettings 2 (nodeSs 2) ∧
      (persistentRegs.any (fun x => (x.unit, x.index) == (8, 7) && writeLegal x (committed (stateSs 2 0 false) x))) = true) := by
  unfold ActingOp NoStoreJobs
  decide +kernel

/-! ### The management chain, the TAP, and the machine -/

/-- A frame of a command with good codes; this stage's address is 9. -/
def frameOf (cmd addr arg data : Nat) : Frame :=
  let f : Frame := { addr := BitVec.ofNat 8 addr, cmd := BitVec.ofNat 4 cmd, arg := BitVec.ofNat 32 arg, data := BitVec.ofNat 64 data }
  { f with hcrc := hcrcOf f, dcrc := dcrcOf f }
def stateMc : State := { ((stateP.rput Fld.MC_STATUS_RAILS_UP 1).rput Fld.MC_STATUS_ADDR 9) with queues := [] }
def stateBy : State := { stateMc with boot := { bypass := true } }
def badData (f : Frame) : Frame := { f with dcrc := f.dcrc + 1 }

theorem witness_ChainFrames :
    (∀ c ∈ [0, 1, 2, 3, 4, 5, 6, 7, 8, 9],
      (stateBy.boot.bypass = true ∧ (frameOf c 9 0 0).cmd = BitVec.ofNat 4 c) ∧
      (stateMc.boot.bypass = false ∧ { frameOf c 9 0 0 with hcrc := (frameOf c 9 0 0).hcrc + 1 }.hcrc ≠ hcrcOf (frameOf c 9 0 0)) ∧
      (∀ a ∈ [0, 8], FrameWhole stateMc c (frameOf c a 0 0) ∧ (frameOf c a 0 0).addr ≠ 255 ∧
        ((frameOf c a 0 0).addr = 0 ∨ (frameOf c a 0 0).addr.toNat ≠ stateMc.rget Fld.MC_STATUS_ADDR))) ∧
    FrameForMe stateMc 0 (frameOf 0 9 0 0) ∧
    (∀ n ∈ [1, 254, 255], FrameWhole stateMc 1 (frameOf 1 255 n 0) ∧ (frameOf 1 255 n 0).addr = 255 ∧ bits (frameOf 1 255 n 0).arg.toNat 0 8 = n) ∧
    (∀ off ∈ [regOffset 10 0 0, regOffset 8 0 7], FrameForMe stateMc 2 (frameOf 2 9 off 0) ∧
      (regNamed (frameOf 2 9 off 0).arg.toNat).any (fun x => reaches stateMc x && !isScanData x) = true) ∧
    (FrameForMe stateMc 3 (badData (frameOf 3 9 4 0)) ∧ (badData (frameOf 3 9 4 0)).dcrc ≠ dcrcOf (badData (frameOf 3 9 4 0)) ∧
      FrameForMe stateMc 3 (frameOf 3 9 4 0) ∧ (frameOf 3 9 4 0).dcrc = dcrcOf (frameOf 3 9 4 0) ∧ regNamed (frameOf 3 9 4 0).arg.toNat = none) ∧
    (let f := frameOf 3 9 (regOffset 8 0 7) 12
     FrameForMe stateMc 3 f ∧ f.dcrc = dcrcOf f ∧ (∃ x, regNamed f.arg.toNat = some x ∧ PlainWrite x ∧ x.gated stateMc = false ∧
       writeLegal x f.data.toNat = true) ∧ railsUp stateMc = true ∧ stateMc.flag Fld.MC_FREEZE_STATUS_FROZEN = false ∧ stateMc.boot.held = false) ∧
    (FrameForMe stateMc 4 (frameOf 4 9 0 0) ∧ (regNamed (regOffset 10 0 0)).isSome = true) := by
  unfold FrameForMe FrameWhole PlainWrite
  exact ⟨by decide +kernel, by decide +kernel, by decide +kernel, by decide +kernel, by decide +kernel,
    ⟨by decide +kernel, by decide +kernel, ⟨_, rfl, by decide +kernel⟩, by decide +kernel⟩, by decide +kernel⟩

/-- A device up whose reset pin is low. -/
def stateLo : State := { stateMc with boot := { pinLow := true } }
/-- An iced one; and one that waits for image KIND 1 and 2, with what a recovery buffer holds. -/
def stateIc : State := stateMc.rput Fld.MC_FREEZE_STATUS_FROZEN 1
def stateRv (buf : SMap (BitVec 64)) : State :=
  let s := (stateMc.rput Fld.SP_BOOT_STATUS_STAGE 15).rput Fld.SP_BOOT_STATUS_RECOVERY_KINDS 3
  { s with chain := { s.chain with buf := buf } }

/-- A frame reaches a stage by the stage's registers and bypass. -/
theorem frameForMe_congr (s t : State) (b : s.boot.bypass = t.boot.bypass) (r : s.regs = t.regs) (c : Nat) (f : Frame) :
    FrameForMe t c f → FrameForMe s c f := by
  unfold FrameForMe FrameWhole State.rget State.regWord
  rw [b, r]
  exact id

theorem witness_ChainActions :
    (FrameForMe stateMc 5 (frameOf 5 9 0 0) ∧ freezable stateMc = true ∧ stateMc.flag Fld.MC_FREEZE_STATUS_FROZEN = false ∧
      FrameForMe stateLo 5 (frameOf 5 9 0 0) ∧ freezable stateLo = false) ∧
    (FrameForMe stateLo 6 (frameOf 6 9 0 0) ∧ stateLo.boot.pinLow = true ∧ FrameForMe stateMc 6 (frameOf 6 9 0 0) ∧ stateMc.boot.pinLow = false ∧
      railsUp stateMc = true) ∧
    (∀ img : Nat → List Byte, (∀ k ∈ [1, 2, 3, 4], imageReason State.reset k (img k) = 0) →
      FrameForMe { stateRs 0 1 [(2, img 1), (4, img 2), (6, img 3), (8, img 4)] with regs := stateMc.regs } 6 (frameOf 6 9 0 0) ∧
        Bootable { stateRs 0 1 [(2, img 1), (4, img 2), (6, img 3), (8, img 4)] with regs := stateMc.regs }) ∧
    (FrameForMe stateIc 7 (frameOf 7 9 0 0) ∧ spRuns stateIc = false ∧ FrameForMe stateMc 7 (frameOf 7 9 0 0) ∧ spRuns stateMc = true ∧
      stateMc.sp.job = none ∧ stateMc.el.ops = [] ∧ stateMc.queues = [] ∧ PortIdle stateMc ∧ stateMc.ucState = 2) ∧
    (FrameForMe stateMc 8 (badData (frameOf 8 9 5 7)) ∧ (badData (frameOf 8 9 5 7)).dcrc ≠ dcrcOf (badData (frameOf 8 9 5 7)) ∧
      (∀ a ∈ [5, 8191, 8192], FrameForMe stateMc 8 (frameOf 8 9 a 7) ∧ (frameOf 8 9 a 7).dcrc = dcrcOf (frameOf 8 9 a 7) ∧
        (frameOf 8 9 a 7).arg.toNat = a)) ∧
    (∀ k ∈ [0, 1, 4, 5], FrameForMe stateMc 9 (frameOf 9 9 k 0) ∧ bits (frameOf 9 9 k 0).arg.toNat 0 3 = k) ∧
    (StoreFree stateMc ∧ stateMc.rget Fld.SP_BOOT_STATUS_STAGE ≠ 15) ∧
    (∀ buf, imageReason State.reset 1 (bufferImage (stateRv buf)) = 0 → (bufferImage (stateRv buf)).length ≤ slotBytes 1 →
      FrameForMe (stateRv buf) 9 (frameOf 9 9 1 0) ∧ spRuns (stateRv buf) = true ∧ (stateRv buf).rget Fld.SP_BOOT_STATUS_STAGE = 15 ∧
        (if slotBytes 1 < (bufferImage (stateRv buf)).length then 6 else imageReason (stateRv buf) 1 (bufferImage (stateRv buf))) = 0 ∧
        (stateRv buf).rget Fld.SP_BOOT_STATUS_RECOVERY_KINDS - bits ((stateRv buf).rget Fld.SP_BOOT_STATUS_RECOVERY_KINDS) 0 1 * 1 ≠ 0) := by
  refine ⟨?_, ?_, ?_, ?_, ?_, ?_, ?_, ?_⟩
  · unfold FrameForMe FrameWhole
    decide +kernel
  · unfold FrameForMe FrameWhole
    decide +kernel
  · intro img h
    have f : FrameForMe stateMc 6 (frameOf 6 9 0 0) := by
      unfold FrameForMe FrameWhole
      decide +kernel
    have b := bootable img h 0 1
    generalize [(2, img 1), (4, img 2), (6, img 3), (8, img 4)] = m at b ⊢
    refine ⟨?_, bootable_congr _ (stateRs 0 1 m) (by simp only) b⟩
    exact frameForMe_congr _ stateMc (by simp only; rfl) (by simp only) _ _ f
  · unfold FrameForMe FrameWhole PortIdle
    exact ⟨by decide +kernel, by decide +kernel, by decide +kernel, by decide +kernel, by decide +kernel, by decide +kernel, by decide +kernel,
      ⟨allSent_of _ (by decide +kernel), by decide +kernel⟩, by decide +kernel⟩
  · unfold FrameForMe FrameWhole
    decide +kernel
  · unfold FrameForMe FrameWhole
    decide +kernel
  · unfold StoreFree
    decide +kernel
  · intro buf h l
    refine ⟨(by unfold FrameForMe FrameWhole; decide +kernel : FrameForMe (stateRv []) 9 (frameOf 9 9 1 0)), (by decide +kernel : spRuns (stateRv []) = true),
      (by decide +kernel : (stateRv []).rget Fld.SP_BOOT_STATUS_STAGE = 15), ?_,
      (by decide +kernel : (stateRv []).rget Fld.SP_BOOT_STATUS_RECOVERY_KINDS - bits ((stateRv []).rget Fld.SP_BOOT_STATUS_RECOVERY_KINDS) 0 1 * 1 ≠ 0)⟩
    rw [if_neg (by omega), imageReason_congr (stateRv buf) State.reset rfl]
    exact h

theorem witness_TestAccessPort : stateBy.boot.bypass = true ∧ stateMc.boot.bypass = false ∧ freezable stateMc = true ∧
    stateMc.flag Fld.MC_FREEZE_STATUS_FROZEN = false ∧ freezable stateLo = false ∧ stateIc.flag Fld.MC_FREEZE_STATUS_FROZEN = true ∧
    stateIc.boot.bypass = false ∧ { stateIc with chain := { reader := some false } }.chain.reader = some false ∧
    (bits (9#64).toNat 0 4 ≤ 9 ∧ stateIc.rget Fld.MC_SCAN_STATUS_UNCORRECTABLE = 0) := by
  decide +kernel

theorem witness_StepRunsFront : { State.reset with pending := [.idcode, .bypass] }.pending = [.idcode, .bypass] ∧
    (stateUp 1).pending = [] ∧ (stateUp 1).clocked = false ∧ State.reset.pending = [] ∧ State.reset.clocked = true ∧
    State.reset.nowFrac < 2 ^ 32 ∧ State.reset.now + 2 < 2 ^ 64 := by
  decide +kernel

theorem witness_TrayRoundTrip : (trayCode (.add opR)).isSome = true ∧ (trayCode (.fadd opR)).isSome = true := by decide +kernel

theorem witness_RoundNearest : ∀ f ∈ [fp64, fp32, bf16, fp16], f.roundMag 3 (-1) false < f.infBits ∧ 1 < f.infBits := by decide +kernel

theorem witness_RateOfMachineTime : State.reset.nowFrac < 2 ^ 32 ∧ State.reset.now + 2 < 2 ^ 64 := by decide +kernel

/-! ### Small tests, from the spec's own encodings and tables -/

-- R36, R268, R356: after reset machine time is unset, queue 0 is ACTIVE, and the port is in reset
theorem test_reset : State.reset.mtState = 0 ∧ State.reset.qState 0 = 1 ∧ State.reset.ucState = 0 ∧ State.reset.pending = [] := by decide +kernel

-- R433: IDCODE is 64000A6Bh
theorem test_idcode : (match step { State.reset with pending := [.idcode] } with
    | .next t => decide (t.sent = [.tap 0x64000A6B] ∧ t.pending = [])
    | _ => false) = true := by decide +kernel

-- the host's questions: no row gives bits
theorem test_noWords : decodeTableWord 0 0 = none ∧ State.withFetchWord State.reset 0 0 = State.reset := by decide +kernel

-- R420: the code of a header of zeros is zero, and that of a single last bit is the polynomial's remainder
theorem test_crc : crc8 (List.replicate 44 false) = 0 ∧ crc8 [true] = 7 ∧ crc8 [true, false] = 14 := by decide +kernel

end Sys2Proof.Tests
end

section
/-!
Proofs of the statement about register accesses (R9 to R13) and the query packets (R266, R285), O29: what a fold over the fields of a
register does to its bits, what a read and a write of a register do, and how a packet that passes its checks is answered.
-/
open Sys2Proof Sys2Proof.Machine Sys2Proof.Claims

namespace Sys2Proof.Proofs.RegisterAccess

/-! ### The fields of a word -/

/-- The field's bits. -/
def Covers (f : FieldDef) (i : Nat) : Prop := f.lo ≤ i ∧ i < f.lo + f.len

/-- The two fields share no bit. -/
abbrev Apart (f g : FieldDef) : Prop := f.lo + f.len ≤ g.lo ∨ g.lo + g.len ≤ f.lo

theorem Apart.not_covers {f g : FieldDef} {i : Nat} (h : Apart f g) (hg : Covers g i) : ¬Covers f i := by
  unfold Covers at *
  omega

theorem not_covers_iff (f : FieldDef) (i : Nat) : ¬Covers f i ↔ i < f.lo ∨ f.lo + f.len ≤ i := by
  unfold Covers
  omega

/-- A field of a number replaced: the field holds the new value, and every other bit is as before. -/
theorem testBit_replace (w lo len x i : Nat) (hx : x < 2 ^ len) :
    (w - bits w lo len * 2 ^ lo + x * 2 ^ lo).testBit i =
      if lo ≤ i ∧ i < lo + len then x.testBit (i - lo) else w.testBit i := by
  have hb : bits w lo len = w / 2 ^ lo % 2 ^ len := by simp [bits, Nat.shiftRight_eq_div_pow]
  have hw : w = w % 2 ^ lo + 2 ^ lo * (w / 2 ^ lo % 2 ^ len) + 2 ^ lo * (2 ^ len * (w / 2 ^ (lo + len))) := by
    rw [Nat.pow_add, ← Nat.div_div_eq_div_mul, Nat.add_assoc, ← Nat.mul_add, Nat.mod_add_div, Nat.mod_add_div]
  have hsplit : w - bits w lo len * 2 ^ lo + x * 2 ^ lo =
      2 ^ lo * (2 ^ len * (w / 2 ^ (lo + len)) + x) + w % 2 ^ lo := by
    rw [hb, Nat.mul_comm _ (2 ^ lo), Nat.mul_comm x, Nat.mul_add]
    omega
  rw [hsplit, Nat.testBit_two_pow_mul_add _ (Nat.mod_lt _ (Nat.two_pow_pos lo))]
  by_cases below : i < lo
  · have outside : ¬(lo ≤ i ∧ i < lo + len) := by omega
    rw [if_pos below, if_neg outside, Nat.testBit_mod_two_pow]
    simp [below]
  · rw [if_neg below, Nat.testBit_two_pow_mul_add _ hx]
    by_cases inside : i - lo < len
    · rw [if_pos inside, if_pos (by omega)]
    · rw [if_neg inside, if_neg (by omega), Nat.testBit_div_two_pow, show i - lo - len + (lo + len) = i by omega]

/-- Clearing a field. -/
theorem testBit_clear (w lo len i : Nat) :
    (w - bits w lo len * 2 ^ lo).testBit i = if lo ≤ i ∧ i < lo + len then false else w.testBit i := by
  simpa using testBit_replace w lo len 0 i (Nat.two_pow_pos len)

/-- Adding a field to a number whose bits there are zero. -/
theorem testBit_add_field (v w lo len i : Nat) (h : ∀ j, lo ≤ j ∧ j < lo + len → v.testBit j = false) :
    (v + bits w lo len * 2 ^ lo).testBit i = if lo ≤ i ∧ i < lo + len then w.testBit i else v.testBit i := by
  have zero : bits v lo len = 0 := by
    refine Nat.eq_of_testBit_eq fun j => ?_
    rw [bits_testBit, Nat.zero_testBit]
    by_cases hj : j < len
    · simp [h (lo + j) (by omega)]
    · simp [hj]
  have r := testBit_replace v lo len (bits w lo len) i (bits_lt w lo len)
  rw [zero, Nat.zero_mul, Nat.sub_zero] at r
  rw [r]
  refine ite_congr rfl (fun hi => ?_) (fun _ => rfl)
  rw [bits_testBit, show lo + (i - lo) = i by omega]
  simp [show i - lo < len by omega]

/-- A fold over fields that lie apart, each step of which gives its own field the bits `new` and leaves the others, gives every field
its new bits and leaves the bits of no field. A step may rely on its field being as it was at first. -/
theorem testBit_foldl_fields {step : Nat → FieldDef → Nat} {new : FieldDef → Nat → Bool} {fs : List FieldDef} {w₀ : Nat}
    (hstep : ∀ w f, (∀ j, Covers f j → w.testBit j = w₀.testBit j) →
      (∀ i, Covers f i → (step w f).testBit i = new f i) ∧ ∀ i, ¬Covers f i → (step w f).testBit i = w.testBit i)
    (apart : fs.Pairwise Apart) :
    (∀ f ∈ fs, ∀ i, Covers f i → (fs.foldl step w₀).testBit i = new f i) ∧
      ∀ i, (∀ f ∈ fs, ¬Covers f i) → (fs.foldl step w₀).testBit i = w₀.testBit i := by
  suffices general : ∀ w, (∀ f ∈ fs, ∀ j, Covers f j → w.testBit j = w₀.testBit j) →
      (∀ f ∈ fs, ∀ i, Covers f i → (fs.foldl step w).testBit i = new f i) ∧
        ∀ i, (∀ f ∈ fs, ¬Covers f i) → (fs.foldl step w).testBit i = w.testBit i from
    general w₀ fun _ _ _ _ => rfl
  induction fs with
  | nil => exact fun w _ => ⟨by simp, fun _ _ => rfl⟩
  | cons f fs ih =>
    intro w hw
    obtain ⟨hf, hfs⟩ := List.pairwise_cons.mp apart
    obtain ⟨inside, outside⟩ := hstep w f (hw f (by simp))
    have later : ∀ g ∈ fs, ∀ j, Covers g j → (step w f).testBit j = w₀.testBit j := fun g hg j hj =>
      (outside j ((hf g hg).not_covers hj)).trans (hw g (by simp [hg]) j hj)
    obtain ⟨ihIn, ihOut⟩ := ih hfs (step w f) later
    refine ⟨fun g hg i hi => ?_, fun i hi => ?_⟩
    · rcases List.mem_cons.mp hg with rfl | hg
      · exact (ihOut i fun k hk hki => (hf k hk).not_covers hki hi).trans (inside i hi)
      · exact ihIn g hg i hi
    · exact (ihOut i fun g hg => hi g (by simp [hg])).trans (outside i (hi f (by simp)))

/-! ### The register table -/

/-- The fields of a register lie apart and inside its 64 bits. -/
def WellPlaced (fs : List FieldDef) : Prop := fs.Pairwise Apart ∧ ∀ f ∈ fs, f.lo + f.len ≤ 64

theorem wellPlaced_of_table : ∀ u < 32, ∀ m ∈ regsOfUnit u, WellPlaced m.fields := by
  unfold WellPlaced
  decide +kernel

/-- What an offset names is a register of the table, and its unit, its place among that unit's copies and its INDEX fit their parts of
the offset (R10). -/
theorem regNamed_spec {off : Nat} {x : RegName} (h : regNamed off = some x) :
    x.map ∈ regsOfUnit x.unit ∧ x.unit < 32 ∧ x.inst < 4096 ∧ x.index < 4096 := by
  unfold regNamed at h
  dsimp only at h
  split at h
  · cases h
  · split at h
    · cases h
    · rename_i m hm
      split at h
      · cases h
        exact ⟨List.mem_of_find?_eq_some hm, bits_lt _ 27 5, bits_lt _ 15 12, bits_lt _ 3 12⟩
      · cases h

theorem wellPlaced_of_regNamed {off : Nat} {x : RegName} (h : regNamed off = some x) : WellPlaced x.map.fields := by
  obtain ⟨hm, hu, -, -⟩ := regNamed_spec h
  exact wellPlaced_of_table x.unit hu x.map hm

/-! ### What the access codes make of a word (R9, R11) -/

/-- The bits of a field, counted from its lowest. -/
theorem testBit_field {f : FieldDef} {i : Nat} (v : Nat) (hi : Covers f i) : (bits v f.lo f.len).testBit (i - f.lo) = v.testBit i := by
  obtain ⟨lower, upper⟩ := hi
  rw [bits_testBit, show f.lo + (i - f.lo) = i by omega]
  simp [show i - f.lo < f.len by omega]

/-- A field replaced by a value whose bits are `new`: one step of a write. -/
theorem replace_step {f : FieldDef} {w x : Nat} {new : Nat → Bool} (hx : x < 2 ^ f.len)
    (hnew : ∀ i, Covers f i → x.testBit (i - f.lo) = new i) :
    let w' := w - bits w f.lo f.len * 2 ^ f.lo + x * 2 ^ f.lo
    (∀ i, Covers f i → w'.testBit i = new i) ∧ ∀ i, ¬Covers f i → w'.testBit i = w.testBit i :=
  ⟨fun i hi => ((testBit_replace w _ _ x i hx).trans (if_pos hi)).trans (hnew i hi),
   fun i hi => (testBit_replace w _ _ x i hx).trans (if_neg hi)⟩

/-- R11: every field of the written word by its access code, and every reserved bit as before. -/
theorem testBit_written (x : RegName) (kernel : Bool) (old v : Nat) (hx : WellPlaced x.map.fields) :
    (∀ f ∈ x.map.fields, ∀ i, Covers f i →
      (x.written kernel old v).testBit i = writtenBit f.acc kernel (old.testBit i) (v.testBit i)) ∧
    ∀ i, (∀ f ∈ x.map.fields, ¬Covers f i) → (x.written kernel old v).testBit i = old.testBit i := by
  refine testBit_foldl_fields (new := fun f i => writtenBit f.acc kernel (old.testBit i) (v.testBit i)) ?_ hx.1
  rintro w ⟨lo, len, acc⟩ same
  have put := replace_step (f := ⟨lo, len, acc⟩) (w := w) (bits_lt v lo len) fun i hi => testBit_field v hi
  cases acc with
  | ro | rc => exact ⟨same, fun _ _ => rfl⟩
  | rw | wo => exact put
  | w1c =>
    refine replace_step (Nat.and_lt_two_pow _ (Nat.xor_lt_two_pow (bits_lt w lo len) (bits_lt v lo len))) fun i hi => ?_
    rw [Nat.testBit_and, Nat.testBit_xor, testBit_field w hi, testBit_field v hi, same i hi]
    cases old.testBit i <;> simp [writtenBit]
  | w1s =>
    refine replace_step (Nat.or_lt_two_pow (bits_lt w lo len) (bits_lt v lo len)) fun i hi => ?_
    rw [Nat.testBit_or, testBit_field w hi, testBit_field v hi, same i hi]
    rfl
  | krw =>
    cases kernel with
    | false => exact ⟨same, fun _ _ => rfl⟩
    | true => exact put

/-- R9, R11: a read shows every field that is not WO, and zero elsewhere. -/
theorem testBit_shown (x : RegName) (w : Nat) (hx : WellPlaced x.map.fields) :
    (∀ f ∈ x.map.fields, ∀ i, Covers f i → (x.shown w).testBit i = (decide (f.acc ≠ .wo) && w.testBit i)) ∧
      ∀ i, (∀ f ∈ x.map.fields, ¬Covers f i) → (x.shown w).testBit i = false := by
  refine (testBit_foldl_fields (w₀ := 0) (new := fun f i => decide (f.acc ≠ .wo) && w.testBit i) ?_ hx.1).imp_right
    fun outside i hi => (outside i hi).trans (Nat.zero_testBit i)
  rintro v ⟨lo, len, acc⟩ clear
  have added : ∀ i, (v + bits w lo len * 2 ^ lo).testBit i = if lo ≤ i ∧ i < lo + len then w.testBit i else v.testBit i :=
    fun i => testBit_add_field v w lo len i fun j hj => (clear j hj).trans (Nat.zero_testBit j)
  cases acc with
  | wo => exact ⟨fun i hi => by simpa using clear i hi, fun _ _ => rfl⟩
  | ro | rw | w1c | w1s | rc | krw =>
    exact ⟨fun i hi => by simpa using (added i).trans (if_pos hi), fun i hi => (added i).trans (if_neg hi)⟩

/-- R11, R12: a read clears the RC fields and nothing else. -/
theorem testBit_afterRead (x : RegName) (w : Nat) (hx : WellPlaced x.map.fields) :
    (∀ f ∈ x.map.fields, ∀ i, Covers f i → (x.afterRead w).testBit i = (decide (f.acc ≠ .rc) && w.testBit i)) ∧
      ∀ i, (∀ f ∈ x.map.fields, ¬Covers f i) → (x.afterRead w).testBit i = w.testBit i := by
  refine testBit_foldl_fields (new := fun f i => decide (f.acc ≠ .rc) && w.testBit i) ?_ hx.1
  rintro v ⟨lo, len, acc⟩ same
  have cleared := testBit_clear v lo len
  cases acc with
  | rc => exact ⟨fun i hi => by simpa using (cleared i).trans (if_pos hi), fun i hi => (cleared i).trans (if_neg hi)⟩
  | ro | rw | w1c | w1s | wo | krw => exact ⟨fun i hi => by simpa using same i hi, fun _ _ => rfl⟩

/-! ### One register of the state -/

theorem raw_congr {s t : State} (x : RegName) (h : t.regs = s.regs) : x.raw t = x.raw s := by
  unfold RegName.raw
  rw [h]

theorem raw_lt (s : State) (x : RegName) : x.raw s < 2 ^ 64 := BitVec.isLt _

theorem raw_setRaw_same (s : State) (x : RegName) (v : Nat) : x.raw (x.setRaw s v) = v % 2 ^ 64 := by
  simp [RegName.raw, RegName.setRaw]

theorem raw_setRaw_other (s : State) (x y : RegName) (v : Nat) (h : y.offset ≠ x.offset) : y.raw (x.setRaw s v) = y.raw s := by
  simp [RegName.raw, RegName.setRaw, h]

/-- The bits of a register whose word was set: those of the value where a field lies. -/
theorem testBit_raw_setRaw_field {s : State} {x : RegName} {v i : Nat} {f : FieldDef} (hx : WellPlaced x.map.fields)
    (hf : f ∈ x.map.fields) (hi : Covers f i) : (x.raw (x.setRaw s v)).testBit i = v.testBit i := by
  have inWord : i < 64 := Nat.lt_of_lt_of_le hi.2 (hx.2 f hf)
  rw [raw_setRaw_same, Nat.testBit_mod_two_pow]
  simp [inWord]

/-- A reserved bit that the value leaves as it was is as it was. -/
theorem testBit_raw_setRaw_kept {s : State} {x : RegName} {v i : Nat} (h : v.testBit i = (x.raw s).testBit i) :
    (x.raw (x.setRaw s v)).testBit i = (x.raw s).testBit i := by
  rw [raw_setRaw_same, Nat.testBit_mod_two_pow, h]
  by_cases inWord : i < 64
  · simp [inWord]
  · simp [Nat.testBit_lt_two_pow (Nat.lt_of_lt_of_le (raw_lt s x) (Nat.pow_le_pow_right Nat.two_pos (Nat.le_of_not_lt inWord)))]

/-! ### Reads and writes (R9 to R13) -/

/-- A read changes registers, the counts of the selected channel, and the count of reads. -/
theorem regRead_frame (s : State) (x : RegName) :
    ∃ r c, (regRead s x).1 = { s with reads := s.reads + 1, regs := r, channels := c } := by
  unfold regRead
  dsimp only
  split
  · exact ⟨_, _, rfl⟩
  · split
    · exact ⟨_, _, rfl⟩
    · split
      · exact ⟨_, _, rfl⟩
      · exact ⟨_, _, rfl⟩

@[simp] theorem regRead_mem (s : State) (x : RegName) : (regRead s x).1.mem = s.mem := by
  obtain ⟨r, c, frame⟩ := regRead_frame s x
  rw [frame]

@[simp] theorem regRead_sent (s : State) (x : RegName) : (regRead s x).1.sent = s.sent := by
  obtain ⟨r, c, frame⟩ := regRead_frame s x
  rw [frame]

/-- A read of a register that answers, the scan window apart. -/
theorem regRead_open (s : State) (x : RegName) (hg : x.gated s = false) (hscan : ¬(x.unit = 10 ∧ x.index = 5)) :
    (regRead s x).2 = x.shown (regShow { s with reads := s.reads + 1 } x) ∧
      (regRead s x).1.regs = (x.setRaw s (x.afterRead (x.raw s))).regs := by
  have reachable : x.gated { s with reads := s.reads + 1 } = false := hg
  unfold regRead
  simp only [reachable, Bool.false_eq_true, if_false, if_neg hscan]
  split
  · exact ⟨rfl, rfl⟩
  · exact ⟨rfl, rfl⟩

/-- A write that nothing forbids, of a register without an action of its own, stores its fields. -/
theorem regAct_plain (s : State) (x : RegName) (kernel : Bool) (v : Nat) (h : PlainWrite x) :
    regAct s x kernel v = (x.setRaw s (x.written kernel (x.raw s) v), stOk) := by
  obtain ⟨unlisted, notPart⟩ := h
  unfold regAct
  split
  case h_16 => exact if_neg (by omega)
  case h_17 => rfl
  -- a register with an action of its own is on the list
  all_goals simp_all

theorem regWrite_privilege (s : State) (x : RegName) (v : Nat) (h : x.hasKrw = true) :
    regWrite s x false v = (s, stPrivilege) := by
  have refused : regPut s x false v = (s, stPrivilege) := by simp [regPut, h]
  simp [regWrite, refused, stPrivilege, stOk]

theorem regWrite_outOfRange (s : State) (x : RegName) (kernel : Bool) (v : Nat) (hk : x.hasKrw = false ∨ kernel = true)
    (hg : x.gated s = false) (hv : writeLegal x v = false) : regWrite s x kernel v = (s, stInvalidArgument) := by
  have refused : regPut s x kernel v = (s, stInvalidArgument) := by
    rcases hk with hk | hk <;> simp [regPut, hk, hg, hv]
  simp [regWrite, refused, stInvalidArgument, stOk]

theorem regWrite_plain (s : State) (x : RegName) (kernel : Bool) (v : Nat) (hk : x.hasKrw = false ∨ kernel = true)
    (hg : x.gated s = false) (hv : writeLegal x v = true) (hx : PlainWrite x) :
    regWrite s x kernel v = (x.setRaw s (x.written kernel (x.raw s) v), stOk) := by
  have stored : regPut s x kernel v = (x.setRaw s (x.written kernel (x.raw s) v), stOk) := by
    rcases hk with hk | hk <;> simp [regPut, hk, hg, hv, regAct_plain s x _ v hx]
  have notSettings : ¬(x.unit = 12 ∧ x.index = 1) := fun ⟨hu, hi⟩ => hx.1 (by simp [hu, hi])
  unfold regWrite
  dsimp only
  rw [stored, if_neg fun ⟨hu, hi, _⟩ => notSettings ⟨hu, hi⟩]

/-! ### The commands that read and write by offset -/

theorem exec_rcFieldRead (s : State) (off : BitVec 32) (h : s.clocked = true) :
    exec (.rcFieldRead off) s = .next (s.beside (readAt s off.toNat)) := by
  rw [← onClock_running s _ h]
  rfl

theorem exec_registerWrite (s : State) (kernel : Bool) (off : BitVec 32) (v : Word) (h : s.clocked = true) :
    exec (.registerWrite kernel off v) s = .next (s.beside (writeAt s off.toNat kernel v.toNat)) := by
  rw [← onClock_running s _ h]
  rfl

theorem readAt_unnamed (s : State) (off : Nat) (h : regNamed off = none) : readAt s off = s.answer stInvalidArgument 0 := by
  simp [readAt, h]

theorem readAt_named (s : State) (off : Nat) {x : RegName} (h : regNamed off = some x) :
    readAt s off = (regRead s x).1.answer stOk (regRead s x).2 := by
  simp [readAt, h]

theorem writeAt_unnamed (s : State) (off : Nat) (kernel : Bool) (v : Nat) (h : regNamed off = none) :
    writeAt s off kernel v = { s with status := stInvalidArgument } := by
  simp [writeAt, h]

theorem writeAt_named (s : State) (off : Nat) (kernel : Bool) (v : Nat) {x : RegName} (h : regNamed off = some x) :
    writeAt s off kernel v = { (regWrite s x kernel v).1 with status := (regWrite s x kernel v).2 } := by
  simp [writeAt, h]

/-- A read by offset of a register that answers (R9, R11, R12). -/
theorem rcFieldRead_open (s : State) (off : BitVec 32) (x : RegName) (hc : s.clocked = true) (hn : regNamed off.toNat = some x)
    (hg : x.gated s = false) (hscan : ¬(x.unit = 10 ∧ x.index = 5)) :
    ∃ t, exec (.rcFieldRead off) s = .next t ∧ t.status = stOk ∧ t.mem = s.mem ∧
      (∀ y : RegName, y.offset ≠ x.offset → y.raw t = y.raw s) ∧
      (∀ f ∈ x.map.fields, ∀ i, f.lo ≤ i → i < f.lo + f.len →
        Nat.testBit t.value i = (decide (f.acc ≠ .wo) && Nat.testBit (regShow { s with reads := s.reads + 1 } x) i) ∧
        Nat.testBit (x.raw t) i = (decide (f.acc ≠ .rc) && Nat.testBit (x.raw s) i)) ∧
      ∀ i, (∀ f ∈ x.map.fields, i < f.lo ∨ f.lo + f.len ≤ i) → Nat.testBit t.value i = false := by
  have placed := wellPlaced_of_regNamed hn
  obtain ⟨value, regs⟩ := regRead_open s x hg hscan
  obtain ⟨shownIn, shownOut⟩ := testBit_shown x (regShow { s with reads := s.reads + 1 } x) placed
  obtain ⟨afterIn, -⟩ := testBit_afterRead x (x.raw s) placed
  rw [exec_rcFieldRead s off hc, readAt_named s _ hn]
  have rawAfter : ∀ y : RegName, y.raw (s.beside ((regRead s x).1.answer stOk (regRead s x).2)) =
      y.raw (x.setRaw s (x.afterRead (x.raw s))) := fun y => raw_congr y regs
  refine ⟨_, rfl, rfl, ?_, fun y hy => ?_, fun f hf i lower upper => ⟨?_, ?_⟩, fun i hi => ?_⟩
  · exact regRead_mem s x
  · rw [rawAfter, raw_setRaw_other s x y _ hy]
  · exact (congrArg (Nat.testBit · i) value).trans (shownIn f hf i ⟨lower, upper⟩)
  · rw [rawAfter, testBit_raw_setRaw_field placed hf ⟨lower, upper⟩]
    exact afterIn f hf i ⟨lower, upper⟩
  · exact (congrArg (Nat.testBit · i) value).trans (shownOut i fun f hf => (not_covers_iff f i).mpr (hi f hf))

/-- A write by offset of a register that stores its fields (R9, R11, R13). -/
theorem registerWrite_plain (s : State) (off : BitVec 32) (x : RegName) (kernel : Bool) (v : Word) (hc : s.clocked = true)
    (hn : regNamed off.toNat = some x) (hg : x.gated s = false) (hk : x.hasKrw = false ∨ kernel = true)
    (hv : writeLegal x v.toNat = true) (hx : PlainWrite x) :
    ∃ t, exec (.registerWrite kernel off v) s = .next t ∧ t.status = stOk ∧ t.mem = s.mem ∧
      (∀ y : RegName, y.offset ≠ x.offset → y.raw t = y.raw s) ∧
      (∀ f ∈ x.map.fields, ∀ i, f.lo ≤ i → i < f.lo + f.len →
        Nat.testBit (x.raw t) i = writtenBit f.acc kernel (Nat.testBit (x.raw s) i) (Nat.testBit v.toNat i)) ∧
      ∀ i, (∀ f ∈ x.map.fields, i < f.lo ∨ f.lo + f.len ≤ i) → Nat.testBit (x.raw t) i = Nat.testBit (x.raw s) i := by
  have placed := wellPlaced_of_regNamed hn
  obtain ⟨inside, outside⟩ := testBit_written x kernel (x.raw s) v.toNat placed
  rw [exec_registerWrite s kernel off v hc, writeAt_named s _ kernel _ hn, regWrite_plain s x kernel _ hk hg hv hx]
  exact ⟨_, rfl, rfl, rfl, fun y hy => raw_setRaw_other s x y _ hy,
    fun f hf i lower upper => (testBit_raw_setRaw_field placed hf ⟨lower, upper⟩).trans (inside f hf i ⟨lower, upper⟩),
    fun i hi => testBit_raw_setRaw_kept (outside i fun f hf => (not_covers_iff f i).mpr (hi f hf))⟩

/-- A write by offset that is refused leaves the registers alone. -/
theorem registerWrite_refused (s : State) (off : BitVec 32) (x : RegName) (kernel : Bool) (v : Word) (st : Nat)
    (hc : s.clocked = true) (hn : regNamed off.toNat = some x) (h : regWrite s x kernel v.toNat = (s, st)) :
    ∃ t, exec (.registerWrite kernel off v) s = .next t ∧ t.status = st ∧ t.regs = s.regs := by
  rw [exec_registerWrite s kernel off v hc, writeAt_named s _ kernel _ hn, h]
  exact ⟨_, rfl, rfl, rfl⟩

theorem registerAccess : RegisterAccess := by
  intro s off hc
  refine ⟨fun hn => ?_, fun kernel v hn => ?_, fun x hn hg => ⟨fun hscan => ?_, fun v hk => ?_, fun kernel v hk hv => ?_,
    fun kernel v hk hv hx => ?_⟩⟩
  · rw [exec_rcFieldRead s off hc, readAt_unnamed s _ hn]
    exact ⟨_, rfl, rfl, rfl⟩
  · rw [exec_registerWrite s kernel off v hc, writeAt_unnamed s _ kernel _ hn]
    exact ⟨_, rfl, rfl, rfl⟩
  · exact rcFieldRead_open s off x hc hn hg hscan
  · exact registerWrite_refused s off x false v _ hc hn (regWrite_privilege s x _ hk)
  · exact registerWrite_refused s off x kernel v _ hc hn (regWrite_outOfRange s x kernel _ hk hg hv)
  · exact registerWrite_plain s off x kernel v hc hn hg hk hv hx

end Sys2Proof.Proofs.RegisterAccess
end

section
/-!
Proofs of the statement about the query packets (R9, R13, R266, R285), and O29 itself: how a packet that passes its checks gets its one
reply, and what each query packet does before it.
-/
open Sys2Proof Sys2Proof.Machine Sys2Proof.Claims Sys2Proof.Proofs.RegisterAccess

namespace Sys2Proof.Proofs.QueryPackets

/-! ### The reply (R265) -/

/-- Where a reply can go out it goes out at once, and takes a credit. -/
theorem reply_of_canReply (s : State) (tag st : Nat) (res : List Nat) (h : CanReply s) :
    s.reply tag st res = { s with uc := { s.uc with zpkt := s.uc.zpkt - 1 }, sent := s.sent ++ [.reply tag st res] } := by
  obtain ⟨active, credit, noReply⟩ := h
  simp [State.reply, State.send, State.emit, OutMsg.isReply, active, credit, noReply]

theorem canReply_congr {s t : State} (h : CanReply s) (huc : t.uc = s.uc) (hst : t.ucState = s.ucState) : CanReply t := by
  unfold CanReply
  rw [huc, hst]
  exact h

/-- A command that makes `u` of the state and then answers the packet; `P` says nothing of the port and of what is sent. -/
theorem replied_of_reply {i : Instr} {p : Pkt} {s u : State} {st : Nat} {res : List Nat} {P : State → Prop} (hc : s.clocked = true)
    (he : exec i s = .next (s.onClock (u.reply p.tag.toNat st res))) (hu : CanReply u) (hsent : u.sent = s.sent)
    (hP : ∀ z l, P { u with uc := z, sent := l, pending := s.pending }) : Replied i p s st res P := by
  rw [onClock_running s _ hc, reply_of_canReply u _ _ _ hu] at he
  exact ⟨_, he, congrArg (· ++ _) hsent, hP _ _⟩

/-- A command that only answers the packet has done nothing. -/
theorem replied_unchanged {i : Instr} {p : Pkt} {s : State} {st : Nat} {res : List Nat} (hc : s.clocked = true) (hr : CanReply s)
    (he : exec i s = .next (s.onClock (s.reply p.tag.toNat st res))) : Replied i p s st res (Unchanged s) :=
  replied_of_reply hc he hr rfl fun _ _ => ⟨rfl, rfl, rfl, rfl, rfl, rfl, rfl⟩

/-! ### The checks (R265, R266) -/

theorem passes_clocked {s : State} {p : Pkt} {masks : List Nat} (h : Passes s p masks) : s.clocked = true := by
  obtain ⟨hc, -⟩ := h
  exact hc

theorem passes_canReply {s : State} {p : Pkt} {masks : List Nat} (h : Passes s p masks) : CanReply s := by
  obtain ⟨-, -, hr, -⟩ := h
  exact hr

theorem passes_format {s : State} {p : Pkt} {masks : List Nat} (h : Passes s p masks) : pktFormat p masks = true := by
  obtain ⟨-, -, -, -, hf, -⟩ := h
  exact hf

/-- A packet that passes the checks and that a user queue may send is done. -/
theorem takePacket_of_passes {s : State} {p : Pkt} {masks : List Nat} (h : Passes s p masks) (act : State → State) :
    takePacket s p masks false act = act s := by
  obtain ⟨-, runs, ⟨active, -, -⟩, freeTag, format, known⟩ := h
  simp [takePacket, active, runs, freeTag, format, known, qFree]

/-- A packet of queue 0, or one that names its own queue, acts on the queue that it names. -/
theorem naming_allowed {s : State} {p : Pkt} (act : Nat → State → State) (own : p.queue = 0 ∨ pktParam p 0 = p.queue.toNat)
    (known : s.qState (pktParam p 0) ≠ 0) : naming p act s = act (pktParam p 0) s := by
  have allowed : ¬(p.queue.toNat ≠ 0 ∧ pktParam p 0 ≠ p.queue.toNat) := by
    rcases own with own | own <;> simp [own]
  unfold naming
  dsimp only
  rw [if_neg allowed]
  exact if_neg known

/-- P0 has no bit outside its mask. -/
theorem pktParam_zero_lt {p : Pkt} {len : Nat} {masks : List Nat} (h : pktFormat p (ones 0 len :: masks) = true) :
    pktParam p 0 < 2 ^ len := by
  by_cases given : 0 < p.params.length
  · simp only [pktFormat, Bool.and_eq_true, List.all_eq_true, List.mem_range, decide_eq_true_eq] at h
    have masked : pktParam p 0 &&& ones 0 len = pktParam p 0 := h.2 0 given
    rw [← masked, ones, Nat.pow_zero, Nat.mul_one, Nat.and_two_pow_sub_one_eq_mod]
    exact Nat.mod_lt _ (Nat.two_pow_pos len)
  · have absent : pktParam p 0 = 0 := by
      simp [pktParam, List.eq_nil_of_length_eq_zero (Nat.eq_zero_of_not_pos given)]
    rw [absent]
    exact Nat.two_pow_pos len

/-! ### The state of the port -/

/-- A register outside the port's unit does not hold the port's state. -/
theorem ucState_setRaw {s : State} {off : Nat} {x : RegName} (v : Nat) (hn : regNamed off = some x) (hx : x.unit ≠ 7) :
    (x.setRaw s v).ucState = s.ucState := by
  obtain ⟨-, -, inst, index⟩ := regNamed_spec hn
  have apart : Fld.UC_LINK_STATUS_STATE.offset 0 0 ≠ x.offset := by
    simp only [Fld.offset, RegName.offset, regOffset, Fld.UC_LINK_STATUS_STATE]
    omega
  simp only [State.ucState, State.rget, State.regWord, RegName.setRaw, SMap.get_store_other _ _ _ _ _ _ apart]

/-- The status of a queue is not the port's state. -/
theorem ucState_rput_orphanHeld (s : State) (v q : Nat) (hq : q < 2 ^ 10) :
    (s.rput Fld.FE_QUEUE_STATUS_ORPHAN_HELD v 0 q).ucState = s.ucState := by
  refine rget_rput_other s _ _ v 0 q 0 0 ?_
  simp only [Fld.offset, regOffset, Fld.UC_LINK_STATUS_STATE, Fld.FE_QUEUE_STATUS_ORPHAN_HELD]
  omega

/-! ### REG_READ and REG_WRITE -/

theorem exec_regReadPacket (p : Pkt) (s : State) : exec (.regReadPacket p) s = .next (s.onClock (doRegReadPacket p s)) := rfl

theorem exec_regWritePacket (p : Pkt) (s : State) : exec (.regWritePacket p) s = .next (s.onClock (doRegWritePacket p s)) := rfl

theorem regReadPacket_unnamed {s : State} {p : Pkt} (h : Passes s p [full]) (hn : regNamed (pktParam p 0) = none) :
    Replied (.regReadPacket p) p s stInvalidArgument [] (Unchanged s) := by
  refine replied_unchanged (passes_clocked h) (passes_canReply h) ?_
  rw [exec_regReadPacket, doRegReadPacket, takePacket_of_passes h, hn]

theorem regReadPacket_named {s : State} {p : Pkt} {x : RegName} (h : Passes s p [full]) (hn : regNamed (pktParam p 0) = some x)
    (hr : CanReply (regRead s x).1) :
    Replied (.regReadPacket p) p s stOk [(regRead s x).2] (fun t => t.regs = (regRead s x).1.regs ∧ t.mem = s.mem) := by
  refine replied_of_reply (passes_clocked h) ?_ hr (regRead_sent s x) fun _ _ => ⟨rfl, regRead_mem s x⟩
  rw [exec_regReadPacket, doRegReadPacket, takePacket_of_passes h, hn]

theorem regWritePacket_unnamed {s : State} {p : Pkt} (h : Passes s p [full, full]) (hn : regNamed (pktParam p 0) = none) :
    Replied (.regWritePacket p) p s stInvalidArgument [] (Unchanged s) := by
  refine replied_unchanged (passes_clocked h) (passes_canReply h) ?_
  rw [exec_regWritePacket, doRegWritePacket, takePacket_of_passes h, hn]

theorem regWritePacket_privilege {s : State} {p : Pkt} {x : RegName} (h : Passes s p [full, full])
    (hn : regNamed (pktParam p 0) = some x) (hk : x.hasKrw = true) (hq : p.queue ≠ 0) :
    Replied (.regWritePacket p) p s stPrivilege [] (Unchanged s) := by
  refine replied_unchanged (passes_clocked h) (passes_canReply h) ?_
  have user : (x.hasKrw && decide (p.queue.toNat ≠ 0)) = true := by simpa [hk, BitVec.toNat_eq] using hq
  rw [exec_regWritePacket, doRegWritePacket, takePacket_of_passes h, hn]
  exact congrArg (fun t => Host.Outcome.next (s.onClock t)) (if_pos user)

theorem regWritePacket_plain {s : State} {p : Pkt} {x : RegName} (h : Passes s p [full, full])
    (hn : regNamed (pktParam p 0) = some x) (hk : x.hasKrw = false ∨ p.queue = 0) (hg : x.gated s = false)
    (hv : writeLegal x (pktParam p 1) = true) (hx : PlainWrite x) (hu : x.unit ≠ 7) :
    Replied (.regWritePacket p) p s stOk [] (fun t => t.mem = s.mem ∧
      x.raw t = x.written (decide (p.queue = 0)) (x.raw s) (pktParam p 1) % 2 ^ 64) := by
  have kernel : decide (p.queue.toNat = 0) = decide (p.queue = 0) := by simp [BitVec.toNat_eq]
  have allowed : ¬((x.hasKrw && decide (p.queue.toNat ≠ 0)) = true) := by
    rcases hk with hk | hk <;> simp [hk]
  have stored := regWrite_plain s x (decide (p.queue = 0)) (pktParam p 1) (hk.imp_right decide_eq_true) hg hv hx
  refine replied_of_reply (u := x.setRaw s (x.written (decide (p.queue = 0)) (x.raw s) (pktParam p 1))) (passes_clocked h) ?_
    (canReply_congr (passes_canReply h) rfl (ucState_setRaw _ hn hu)) rfl fun _ _ => ⟨rfl, raw_setRaw_same s x _⟩
  rw [exec_regWritePacket, doRegWritePacket, takePacket_of_passes h, hn]
  refine congrArg (fun t => Host.Outcome.next (s.onClock t)) ((if_neg allowed).trans ?_)
  rw [kernel, stored]

/-! ### QUEUE_QUERY, FALLBACK_READ and ECHO -/

theorem exec_queueQuery (p : Pkt) (s : State) : exec (.queueQuery p) s = .next (s.onClock (doQueueQuery p s)) := rfl

theorem exec_fallbackRead (p : Pkt) (s : State) : exec (.fallbackRead p) s = .next (s.onClock (doFallbackRead p s)) := rfl

theorem exec_echo (p : Pkt) (s : State) : exec (.echo p) s = .next (s.onClock (doEcho p s)) := rfl

theorem queueQuery_replied {s : State} {p : Pkt} (h : Passes s p [ones 0 10]) (own : p.queue = 0 ∨ pktParam p 0 = p.queue.toNat)
    (known : s.qState (pktParam p 0) ≠ 0) :
    Replied (.queueQuery p) p s stOk [(s.regWord Fld.FE_QUEUE_STATUS_STATE 0 (pktParam p 0)).toNat, (s.queue (pktParam p 0)).doneSeq,
      (s.regWord Fld.FE_QUEUE_SLOWDOWN_SLOWDOWN 0 (pktParam p 0)).toNat] (Unchanged s) := by
  refine replied_unchanged (passes_clocked h) (passes_canReply h) ?_
  rw [exec_queueQuery, doQueueQuery, takePacket_of_passes h, naming_allowed _ own known]

theorem fallbackRead_empty {s : State} {p : Pkt} (h : Passes s p [ones 0 10]) (own : p.queue = 0 ∨ pktParam p 0 = p.queue.toNat)
    (known : s.qState (pktParam p 0) ≠ 0) (empty : s.rget Fld.FE_QUEUE_STATUS_ORPHAN_HELD 0 (pktParam p 0) = 0) :
    Replied (.fallbackRead p) p s stInvalidState [] (Unchanged s) := by
  refine replied_unchanged (passes_clocked h) (passes_canReply h) ?_
  rw [exec_fallbackRead, doFallbackRead, takePacket_of_passes h, naming_allowed _ own known]
  exact congrArg (fun t => Host.Outcome.next (s.onClock t)) (if_pos empty)

/-- A queue whose oldest record of the fallback ring has been taken (R285). -/
def recordTaken (s : State) (q : Nat) : State :=
  (s.mapQueue q (fun x => { x with ringHead := ((s.queue q).ringHead + 1) % 16 })).rput Fld.FE_QUEUE_STATUS_ORPHAN_HELD
    (s.rget Fld.FE_QUEUE_STATUS_ORPHAN_HELD 0 q - 1) 0 q

theorem orphanHeld_recordTaken (s : State) (q : Nat) :
    (recordTaken s q).rget Fld.FE_QUEUE_STATUS_ORPHAN_HELD 0 q = s.rget Fld.FE_QUEUE_STATUS_ORPHAN_HELD 0 q - 1 := by
  have held : s.rget Fld.FE_QUEUE_STATUS_ORPHAN_HELD 0 q < 2 ^ Fld.FE_QUEUE_STATUS_ORPHAN_HELD.len := bits_lt _ _ _
  rw [recordTaken, rget_rput_same _ _ _ _ _ (by decide), Nat.mod_eq_of_lt (by omega)]

theorem ringHead_recordTaken (s : State) (q : Nat) :
    ((recordTaken s q).queue q).ringHead = ((s.queue q).ringHead + 1) % 16 := by
  show Queue.ringHead (State.queue (s.mapQueue q fun x => { x with ringHead := ((s.queue q).ringHead + 1) % 16 }) q) = _
  rw [queue_mapQueue_same]

theorem fallbackRead_taken {s : State} {p : Pkt} (h : Passes s p [ones 0 10]) (own : p.queue = 0 ∨ pktParam p 0 = p.queue.toNat)
    (known : s.qState (pktParam p 0) ≠ 0) (held : s.rget Fld.FE_QUEUE_STATUS_ORPHAN_HELD 0 (pktParam p 0) ≠ 0) :
    Replied (.fallbackRead p) p s stOk ((List.range 16).map (fun i =>
      s.readLE (carveBase s + ringsOff + pktParam p 0 * 2048 + 128 * (s.queue (pktParam p 0)).ringHead + 8 * i) 8)) (fun t =>
        t.mem = s.mem ∧
        t.rget Fld.FE_QUEUE_STATUS_ORPHAN_HELD 0 (pktParam p 0) = s.rget Fld.FE_QUEUE_STATUS_ORPHAN_HELD 0 (pktParam p 0) - 1 ∧
        (t.queue (pktParam p 0)).ringHead = ((s.queue (pktParam p 0)).ringHead + 1) % 16) := by
  have port : (recordTaken s (pktParam p 0)).ucState = s.ucState :=
    ucState_rput_orphanHeld _ _ _ (pktParam_zero_lt (passes_format h))
  refine replied_of_reply (u := recordTaken s (pktParam p 0)) (passes_clocked h) ?_ (canReply_congr (passes_canReply h) rfl port) rfl
    fun _ _ => ⟨rfl, orphanHeld_recordTaken s _, ringHead_recordTaken s _⟩
  rw [exec_fallbackRead, doFallbackRead, takePacket_of_passes h, naming_allowed _ own known]
  exact congrArg (fun t => Host.Outcome.next (s.onClock t)) (if_neg held)

theorem echo_replied {s : State} {p : Pkt} (h : Passes s p [full, full, full]) :
    Replied (.echo p) p s stOk [pktParam p 0, pktParam p 1, pktParam p 2] (Unchanged s) := by
  refine replied_unchanged (passes_clocked h) (passes_canReply h) ?_
  rw [exec_echo, doEcho, takePacket_of_passes h]

theorem queryPackets : QueryPackets := fun _ _ =>
  ⟨fun h => ⟨regReadPacket_unnamed h, fun _ hn => regReadPacket_named h hn⟩,
    fun h => ⟨regWritePacket_unnamed h, fun _ hn => ⟨regWritePacket_privilege h hn, regWritePacket_plain h hn⟩⟩,
    fun h own known => ⟨queueQuery_replied h own known, fallbackRead_empty h own known, fallbackRead_taken h own known⟩,
    echo_replied⟩

/-- Settles O29: the query packets, and reads and writes by access code. -/
theorem readsByPacket : Obligations.ReadsByPacket := ⟨queryPackets, registerAccess⟩

end Sys2Proof.Proofs.QueryPackets
end

section
/-!
Rules for the issue of a tray instruction (R45, R51, R62): what the turn of its path leaves of its tray, what putting the tray back
leaves of the rest of the state, and from both the frame that an issued instruction keeps.
-/
open Sys2Proof Sys2Proof.Machine Sys2Proof.Claims

namespace Sys2Proof.Proofs.TrayIssue

/-! ### The turn of a path (R61, R62) -/

/-- Only the tray's paths, their turn and the reservations that a path switch ends have changed. -/
def PathsOnly (t u : Tray) : Prop :=
  ∃ p r x v d, u = { t with paths := p, running := r, splits := x, resv := v, disturbed := d }

theorem PathsOnly.refl (t : Tray) : PathsOnly t t := ⟨_, _, _, _, _, rfl⟩

theorem PathsOnly.trans {t u v : Tray} (h : PathsOnly t u) (g : PathsOnly u v) : PathsOnly t v := by
  obtain ⟨p, r, x, w, d, rfl⟩ := h
  obtain ⟨p', r', x', w', d', rfl⟩ := g
  exact ⟨_, _, _, _, _, rfl⟩

theorem park_pathsOnly (t : Tray) (id : Nat) : PathsOnly t (t.park id) := ⟨_, _, _, _, _, rfl⟩

theorem mergeSplit_pathsOnly (t : Tray) (x : Split) : PathsOnly t (t.mergeSplit x) := by
  unfold Tray.mergeSplit
  dsimp only
  split
  · exact ⟨_, _, _, _, _, rfl⟩
  · split
    · exact ⟨_, _, _, _, _, rfl⟩
    · exact .refl t

theorem mergeSplits_pathsOnly (t : Tray) (l : List Split) : PathsOnly t (l.foldr (fun x u => u.mergeSplit x) t) := by
  induction l with
  | nil => exact .refl t
  | cons x l ih => exact ih.trans (mergeSplit_pathsOnly _ x)

theorem mergeAll_pathsOnly (n : Nat) : ∀ t : Tray, PathsOnly t (t.mergeAll n) := by
  induction n with
  | zero => exact .refl
  | succ n ih => exact fun t => (mergeSplits_pathsOnly t t.splits).trans (ih _)

theorem giveTurn_pathsOnly (t : Tray) (order : List Nat) : PathsOnly t (t.giveTurn order) := by
  unfold Tray.giveTurn
  split
  · exact .refl t
  · dsimp only
    split
    · exact ⟨_, _, _, _, _, rfl⟩
    · exact ⟨_, _, _, _, _, rfl⟩

theorem endTurn_pathsOnly (t : Tray) : PathsOnly t t.endTurn := (mergeAll_pathsOnly _ t).trans (giveTurn_pathsOnly _ _)

theorem settle_pathsOnly (t : Tray) : PathsOnly t t.settle := by
  have ended := (park_pathsOnly t t.running).trans (endTurn_pathsOnly _)
  unfold Tray.settle
  dsimp only
  split
  · split
    · exact park_pathsOnly t _
    · exact ended
  · exact ended

theorem arriveAt_pathsOnly (t : Tray) (pc : Nat) : PathsOnly t (t.arriveAt pc) :=
  PathsOnly.trans ⟨_, _, _, _, _, rfl⟩ (settle_pathsOnly _)

/-! ### What a command changes outside one slot -/

/-- Only the tray of the slot, registers of the device and launches have changed. -/
structure SlotOnly (core slot : Nat) (s t : State) : Prop where
  frame : ∃ c r l, t = { s with cores := c, regs := r, launches := l }
  cores : ∀ n, ∃ ts, t.core n = { s.core n with trays := ts }
  others : ∀ c k, (c ≠ core ∨ k ≠ slot) → t.tray c k = s.tray c k

section
variable {core slot : Nat} {s t u : State}

theorem SlotOnly.refl (core slot : Nat) (s : State) : SlotOnly core slot s s := ⟨⟨_, _, _, rfl⟩, fun _ => ⟨_, rfl⟩, fun _ _ _ => rfl⟩

theorem SlotOnly.trans (h : SlotOnly core slot s t) (g : SlotOnly core slot t u) : SlotOnly core slot s u := by
  refine ⟨?_, fun n => ?_, fun c k hk => (g.others c k hk).trans (h.others c k hk)⟩
  · obtain ⟨c, r, l, rfl⟩ := h.frame
    obtain ⟨c', r', l', e⟩ := g.frame
    exact ⟨c', r', l', e⟩
  · obtain ⟨ts, e⟩ := h.cores n
    obtain ⟨ts', e'⟩ := g.cores n
    exact ⟨ts', by rw [e', e]⟩

theorem setTray_slotOnly (s : State) (core slot : Nat) (t : Tray) : SlotOnly core slot s (s.setTray core slot t) := by
  refine ⟨⟨_, _, _, rfl⟩, fun n => ?_, fun c k hk => tray_setTray_other s core slot c k t hk⟩
  by_cases h : n = core
  · exact ⟨_, by rw [h, State.setTray, core_mapCore_same]⟩
  · exact ⟨_, by rw [State.setTray, core_mapCore_other _ _ _ _ h]⟩

theorem core_rbump (s : State) (f : Fld) (n i c k : Nat) : (s.rbump f n i c).core k = s.core k := rfl

theorem rbump_slotOnly (core slot : Nat) (s : State) (f : Fld) (n i c : Nat) : SlotOnly core slot s (s.rbump f n i c) :=
  ⟨⟨_, _, _, rfl⟩, fun _ => ⟨_, rfl⟩, fun _ _ _ => rfl⟩

theorem mapLaunch_slotOnly (core slot : Nat) (s : State) (n : Nat) (f : Launch → Launch) : SlotOnly core slot s (s.mapLaunch n f) :=
  ⟨⟨_, _, _, rfl⟩, fun _ => ⟨_, rfl⟩, fun _ _ _ => rfl⟩

theorem demote_slotOnly (s : State) (core slot : Nat) : SlotOnly core slot s (s.demote core slot) := by
  unfold State.demote
  split
  · exact .refl _ _ s
  · split
    · exact (setTray_slotOnly s core slot _).trans (rbump_slotOnly _ _ _ _ _ _ _)
    · exact .refl _ _ s

theorem settleHalt_slotOnly (s : State) (core slot : Nat) : SlotOnly core slot s (settleHalt core slot s) := by
  unfold settleHalt
  split
  · split
    · exact demote_slotOnly s core slot
    · exact .refl _ _ s
  · exact .refl _ _ s

theorem put_slotOnly (x : Ctx) (t : Tray) : SlotOnly x.core x.slot x.s (x.put t) := by
  have kept := setTray_slotOnly x.s x.core x.slot t
  unfold Ctx.put
  dsimp only
  split
  · exact kept
  · exact kept.trans (demote_slotOnly _ _ _)

theorem issueWith_slotOnly (x : Ctx) (words : Nat) (pd : Option Pend) : SlotOnly x.core x.slot x.s (x.issueWith words pd) :=
  (mapLaunch_slotOnly x.core x.slot x.s x.L.serial _).trans (put_slotOnly x.noteIssue _)

end

/-! ### The tray that has issued -/

/-- What an issue makes of a tray: its registers, predicates and lanes are as they were, and `pd` has joined its scoreboard. -/
structure Issued (t : Tray) (pd : Option Pend) (y : Tray) : Prop where
  regs : y.regs = t.regs
  preds : y.preds = t.preds
  live : y.live = t.live
  seed : y.seed = t.seed
  pend : y.pend = t.pend ++ pd.toList

theorem Issued.active {t y : Tray} {pd : Option Pend} (h : Issued t pd y) (a : Bool) : Issued t pd { y with active := a } :=
  ⟨h.regs, h.preds, h.live, h.seed, h.pend⟩

theorem Issued.turned {t y z : Tray} {pd : Option Pend} (h : Issued t pd y) (g : PathsOnly y z) : Issued t pd z := by
  obtain ⟨_, _, _, _, _, rfl⟩ := g
  exact ⟨h.regs, h.preds, h.live, h.seed, h.pend⟩

theorem tray_issueWith (x : Ctx) (words : Nat) (pd : Option Pend) :
    ∃ y, (x.issueWith words pd).tray x.core x.slot = some y ∧ Issued x.t pd y := by
  have put : ∀ t, Issued x.t pd t → ∃ y, (x.noteIssue.put t).tray x.core x.slot = some y ∧ Issued x.t pd y := by
    intro t ht
    refine ⟨_, tray_put x.noteIssue t, ?_⟩
    split
    · exact ht
    · exact ht.active false
  have moved : ∀ t pc, Issued x.t pd t → Issued x.t pd (t.arriveAt pc) := fun t pc ht => ht.turned (arriveAt_pathsOnly t pc)
  cases pd with
  | none => exact put _ (moved _ _ ⟨rfl, rfl, rfl, rfl, (List.append_nil _).symm⟩)
  | some p => exact put _ (moved _ _ ⟨rfl, rfl, rfl, rfl, rfl⟩)

theorem tray_settleHalt {s : State} {core slot : Nat} {t : Tray} (h : s.tray core slot = some t) :
    ∃ a, (settleHalt core slot s).tray core slot = some { t with active := a } := by
  unfold settleHalt
  rw [h]
  dsimp only
  split
  · exact ⟨false, tray_demote s core slot t h⟩
  · exact ⟨t.active, h⟩

/-! ### What the body of an instruction changes beside its tray -/

/-- Only registers of the device and what the cores hold beside their trays have changed. -/
structure KeepsTrays (s u : State) : Prop where
  frame : ∃ c r, u = { s with cores := c, regs := r }
  trays : ∀ n, (u.core n).trays = (s.core n).trays

theorem KeepsTrays.refl (s : State) : KeepsTrays s s := ⟨⟨_, _, rfl⟩, fun _ => rfl⟩

theorem KeepsTrays.trans {s t u : State} (h : KeepsTrays s t) (g : KeepsTrays t u) : KeepsTrays s u := by
  refine ⟨?_, fun n => (g.trays n).trans (h.trays n)⟩
  obtain ⟨c, r, rfl⟩ := h.frame
  obtain ⟨c', r', e⟩ := g.frame
  exact ⟨c', r', e⟩

theorem rput_keepsTrays (s : State) (f : Fld) (v i c : Nat) : KeepsTrays s (s.rput f v i c) := ⟨⟨_, _, rfl⟩, fun _ => rfl⟩

theorem rbump_keepsTrays (s : State) (f : Fld) (n i c : Nat) : KeepsTrays s (s.rbump f n i c) := rput_keepsTrays s f _ i c

theorem mapCore_keepsTrays (s : State) (n : Nat) {f : Core → Core} (h : (f (s.core n)).trays = (s.core n).trays) :
    KeepsTrays s (s.mapCore n f) := by
  refine ⟨⟨_, _, rfl⟩, fun k => ?_⟩
  by_cases g : k = n
  · rw [g, core_mapCore_same, h]
  · rw [core_mapCore_other _ _ _ _ g]

/-! ### An instruction that issues -/

theorem canIssue_clocked {o : TrayOp} {s : State} {x : Ctx} (h : CanIssue o s x) : s.clocked = true := by
  obtain ⟨_, _, _, _, _, _, _, _, _, runs, _⟩ := issueCtx_spec o s x h.1
  exact ((Bool.and_eq_true _ _).mp runs).1

/-- What the context of an instruction that may issue says of its place. -/
theorem canIssue_place {o : TrayOp} {s : State} {x : Ctx} (h : CanIssue o s x) :
    x.s = s ∧ x.core = o.core.val ∧ x.slot = o.slot.val := by
  obtain ⟨hs, hc, hk, _⟩ := issueCtx_spec o s x h.1
  exact ⟨hs, hc, hk⟩

theorem canIssue_core {o : TrayOp} {s : State} {x : Ctx} (h : CanIssue o s x) : x.core = o.core.val := by
  obtain ⟨-, hc, -⟩ := canIssue_place h
  exact hc

/-- The body of an instruction that may issue runs. -/
theorem canIssue_runs {o : TrayOp} {s : State} {x : Ctx} (h : CanIssue o s x) (body : Ctx → State) :
    s.onClock (issueTray o s body) = s.beside (settleHalt o.core o.slot (body x)) := by
  rw [onClock_running s _ (canIssue_clocked h)]
  obtain ⟨ctx, noBreak, clean, ecc, noChain⟩ := h
  rw [issueTray_body o s x body ctx noBreak clean ecc noChain]

/-- A legal instruction none of whose registers waits runs. -/
theorem withRegs_legal (x : Ctx) {legal : Bool} (regs : List Nat) (body : State) (hl : legal = true)
    (h : x.clear (x.guards ++ regs) = true) : x.withRegs legal regs body = body := by
  rw [hl, withRegs_run x regs body h]

/-- Taking a number changes no tray. -/
theorem bumpSerial_keepsTrays (x : Ctx) : KeepsTrays x.s x.bumpSerial.s := by
  unfold Ctx.bumpSerial
  dsimp only
  exact mapCore_keepsTrays _ _ rfl

section
variable {i : Instr} {o : TrayOp} {s u : State} {x : Ctx} {words : Nat} {pd : Option Pend} {body : Ctx → State}

/-- An instruction whose body makes `u` of the state and then issues: its tray has issued, its core holds what `u`'s holds beside
its trays, and everything else is as it was. -/
theorem issue_done (he : exec i s = .next (s.onClock (issueTray o s body))) (h : CanIssue o s x) (hu : KeepsTrays s u)
    (hb : body x = Ctx.issueWith { x with s := u } words pd) :
    ∃ t y, exec i s = .next t ∧ TrayOnly o s t ∧ t.tray o.core o.slot = some y ∧ Issued x.t pd y ∧
      ∃ ts, t.core o.core = { u.core o.core with trays := ts } := by
  obtain ⟨-, hc, hk⟩ := canIssue_place h
  rw [canIssue_runs h, hb, ← hc, ← hk] at he
  have slot : SlotOnly x.core x.slot u (settleHalt x.core x.slot (Ctx.issueWith { x with s := u } words pd)) :=
    (issueWith_slotOnly { x with s := u } words pd).trans (settleHalt_slotOnly _ _ _)
  obtain ⟨y, hy, issued⟩ := tray_issueWith { x with s := u } words pd
  obtain ⟨a, ha⟩ := tray_settleHalt hy
  have only : TrayOnly o s (s.beside (settleHalt x.core x.slot (Ctx.issueWith { x with s := u } words pd))) := by
    obtain ⟨c, r, l, e⟩ := slot.frame
    obtain ⟨c', r', e'⟩ := hu.frame
    have others : ∀ c k, (c ≠ o.core.val ∨ k ≠ o.slot.val) →
        (settleHalt x.core x.slot (Ctx.issueWith { x with s := u } words pd)).tray c k = s.tray c k := by
      rw [← hc, ← hk]
      exact fun c k hck => (slot.others c k hck).trans (congrArg (SMap.find? · k) (hu.trays c))
    refine ⟨?_, ?_, ?_, ?_, ?_, ?_, ?_, ?_, ?_, rfl, others⟩ <;> rw [e, e'] <;> rfl
  rw [← hc, ← hk]
  exact ⟨_, _, he, only, ha, issued.active a, slot.cores x.core⟩

theorem leaves_of_issue {P : State → Tray → Prop} (he : exec i s = .next (s.onClock (issueTray o s body))) (h : CanIssue o s x)
    (hu : KeepsTrays s u) (hb : body x = Ctx.issueWith { x with s := u } words pd)
    (hP : ∀ t y ts, t.core o.core = { u.core o.core with trays := ts } → P t y) : Leaves i o s x P := by
  obtain ⟨t, y, ht, only, hy, issued, ts, hcore⟩ := issue_done he h hu hb
  exact ⟨t, y, ht, only, hy, issued.regs, issued.preds, hP t y ts hcore⟩

theorem inFlight_of_issue {p : Pend} {P : Tray → Pend → Prop} (he : exec i s = .next (s.onClock (issueTray o s body)))
    (h : CanIssue o s x) (hu : KeepsTrays s u) (hb : body x = Ctx.issueWith { x with s := u } words (some p))
    (hP : ∀ y, Issued x.t (some p) y → P y p) : InFlight i o s x P := by
  obtain ⟨t, y, ht, only, hy, issued, -⟩ := issue_done he h hu hb
  exact ⟨t, y, p, ht, only, hy, issued.pend, issued.regs, issued.preds, issued.live, hP y issued⟩

end

end Sys2Proof.Proofs.TrayIssue
end

section
/-!
Rules for the results of an instruction in flight (R51, R75): what a lane register holds after the writes of a result, and after a
result that fills a run of registers.
-/
open Sys2Proof Sys2Proof.Machine Sys2Proof.Claims Sys2Proof.Proofs.TrayIssue

namespace Sys2Proof.Proofs.LaneResults

theorem mem_lanes (m : Mask) (l : Nat) : l ∈ Mask.lanes m ↔ l < 32 ∧ Mask.has m l = true := by
  simp [Mask.lanes, laneNumbers, Mask.has]

theorem laneNumbers_getD {α : Type} (f : Nat → α) (d : α) {l : Nat} (hl : l < 32) : (laneNumbers.map f).getD l d = f l := by
  simp [laneNumbers, hl]

theorem reg_congr {t u : Tray} (hr : t.regs = u.regs) (hs : t.seed = u.seed) (r l : Nat) : t.reg r l = u.reg r l := by
  unfold Tray.reg
  rw [hr, hs]

theorem reg_setReg (t : Tray) (r l : Nat) (v : Lane) {q k : Nat} (hl : l < 32) (hk : k < 32) :
    (t.setReg r l v).reg q k = if q = r ∧ k = l then v else t.reg q k := by
  unfold Tray.reg Tray.setReg
  by_cases h : q = r ∧ k = l
  · rw [if_pos h, h.1, h.2, SMap.get_put_same]
  · rw [if_neg h, SMap.get_put_other]
    omega

/-- Writing one register in a list of lanes. -/
theorem reg_setRegs (r : Nat) (v : Nat → Lane) (ls : List Nat) : ∀ t : Tray, (∀ l ∈ ls, l < 32) → ∀ q k, k < 32 →
    (ls.foldl (fun t l => t.setReg r l (v l)) t).reg q k = if q = r ∧ k ∈ ls then v k else t.reg q k := by
  induction ls with
  | nil => simp
  | cons l ls ih =>
    intro t hls q k hk
    rw [List.foldl_cons, ih _ (fun j hj => hls j (List.mem_cons_of_mem _ hj)) q k hk,
      reg_setReg t r l (v l) (hls l List.mem_cons_self) hk]
    by_cases same : k = l
    · subst same
      by_cases named : q = r <;> simp [named]
    · simp [same]

theorem reg_applyWrite (t : Tray) (w : LaneWrite) (r : Nat) {l : Nat} (hl : l < 32) :
    (t.applyWrite w).reg r l = if r = w.reg ∧ Mask.has w.lanes l = true then w.vals.getD l 0 else t.reg r l := by
  unfold Tray.applyWrite
  rw [reg_setRegs w.reg (fun l => w.vals.getD l 0) _ t (fun j hj => ((mem_lanes _ j).mp hj).1) r l hl]
  simp [mem_lanes, hl]

/-- A result that fills the `n` registers from `d` on in the lanes of a mask. -/
def runWrites (d n : Nat) (m : Mask) (v : Nat → Nat → Lane) : List LaneWrite :=
  (List.range n).map fun j => { reg := d + j, lanes := m, vals := laneNumbers.map (v j) }

theorem reg_runWrites (d n : Nat) (m : Mask) (v : Nat → Nat → Lane) (t : Tray) (r : Nat) {l : Nat} (hl : l < 32) :
    ((runWrites d n m v).foldl Tray.applyWrite t).reg r l =
      if Mask.has m l = true ∧ d ≤ r ∧ r < d + n then v (r - d) l else t.reg r l := by
  induction n with
  | zero =>
    have none : ¬(Mask.has m l = true ∧ d ≤ r ∧ r < d + 0) := by omega
    rw [if_neg none]
    rfl
  | succ n ih =>
    unfold runWrites at ih ⊢
    rw [List.range_succ, List.map_append, List.foldl_append, List.map_singleton, List.foldl_cons, List.foldl_nil, reg_applyWrite _ _ r hl,
      ih]
    dsimp only
    rw [laneNumbers_getD _ _ hl]
    by_cases last : r = d + n
    · subst last
      simp
    · have below : (d ≤ r ∧ r < d + n) ↔ (d ≤ r ∧ r < d + (n + 1)) := by omega
      simp [last, below]

/-- What a result that writes no predicate leaves of the tray. -/
theorem finish_eq (t : Tray) (p : Pend) (h : p.preds = []) : t.finish p false =
    { p.writes.foldl Tray.applyWrite t with
      pend := (p.writes.foldl Tray.applyWrite t).pend.filter (fun q => q.serial != p.serial) } := by
  simp [Tray.finish, h]

theorem applyWrite_preds (t : Tray) (w : LaneWrite) : (t.applyWrite w).preds = t.preds :=
  foldl_keeps (fun u : Tray => u.preds = t.preds) (fun u l => u.setReg w.reg l (w.vals.getD l 0)) (fun _ _ h => h) _ t rfl

/-- A result without predicates leaves the predicates of the tray. -/
theorem finish_preds {t y : Tray} {pd : Option Pend} (h : Issued t pd y) (p : Pend) (hp : p.preds = []) :
    (y.finish p false).preds = t.preds := by
  rw [finish_eq y p hp]
  exact foldl_keeps (fun u : Tray => u.preds = t.preds) _ (fun u w hu => (applyWrite_preds u w).trans hu) _ y h.preds

/-- A result that fills a run of registers, once it stands in them. -/
theorem finish_runWrites {t y : Tray} {pd : Option Pend} (h : Issued t pd y) (p : Pend) (hp : p.preds = []) {d n : Nat} {m : Mask}
    {v : Nat → Nat → Lane} (hw : p.writes = runWrites d n m v) (r : Nat) {l : Nat} (hl : l < 32) :
    (y.finish p false).reg r l = if Mask.has m l = true ∧ d ≤ r ∧ r < d + n then v (r - d) l else t.reg r l := by
  rw [← reg_congr h.regs h.seed, ← reg_runWrites d n m v y r hl, finish_eq y p hp, hw]
  rfl

end Sys2Proof.Proofs.LaneResults
end

section
/-!
Proofs of the statement about MMA and SMMA (R83, R86 to R88, R94, R96, R97, R110, R111), O16: an accumulator's clamped updates, what the
update of a tile writes to each accumulator, what the issue of a matrix instruction leaves of the sets and the entries, and each of
the two instructions.
-/
open Sys2Proof Sys2Proof.Machine Sys2Proof.Claims Sys2Proof.Proofs.TrayIssue

namespace Sys2Proof.Proofs.MatrixProducts

/-! ### One accumulator (R110) -/

theorem accUpdate_fst (acc p : Int) : (accUpdate acc p).1 = clampAcc (acc + p) := by
  unfold accUpdate clampAcc
  dsimp only
  split
  · omega
  · split
    · omega
    · omega

theorem dotSum_eq_products (a b : Nat → Int) (k0 n : Nat) : dotSum a b k0 n = products a b k0 n := by
  induction n with
  | zero => rfl
  | succ n ih => simp [dotSum, products, List.range_succ, ih]

theorem signed_products (a b : Nat → Int) (k0 n : Nat) (neg : Bool) :
    (if neg then -dotSum a b k0 n else dotSum a b k0 n) = (if neg then -1 else 1) * products a b k0 n := by
  rw [dotSum_eq_products]
  cases neg <;> simp

/-- An MMA's updates of an accumulator, one array cycle after the other. -/
theorem mmaCell_fst (a b : Nat → Int) (w : Nat) (neg : Bool) (occ : Nat) (acc : Int) :
    (mmaCell a b w neg occ acc).1 = accumulated a b w occ neg acc := by
  induction occ with
  | zero => rfl
  | succ occ ih =>
    have last : accumulated a b w (occ + 1) neg acc =
        clampAcc (accumulated a b w occ neg acc + (if neg then -1 else 1) * products a b (occ * w) w) := by
      simp [accumulated, List.range_succ]
    rw [last, ← ih, ← signed_products, ← accUpdate_fst]
    rfl

/-! ### The accumulators of a tile -/

theorem mem_cellsOf (ms n0 ns m n : Nat) : (m, n) ∈ cellsOf ms n0 ns ↔ m < ms ∧ n0 ≤ n ∧ n < n0 + ns := by
  simp only [cellsOf, List.mem_flatMap, List.mem_range, List.mem_map, Prod.mk.injEq]
  constructor
  · rintro ⟨_, hm, j, hj, rfl, rfl⟩
    omega
  · rintro ⟨hm, low, high⟩
    exact ⟨m, hm, n - n0, by omega, rfl, by omega⟩

/-- One accumulator of the tile rewritten from the old tile, and its clamped updates counted. -/
def writeCell (acc : SMap Int) (f : Nat → Nat → Int → Int × Nat) (st : SMap Int × Nat) (mn : Nat × Nat) : SMap Int × Nat :=
  (SMap.store st.1 (64 * mn.1 + mn.2) 0 (f mn.1 mn.2 (SMap.get acc (64 * mn.1 + mn.2) 0)).1,
    st.2 + (f mn.1 mn.2 (SMap.get acc (64 * mn.1 + mn.2) 0)).2)

theorem get_writeCells (acc : SMap Int) (f : Nat → Nat → Int → Int × Nat) (m n : Nat) (hn : n < 64) (cells : List (Nat × Nat)) :
    ∀ st : SMap Int × Nat, (∀ c ∈ cells, c.2 < 64) → SMap.get (cells.foldl (writeCell acc f) st).1 (64 * m + n) 0 =
      if (m, n) ∈ cells then (f m n (SMap.get acc (64 * m + n) 0)).1 else SMap.get st.1 (64 * m + n) 0 := by
  induction cells with
  | nil => simp
  | cons c cells ih =>
    intro st hc
    rw [List.foldl_cons, ih _ (fun d hd => hc d (List.mem_cons_of_mem _ hd))]
    by_cases here : (m, n) = c
    · subst here
      simp [writeCell]
    · have column : c.2 < 64 := hc c List.mem_cons_self
      have apart : 64 * m + n ≠ 64 * c.1 + c.2 := by
        intro same
        exact here (Prod.ext (by omega) (by omega))
      simp [writeCell, here, apart]

/-- An accumulator of the updated tile: rewritten where it is one of the cells, as it was where it is none. -/
theorem get_updateTile (acc : SMap Int) (cells : List (Nat × Nat)) (f : Nat → Nat → Int → Int × Nat) (hc : ∀ c ∈ cells, c.2 < 64)
    (m : Nat) {n : Nat} (hn : n < 64) : SMap.get (updateTile acc cells f).1 (64 * m + n) 0 =
      if (m, n) ∈ cells then (f m n (SMap.get acc (64 * m + n) 0)).1 else SMap.get acc (64 * m + n) 0 :=
  get_writeCells acc f m n hn cells (acc, 0) hc

/-! ### The issue rule (R88) -/

/-- A matrix instruction whose set, entry and rows are there goes on. -/
theorem mxGated_ready {o : TrayOp} {s : State} {x : Ctx} {tq fmt : Nat} {rows : List Nat} (h : CanIssue o s x)
    (ready : MatrixReady o s x tq fmt rows) (body : Ctx → State) :
    mxGated x o ((setGate (s.core x.core) x.slot (mxSet o) (mxZero o)).and
      ((commitGate (s.core x.core) (mxCommit o) tq).and (rowsGate (s.core x.core) x.L.context fmt rows))) body = body x := by
  obtain ⟨ecc, set, entry, row⟩ := ready
  obtain ⟨-, hc, hk⟩ := canIssue_place h
  rw [hc, hk, set, entry, row]
  simp only [mxGated, Gate.and, ecc]

/-! ### What the issue leaves of the sets and the entries (R90, R91) -/

theorem bankAdd_frame (s : State) (core bank : Nat) (count ovf : Fld) (n : Nat) :
    ∃ r, bankAdd s core bank count ovf n = { s with regs := r } := by
  unfold bankAdd
  dsimp only
  split
  · exact ⟨_, rfl⟩
  · split
    · exact ⟨_, rfl⟩
    · exact ⟨_, rfl⟩

/-- Counting what an instruction lost changes registers of the device only. -/
theorem addCrumbs_frame (s : State) (core launch : Nat) (k : Crumbs) : ∃ r, s.addCrumbs core launch k = { s with regs := r } := by
  have add : ∀ (t : State) b count ovf n, (∃ r, t = { s with regs := r }) → ∃ r, bankAdd t core b count ovf n = { s with regs := r } := by
    rintro _ b count ovf n ⟨r, rfl⟩
    exact bankAdd_frame _ core b count ovf n
  unfold State.addCrumbs
  split
  · exact ⟨_, rfl⟩
  · exact add _ _ _ _ _ (add _ _ _ _ _ (add _ _ _ _ _ (add _ _ _ _ _ (add _ _ _ _ _ (bankAdd_frame s _ _ _ _ _)))))

theorem addCrumbs_keepsTrays (s : State) (core launch : Nat) (k : Crumbs) : KeepsTrays s (s.addCrumbs core launch k) := by
  obtain ⟨r, e⟩ := addCrumbs_frame s core launch k
  rw [e]
  exact ⟨⟨_, _, rfl⟩, fun _ => rfl⟩

theorem core_addCrumbs (s : State) (core launch : Nat) (k : Crumbs) (n : Nat) : (s.addCrumbs core launch k).core n = s.core n := by
  obtain ⟨r, e⟩ := addCrumbs_frame s core launch k
  rw [e]
  rfl

/-- The core with a tile in the set of a matrix instruction, and its entry taken with COMMIT. -/
def storeTile (x : Ctx) (o : TrayOp) (tq : Nat) (tile : SMap Int) (sat : Nat) (c : Core) : Core :=
  let set : AccSet := {
    state := if mxCommit o then .draining else .openTile, owner := x.slot, acc := tile, sat := sat, final := false
    entry := tq, tag := mxTag o }
  let d := { c with sets := SMap.store c.sets (mxSet o) {} set, lastMop := x.L.serial, lastMopQueue := x.L.queue, mopIdle := 0 }
  if mxCommit o then { d with tq := SMap.store d.tq tq {} { state := .filling, sheet := x.t.sheet } } else d

section
variable (x : Ctx) (o : TrayOp) (tq : Nat) (tile : SMap Int) (sat : Nat) (c : Core)

theorem storeTile_trays : (storeTile x o tq tile sat c).trays = c.trays := by
  unfold storeTile
  dsimp only
  split
  · rfl
  · rfl

theorem storeTile_sets : (storeTile x o tq tile sat c).sets = SMap.store c.sets (mxSet o) {} {
    state := if mxCommit o then .draining else .openTile, owner := x.slot, acc := tile, sat := sat, final := false
    entry := tq, tag := mxTag o } := by
  unfold storeTile
  dsimp only
  split
  · rfl
  · rfl

theorem storeTile_tq (h : mxCommit o = true) :
    (storeTile x o tq tile sat c).tq = SMap.store c.tq tq {} { state := .filling, sheet := x.t.sheet } := by
  unfold storeTile
  dsimp only
  rw [if_pos h]

end

/-- The tile of the set before the instruction: none where ZERO clears it. -/
def startTile (o : TrayOp) (c : Core) : SMap Int := if mxZero o then [] else (c.accSet (mxSet o)).acc

theorem get_startTile (o : TrayOp) (s : State) (m n : Nat) :
    SMap.get (startTile o (s.core o.core)) (64 * m + n) 0 = accBefore o s m n := by
  unfold startTile accBefore
  split
  · rfl
  · rfl

/-- The state of the machine after a matrix instruction, but for its tray: the tile stored, what it clamped and the array's cycles
counted, its number taken. -/
def tileState (x : Ctx) (o : TrayOp) (tq occ : Nat) (tile : SMap Int) (n : Nat) : State :=
  let sat := min ((if mxZero o then 0 else ((x.s.core x.core).accSet (mxSet o)).sat) + n) 0xFFFFFFFF
  let stored := (x.s.mapCore x.core (storeTile x o tq tile sat)).addCrumbs x.core x.L.serial { sat := n }
  (stored.rbump Fld.CO_MX_ACTIVITY_BUSY occ x.core).mapCore x.core fun c => { c with nextSerial := c.nextSerial + 1 }

/-- What an MMA or SMMA whose operands are present does. -/
theorem mxIssue_eq (x : Ctx) (o : TrayOp) (tq occ : Nat) (cells : List (Nat × Nat)) (f : Nat → Nat → Int → Int × Nat) :
    let r := updateTile (startTile o (x.s.core x.core)) cells f
    ∃ pd, mxIssue x o tq occ cells f = Ctx.issueWith { x with s := tileState x o tq occ r.1 r.2 } 1 (some pd) := ⟨_, rfl⟩

section
variable (x : Ctx) (o : TrayOp) (tq occ : Nat) (tile : SMap Int) (n : Nat)

theorem tileState_keepsTrays : KeepsTrays x.s (tileState x o tq occ tile n) := by
  unfold tileState
  dsimp only
  refine .trans ?_ (mapCore_keepsTrays _ _ rfl)
  exact ((mapCore_keepsTrays _ _ (storeTile_trays ..)).trans (addCrumbs_keepsTrays ..)).trans (rbump_keepsTrays ..)

theorem core_tileState : ∃ sat serial, (tileState x o tq occ tile n).core x.core =
    { storeTile x o tq tile sat (x.s.core x.core) with nextSerial := serial } := by
  unfold tileState
  dsimp only
  rw [core_mapCore_same, core_rbump, core_addCrumbs, core_mapCore_same]
  exact ⟨_, _, rfl⟩

end

/-- A core in which `storeTile` has put a tile holds it as HoldsTile says. -/
theorem holdsTile_of_storeTile {o : TrayOp} {s t : State} {x : Ctx} {y : Tray} {tq sat : Nat} {tile : SMap Int} {val : Nat → Nat → Int}
    (slot : x.slot = o.slot.val) (sets : (t.core o.core).sets = (storeTile x o tq tile sat (s.core o.core)).sets)
    (entries : (t.core o.core).tq = (storeTile x o tq tile sat (s.core o.core)).tq)
    (hval : ∀ m n, m < 64 → n < 64 → SMap.get tile (64 * m + n) 0 = val m n) : HoldsTile o s x tq val t y := by
  rw [storeTile_sets] at sets
  have set : (t.core o.core).accSet (mxSet o) = { state := if mxCommit o then .draining else .openTile, owner := x.slot, acc := tile
                                                  sat := sat, final := false, entry := tq, tag := mxTag o } := by
    rw [Core.accSet, sets, SMap.get_store_same]
  have entry (commit : mxCommit o = true) : (t.core o.core).entry tq = { state := .filling, sheet := x.t.sheet } := by
    rw [Core.entry, entries, storeTile_tq (h := commit), SMap.get_store_same]
  unfold HoldsTile
  dsimp only
  rw [set]
  refine ⟨slot, rfl, hval, fun commit => ?_, fun j hj => ?_⟩
  · rw [entry commit]
    exact ⟨rfl, rfl, rfl, rfl⟩
  · rw [Core.accSet, sets, SMap.get_store_other _ _ _ _ _ _ hj]
    rfl

/-- A matrix instruction whose operands are present leaves the updated tile in its set. -/
theorem leaves_tile {i : Instr} {o : TrayOp} {s : State} {x : Ctx} {body : Ctx → State} {tq occ : Nat} {cells : List (Nat × Nat)}
    {f : Nat → Nat → Int → Int × Nat} {val : Nat → Nat → Int} (he : exec i s = .next (s.onClock (issueTray o s body)))
    (h : CanIssue o s x) (hb : body x = mxIssue x o tq occ cells f) (hc : ∀ c ∈ cells, c.2 < 64)
    (hval : ∀ m n, m < 64 → n < 64 →
      val m n = if (m, n) ∈ cells then (f m n (accBefore o s m n)).1 else accBefore o s m n) :
    Leaves i o s x (HoldsTile o s x tq val) := by
  obtain ⟨rfl, hcore, hslot⟩ := canIssue_place h
  obtain ⟨pd, issue⟩ := mxIssue_eq x o tq occ cells f
  refine leaves_of_issue he h (tileState_keepsTrays ..) (hb.trans issue) fun t y ts ht => ?_
  obtain ⟨sat, serial, stored⟩ := core_tileState x o tq occ (updateTile (startTile o (x.s.core x.core)) cells f).1
    (updateTile (startTile o (x.s.core x.core)) cells f).2
  rw [← hcore, stored] at ht
  refine holdsTile_of_storeTile hslot (sat := sat) (by rw [← hcore, ht]) (by rw [← hcore, ht]) fun m n hm hn => ?_
  rw [get_updateTile _ cells f hc m hn, hcore, get_startTile, hval m n hm hn]

/-! ### MMA (R86, R87, R94) and SMMA (R96, R97, R111) -/

theorem exec_mma (o : TrayOp) (s : State) : exec (.mma o) s = .next (s.onClock (doMma o s)) := rfl

theorem exec_smma (o : TrayOp) (s : State) : exec (.smma o) s = .next (s.onClock (doSmma o s)) := rfl

/-- MMA with its operands there. -/
theorem mma_leaves {o : TrayOp} {s : State} {x : Ctx} (h : CanIssue o s x) :
    let w := mxStepsPerCycle (mxFmtA o) (mxFmtB o)
    let occ := 2 * (o.fld 0 3 + 1)
    let na := fragRegs (mxFmtA o) (occ * w)
    let nb := fragRegs (mxFmtB o) (occ * w)
    MatrixReady o s x (o.fld 46 2) (mxFmtB o) (mmaRows o (occ * w)) → o.fld 40 2 = 0 → o.fld 22 2 ≠ 3 →
    runLegal x.L o.srcA.toNat na = true → (o.fld 22 2 = 2 → 1 ≤ o.fld 42 4 ∧ o.fld 42 4 ≤ 9) → (o.fld 22 2 ≠ 2 → o.fld 42 4 = 0) →
    (o.fld 22 2 = 0 → runLegal x.L o.srcB.toNat nb = true) → (o.fld 22 2 ≠ 0 → o.fld 24 1 = 0 ∧ o.fld 25 4 ≤ 8) →
    x.clear (x.guards ++ ((List.range na).map (fun i => o.srcA.toNat + i) ++
      (if o.fld 22 2 = 0 then (List.range nb).map (fun i => o.srcB.toNat + i) else []))) = true →
    Leaves (.mma o) o s x (HoldsTile o s x (o.fld 46 2) (fun m n =>
      accumulated (fun k => fragElem x o.srcA.toNat (mxFmtA o) (mxSA o) m k) (fun k => mmaB o s x k n) w occ (mxNeg o)
        (accBefore o s m n))) := by
  intro w occ na nb ready clean source legalA width noWidth legalB legalRow operands
  refine leaves_tile (exec_mma o s) h ((withRegs_legal x _ _ ?legal operands).trans (mxGated_ready h ready _)) ?columns ?tile
  case legal =>
    simp only [Bool.and_eq_true, decide_eq_true_eq]
    refine ⟨⟨⟨⟨clean, source⟩, legalA⟩, ?_⟩, ?_⟩
    · split
      · next grid => simpa only [Bool.and_eq_true, decide_eq_true_eq] using width grid
      · next noGrid => exact decide_eq_true (noWidth noGrid)
    · split
      · next registers => exact legalB registers
      · next rows => simpa only [Bool.and_eq_true, decide_eq_true_eq] using legalRow rows
  case columns =>
    rintro ⟨m, n⟩ hc
    have column := (mem_cellsOf 64 0 64 m n).mp hc
    omega
  case tile =>
    intro m n hm hn
    rw [if_pos ((mem_cellsOf 64 0 64 m n).mpr ⟨hm, Nat.zero_le n, by omega⟩), mmaCell_fst, canIssue_core h]
    rfl

/-- SMMA with its operands there. -/
theorem smma_leaves {o : TrayOp} {s : State} {x : Ctx} (h : CanIssue o s x) :
    let cols := (o.fld 0 3 + 1) * (mxFields (mxFmtB o) / 2)
    MatrixReady o s x (o.fld 40 2) (mxFmtA o) ((List.range (o.fld 34 3 + 1)).map (fun i => (o.fld 37 3 + i) % 8)) →
    o.fld 32 2 = 0 → o.fld 22 2 = 0 → runLegal x.L o.srcB.toNat (o.fld 0 3 + 1) = true → o.fld 42 6 + cols ≤ 64 →
    x.clear (x.guards ++ (List.range (o.fld 0 3 + 1)).map (fun i => o.srcB.toNat + i)) = true →
    Leaves (.smma o) o s x (HoldsTile o s x (o.fld 40 2) (fun i n =>
      if i ≤ o.fld 34 3 ∧ o.fld 42 6 ≤ n ∧ n < o.fld 42 6 + cols then
        clampAcc (accBefore o s i n + (if mxNeg o then -1 else 1) *
          products (fun k => rowElem (s.core o.core) ((o.fld 37 3 + i) % 8) (mxFmtA o) (mxSA o) k)
            (fun k => fragElem x o.srcB.toNat (mxFmtB o) (mxSB o) k (n - o.fld 42 6)) 0 64)
      else accBefore o s i n)) := by
  intro cols ready clean source legalB inside operands
  have legal : (decide (o.fld 32 2 = 0) && decide (o.fld 22 2 = 0) && runLegal x.L o.srcB.toNat (o.fld 0 3 + 1) &&
      decide (o.fld 42 6 + cols ≤ 64)) = true := by
    simp [clean, source, legalB, inside]
  refine leaves_tile (exec_smma o s) h ((withRegs_legal x _ _ legal operands).trans (mxGated_ready h ready _)) ?columns ?tile
  case columns =>
    rintro ⟨i, n⟩ hc
    have column := (mem_cellsOf _ _ cols i n).mp hc
    omega
  case tile =>
    intro i n _ _
    simp only [mem_cellsOf, Nat.lt_succ_iff, accUpdate_fst, signed_products, canIssue_core h]
    rfl

/-- Settles O16: MMA and SMMA accumulate the exact products of their operands, each update clamped. -/
theorem matrixProducts : Obligations.MatrixProducts := fun _ _ _ h => ⟨mma_leaves h, smma_leaves h⟩

end Sys2Proof.Proofs.MatrixProducts
end

section
/-!
Proofs of the statement about FLD and RHLD (R83, R93, R98), O17: the fields of a register that is put together from elements, the
scratchpad's part of the issue rule, and each of the two loads.
-/
open Sys2Proof Sys2Proof.Machine Sys2Proof.Claims Sys2Proof.Proofs.TrayIssue Sys2Proof.Proofs.LaneResults

namespace Sys2Proof.Proofs.PanelLoads

/-! ### Elements packed into a register (R83) -/

/-- The number whose `n` fields of `w` bits are the values of `f`. -/
def joined (f : Nat → Nat) (w n : Nat) : Nat := (List.range n).foldl (fun acc e => acc + f e * 2 ^ (w * e)) 0

theorem joined_succ (f : Nat → Nat) (w n : Nat) : joined f w (n + 1) = 2 ^ (w * n) * f n + joined f w n := by
  simp [joined, List.range_succ, Nat.mul_comm, Nat.add_comm]

theorem joined_lt {f : Nat → Nat} {w : Nat} (hf : ∀ e, f e < 2 ^ w) (n : Nat) : joined f w n < 2 ^ (w * n) := by
  induction n with
  | zero => simp [joined]
  | succ n ih =>
    calc joined f w (n + 1) = 2 ^ (w * n) * f n + joined f w n := joined_succ f w n
      _ < 2 ^ (w * n) * (f n + 1) := by rw [Nat.mul_add]; omega
      _ ≤ 2 ^ (w * n) * 2 ^ w := Nat.mul_le_mul_left _ (hf n)
      _ = 2 ^ (w * (n + 1)) := by rw [← Nat.pow_add, Nat.mul_succ]

/-- A field of the number reads back its value. -/
theorem bits_joined {f : Nat → Nat} {w : Nat} (hf : ∀ e, f e < 2 ^ w) {n e : Nat} (he : e < n) : bits (joined f w n) (w * e) w = f e := by
  induction n with
  | zero => omega
  | succ n ih =>
    rw [joined_succ]
    by_cases last : e = n
    · subst last
      rw [bits, Nat.shiftRight_eq_div_pow, Nat.mul_add_div (Nat.two_pow_pos _), Nat.div_eq_of_lt (joined_lt hf e), Nat.add_zero,
        Nat.mod_eq_of_lt (hf e)]
    · rw [← ih (by omega)]
      apply Nat.eq_of_testBit_eq
      intro i
      have field : w * (e + 1) ≤ w * n := Nat.mul_le_mul_left w (by omega)
      rw [Nat.mul_succ] at field
      rw [bits_testBit, bits_testBit, Nat.testBit_two_pow_mul_add _ (joined_lt hf n)]
      by_cases inside : i < w
      · rw [if_pos (by omega)]
      · simp [inside]

theorem mxFields_mul_mxWidth (fmt : Nat) : mxWidth fmt * mxFields fmt = 32 := by
  unfold mxFields mxWidth
  split
  · rfl
  · split
    · rfl
    · rfl

theorem packedField_lt (s : State) (a w p : Nat) : packedField s a w p < 2 ^ w := bits_lt _ _ _

theorem packedField_eq (s : State) (a w p : Nat) : packedField s a w p = packed s a w p := by
  simp [packedField, packed, bits, Nat.shiftRight_eq_div_pow]

/-! ### The scratchpad (R74, R150, R185) -/

/-- An instruction whose panel is there reads it. -/
theorem scratchGate_ready {o : TrayOp} {s : State} {x : Ctx} {h : Sheet} {off len : Nat} (hx : CanIssue o s x)
    (ready : PanelReady o s x h off len) (body : Ctx → Sheet → State) : scratchGate x o.unitEcc off len body = body x h := by
  obtain ⟨sheet, ecc, bound, free, clean⟩ := ready
  obtain ⟨hs, hc, -⟩ := canIssue_place hx
  rw [← hs, ← hc] at free clean
  simp [scratchGate, sheet, ecc, free, clean, Nat.not_lt.mpr bound]

/-! ### FLD (R98) -/

theorem exec_fld (o : TrayOp) (s : State) : exec (.fld o) s = .next (s.onClock (doFld o s)) := rfl

/-- The panel of FLD at offset `off` of the sheet: element `e` of register `j` of a lane. -/
def panelElem (o : TrayOp) (x : Ctx) (h : Sheet) (off stride j lane e : Nat) : Nat :=
  let fmt := o.fld 8 2
  packedField x.s (h.addr x.core off + (mxFields fmt / 2 * j + e / 2) * stride) (mxWidth fmt) (lane + 32 * (e % 2))

/-- The result of FLD in flight. -/
def fldPend (o : TrayOp) (x : Ctx) (h : Sheet) (off stride : Nat) : Pend :=
  let n := o.fld 10 3 + 1
  let fmt := o.fld 8 2
  { serial := x.serial, kind := .fragment, regs := (List.range n).map (fun i => o.dst.toNat + i)
    writes := runWrites o.dst.toNat n x.on fun j lane =>
      BitVec.ofNat 32 (joined (panelElem o x h off stride j lane) (mxWidth fmt) (mxFields fmt)) }

theorem bits_panelRegister (o : TrayOp) (x : Ctx) (h : Sheet) (off stride j lane : Nat) {e : Nat} (he : e < mxFields (o.fld 8 2)) :
    bits (BitVec.ofNat 32 (joined (panelElem o x h off stride j lane) (mxWidth (o.fld 8 2)) (mxFields (o.fld 8 2)))).toNat
      (mxWidth (o.fld 8 2) * e) (mxWidth (o.fld 8 2)) = panelElem o x h off stride j lane e := by
  have elem : ∀ k, panelElem o x h off stride j lane k < 2 ^ mxWidth (o.fld 8 2) := fun _ => packedField_lt _ _ _ _
  have whole := joined_lt elem (mxFields (o.fld 8 2))
  rw [mxFields_mul_mxWidth] at whole
  rw [BitVec.toNat_ofNat, Nat.mod_eq_of_lt whole, bits_joined elem he]

/-- FLD with its operands and its panel there. -/
theorem fld_inFlight {o : TrayOp} {s : State} {x : Ctx} {h : Sheet} {l : Nat} (hx : CanIssue o s x) (lowest : Mask.lowest x.on = some l) :
    let n := o.fld 10 3 + 1
    let fmt := o.fld 8 2
    let w := mxWidth fmt
    let half := mxFields fmt / 2
    let off := x.src64 o.srcA.toNat l
    let stride := x.src o.srcB.toNat l
    o.fld 16 8 = 0 → o.fld 0 8 = 0 → runLegal x.L o.dst.toNat n = true → legalSrc64 x.L o.srcA.toNat = true →
    legalSrc x.L o.srcB.toNat = true → off % 4 = 0 → stride % 4 = 0 →
    PanelReady o s x h off ((n * half - 1) * stride + 64 * w / 8) →
    x.clear (x.guards ++ ((List.range n).map (fun i => o.dst.toNat + i) ++ regsOf o.srcA.toNat 2 ++ regsOf o.srcB.toNat 1)) = true →
    InFlight (.fld o) o s x (fun y pd =>
      (∀ r q, q < 32 → ¬(Mask.has x.on q = true ∧ o.dst.toNat ≤ r ∧ r < o.dst.toNat + n) →
        (y.finish pd false).reg r q = x.t.reg r q) ∧
      (∀ j q e, j < n → q < 32 → Mask.has x.on q = true → e < mxFields fmt →
        bits ((y.finish pd false).reg (o.dst.toNat + j) q).toNat (w * e) w =
          packed s (h.addr o.core off + (half * j + e / 2) * stride) w (q + 32 * (e % 2))) ∧
      (y.finish pd false).preds = x.t.preds) := by
  intro n fmt w half off stride cleanC cleanLow legalDst legalA legalB offset pitch panel operands
  obtain ⟨rfl, hcore, -⟩ := canIssue_place hx
  refine inFlight_of_issue (words := 1) (p := fldPend o x h off stride) (exec_fld o _) hx (bumpSerial_keepsTrays x)
    ((withRegs_legal x _ _ ?legal operands).trans ?runs) ?result
  case legal => simp [cleanC, cleanLow, legalDst, legalA, legalB, n]
  case runs =>
    have aligned : ¬(off % 4 ≠ 0 ∨ stride % 4 ≠ 0) := by simp [offset, pitch]
    rw [lowest]
    exact (if_neg aligned).trans (scratchGate_ready hx panel _)
  case result =>
    intro y issued
    have value (r : Nat) {q : Nat} (hq : q < 32) := finish_runWrites issued (fldPend o x h off stride) rfl rfl r hq
    refine ⟨fun r q hq outside => ?_, fun j q e hj hq on he => ?_, finish_preds issued _ rfl⟩
    · rw [value r hq, if_neg outside]
    · rw [value _ hq, if_pos ⟨on, by omega, by omega⟩, Nat.add_sub_cancel_left, bits_panelRegister o x h off stride j q he,
        panelElem, packedField_eq, hcore]

/-! ### RHLD (R93) -/

theorem exec_rhld (o : TrayOp) (s : State) : exec (.rhld o) s = .next (s.onClock (doRhld o s)) := rfl

/-- The 72 elements at offset `off` of the sheet. -/
def rowFields (x : Ctx) (h : Sheet) (off fmt : Nat) : List Nat :=
  (List.range 72).map fun p => packedField x.s (h.addr x.core off) (mxWidth fmt) p

/-- RHLD with its operand and its panel there. -/
theorem rhld_inFlight {o : TrayOp} {s : State} {x : Ctx} {h : Sheet} {l : Nat} (hx : CanIssue o s x) (lowest : Mask.lowest x.on = some l) :
    let fmt := o.fld 8 2
    let off := x.src64 o.srcA.toNat l
    o.dst = 0 → o.srcB = 0 → o.srcC = 0 → o.fld 0 8 = 0 → legalSrc64 x.L o.srcA.toNat = true → off % 2 = 0 →
    rowLoading (s.core o.core) (o.fld 10 3) = false → PanelReady o s x h off (72 * mxWidth fmt / 8) →
    x.clear (x.guards ++ regsOf o.srcA.toNat 2) = true →
    InFlight (.rhld o) o s x (fun y pd =>
      (∃ elems, pd.kind = .row (o.fld 10 3) fmt elems ∧ elems.length = 72 ∧
        ∀ p, p < 72 → elems.getD p 0 = packed s (h.addr o.core off) (mxWidth fmt) p) ∧
      (y.finish pd false).regs = x.t.regs ∧ (y.finish pd false).preds = x.t.preds) := by
  intro fmt off noDst noB noC cleanLow legalA offset idle panel operands
  obtain ⟨rfl, hcore, -⟩ := canIssue_place hx
  refine inFlight_of_issue (words := 1) (p := { serial := x.serial, kind := .row (o.fld 10 3) fmt (rowFields x h off fmt) })
    (exec_rhld o _) hx (bumpSerial_keepsTrays x) ((withRegs_legal x _ _ ?legal operands).trans ?runs) ?result
  case legal => simp [noDst, noB, noC, cleanLow, legalA]
  case runs =>
    have loaded : ¬(rowLoading (x.s.core x.core) (o.fld 10 3) = true) := by simp [hcore, idle]
    have aligned : ¬(off % 2 ≠ 0) := by simp [offset]
    rw [lowest]
    exact (if_neg loaded).trans ((if_neg aligned).trans (scratchGate_ready hx panel _))
  case result =>
    intro y issued
    refine ⟨⟨rowFields x h off fmt, rfl, ?_, fun p hp => ?_⟩, issued.regs, finish_preds issued _ rfl⟩
    · simp [rowFields]
    · simp [rowFields, hp, packedField_eq, hcore]

/-- Settles O17: FLD brings a panel into fragment registers, RHLD 72 elements into a row. -/
theorem panelLoads : Obligations.PanelLoads := fun _ _ _ _ _ hx lowest => ⟨fld_inFlight hx lowest, rhld_inFlight hx lowest⟩

end Sys2Proof.Proofs.PanelLoads
end

section
/-!
Proofs of the statement about row-hold rows, tile-queue entries, accumulator sets, drains and sugar cycles (R82, R90 to R92, R100,
R114), O18: what RHCLR, TRD, TQDROP and ACLR do to the core, and the two events of the array.
-/
open Sys2Proof Sys2Proof.Machine Sys2Proof.Claims Sys2Proof.Proofs.TrayIssue Sys2Proof.Proofs.LaneResults

namespace Sys2Proof.Proofs.TilesAndRows

/-! ### Rows, entries and sets of a core -/

theorem row_del (c : Core) (r k : Nat) : ({ c with rows := SMap.del c.rows r } : Core).row k = if k = r then {} else c.row k := by
  unfold Core.row
  split
  · next same => rw [same, SMap.get_del_same]
  · next other => exact SMap.get_del_other _ _ _ _ other

theorem entry_freeEntry_same (c : Core) (i : Nat) : (c.freeEntry i).entry i = {} := SMap.get_store_same c.tq i {} {}

theorem entry_freeEntry_other (c : Core) {i j : Nat} (h : j ≠ i) : (c.freeEntry i).entry j = c.entry j :=
  SMap.get_store_other c.tq i j {} {} {} h

theorem accSet_freeSet_same (c : Core) (i : Nat) : (c.freeSet i).accSet i = {} := SMap.get_store_same c.sets i {} {}

theorem accSet_freeSet_other (c : Core) {i j : Nat} (h : j ≠ i) : (c.freeSet i).accSet j = c.accSet j :=
  SMap.get_store_other c.sets i j {} {} {} h

/-- The core without the rows of a list that a mask names (R82). -/
def dropRows (mask : Nat) (rs : List Nat) (c : Core) : Core :=
  rs.foldl (fun (c : Core) r => if Nat.testBit mask r then { c with rows := SMap.del c.rows r } else c) c

theorem dropRows_trays (mask : Nat) (rs : List Nat) (c : Core) : (dropRows mask rs c).trays = c.trays := by
  refine foldl_keeps (fun d : Core => d.trays = c.trays) _ (fun d r hd => ?_) rs c rfl
  split
  · exact hd
  · exact hd

theorem row_dropRows (mask : Nat) (rs : List Nat) : ∀ (c : Core) (k : Nat),
    (dropRows mask rs c).row k = if k ∈ rs ∧ Nat.testBit mask k = true then {} else c.row k := by
  induction rs with
  | nil => simp [dropRows]
  | cons r rs ih =>
    intro c k
    have step : dropRows mask (r :: rs) c =
        dropRows mask rs (if Nat.testBit mask r then { c with rows := SMap.del c.rows r } else c) := rfl
    rw [step, ih]
    by_cases same : k = r
    · subst same
      by_cases named : Nat.testBit mask k = true
      · simp [named, row_del]
      · simp [named]
    · have kept : (if Nat.testBit mask r then { c with rows := SMap.del c.rows r } else c : Core).row k = c.row k := by
        split
        · rw [row_del, if_neg same]
        · rfl
      simp [kept, same]

/-! ### Instructions that change the core and issue -/

section
variable {i : Instr} {o : TrayOp} {s : State} {x : Ctx} {body : Ctx → State} {P : State → Tray → Prop}

/-- An instruction that changes its core by `f` and issues without a result. -/
theorem leaves_of_core {f : Core → Core} (he : exec i s = .next (s.onClock (issueTray o s body))) (h : CanIssue o s x)
    (hf : ∀ c, (f c).trays = c.trays) (hb : body x = Ctx.issueWith { x with s := x.s.mapCore x.core f } 1 none)
    (hP : ∀ t y ts, t.core o.core = { f (s.core o.core) with trays := ts } → P t y) : Leaves i o s x P := by
  obtain ⟨rfl, hcore, -⟩ := canIssue_place h
  refine leaves_of_issue he h (mapCore_keepsTrays x.s x.core (hf _)) hb fun t y ts ht => hP t y ts ?_
  rw [ht, ← hcore, core_mapCore_same]

/-- An instruction that only issues. -/
theorem leaves_unchanged (he : exec i s = .next (s.onClock (issueTray o s body))) (h : CanIssue o s x)
    (hb : body x = x.issueWith 1 none) (hP : ∀ t y ts, t.core o.core = { s.core o.core with trays := ts } → P t y) :
    Leaves i o s x P := by
  obtain ⟨rfl, -, -⟩ := canIssue_place h
  exact leaves_of_issue he h (.refl x.s) hb hP

end

/-- The entry's part of the issue rule lets its sheet's trays read a READY entry (R88). -/
theorem entryGate_ready {o : TrayOp} {s : State} {x : Ctx} {i : Nat} (h : CanIssue o s x)
    (ready : ((s.core o.core).entry i).state = .ready) (owner : ((s.core o.core).entry i).sheet = x.t.sheet) :
    entryGate (s.core x.core) x.t.sheet i = .go := by
  rw [canIssue_core h]
  simp [entryGate, ready, owner]

/-- The result of TRD of entry `e` in flight. -/
def tileReadPend (o : TrayOp) (x : Ctx) (e : TqEntry) : Pend :=
  let n := o.fld 8 3 + 1
  { serial := x.serial, kind := .tileRead, longLatency := true, regs := (List.range n).map (fun j => o.dst.toNat + j)
    writes := runWrites o.dst.toNat n x.on fun j l => BitVec.ofInt 32 (SMap.get e.vals (32 * (o.fld 1 7 + j) + l) 0) }

section
variable {o : TrayOp} {s : State} {x : Ctx} (h : CanIssue o s x) (on : x.on ≠ 0) (noA : o.srcA = 0) (noB : o.srcB = 0) (noC : o.srcC = 0)
include h on noA noB noC

/-! ### RHCLR (R82) -/

/-- RHCLR invalidates the rows of its mask and leaves the others. -/
theorem rhclr_leaves (noDst : o.dst = 0) (clean : o.fld 8 5 = 0) (operands : x.clear x.guards = true) :
    Leaves (.rhclr o) o s x (fun t _ => ∀ r, r < 8 →
      (t.core o.core).row r = if Nat.testBit (o.fld 0 8) r then {} else (s.core o.core).row r) := by
  refine leaves_of_core (f := dropRows (o.fld 0 8) (List.range 8)) rfl h (dropRows_trays _ _)
    ((withRegs_legal x [] _ (by simp [noDst, noA, noB, noC, clean]) (by simpa using operands)).trans (if_neg on)) ?_
  intro t y ts ht r hr
  rw [ht]
  show (dropRows (o.fld 0 8) (List.range 8) (s.core o.core)).row r = _
  simp [row_dropRows, hr]

/-! ### TRD and TQDROP (R91, R92) -/

/-- TRD brings part of a READY entry into registers; the result is in flight. -/
theorem trd_inFlight : let e := (s.core o.core).entry (o.fld 11 2)
    let n := o.fld 8 3 + 1
    e.state = .ready → e.sheet = x.t.sheet → o.unitEcc = .clean → o.fld 0 1 = 0 → o.fld 1 7 + n ≤ 128 →
    runLegal x.L o.dst.toNat n = true → x.clear (x.guards ++ (List.range n).map (fun j => o.dst.toNat + j)) = true →
    InFlight (.trd o) o s x (fun y pd =>
      (∀ r l, l < 32 → (y.finish pd false).reg r l =
        if Mask.has x.on l ∧ o.dst.toNat ≤ r ∧ r < o.dst.toNat + n then
          BitVec.ofInt 32 (SMap.get e.vals (32 * (o.fld 1 7 + (r - o.dst.toNat)) + l) 0)
        else x.t.reg r l) ∧
      (y.finish pd false).preds = x.t.preds) := by
  intro e n ready owner ecc clean inside legalDst operands
  obtain ⟨rfl, hcore, -⟩ := canIssue_place h
  refine inFlight_of_issue (words := 1) (p := tileReadPend o x e) rfl h (bumpSerial_keepsTrays x)
    ((withRegs_legal x _ _ ?legal operands).trans ((if_neg on).trans ?runs)) fun y issued => ?result
  case legal => simp [noA, noB, noC, clean, legalDst, inside, n]
  case runs =>
    have entry : (x.s.core x.core).entry (o.fld 11 2) = e := by rw [hcore]
    dsimp only
    rw [entryGate_ready h ready owner]
    simp only [entryEcc, ecc, entry]
    rfl
  case result =>
    exact ⟨fun r l hl => finish_runWrites issued (tileReadPend o x e) rfl rfl r hl, finish_preds issued _ rfl⟩

/-- TQDROP frees the entry and leaves the others. -/
theorem tqdrop_leaves (ready : ((s.core o.core).entry (o.fld 11 2)).state = .ready)
    (owner : ((s.core o.core).entry (o.fld 11 2)).sheet = x.t.sheet) (noDst : o.dst = 0) (clean : o.fld 0 11 = 0)
    (operands : x.clear x.guards = true) :
    Leaves (.tqdrop o) o s x (fun t _ => ((t.core o.core).entry (o.fld 11 2)).state = .free ∧
      ∀ j, j ≠ o.fld 11 2 → (t.core o.core).entry j = (s.core o.core).entry j) := by
  obtain ⟨rfl, hcore, -⟩ := canIssue_place h
  refine leaves_of_core (f := fun c => c.freeEntry (o.fld 11 2)) rfl h (fun _ => rfl)
    ((withRegs_legal x [] _ ?legal (by simpa using operands)).trans ((if_neg on).trans ?runs)) fun t y ts ht => ?after
  case legal => simp [noDst, noA, noB, noC, clean]
  case runs => rw [entryGate_ready h ready owner]
  case after =>
    have entry (j : Nat) : (t.core o.core).entry j = ((x.s.core o.core).freeEntry (o.fld 11 2)).entry j := by
      rw [ht]
      rfl
    refine ⟨?_, fun j hj => ?_⟩
    · rw [entry, entry_freeEntry_same]
    · rw [entry, entry_freeEntry_other _ hj]

/-! ### ACLR (R90) -/

/-- ACLR discards the tray's own open tile; a set that is not the tray's stays as it was. -/
theorem aclr_leaves : let a := (s.core o.core).accSet (o.fld 12 1)
    o.dst = 0 → o.fld 0 12 = 0 → a.state ≠ .draining → x.clear x.guards = true →
    Leaves (.aclr o) o s x (fun t _ =>
      (t.core o.core).accSet (o.fld 12 1) = (if a.state = .openTile ∧ a.owner = o.slot.val then {} else a) ∧
      ∀ j, j ≠ o.fld 12 1 → (t.core o.core).accSet j = (s.core o.core).accSet j) := by
  intro a noDst clean notDraining operands
  obtain ⟨-, hcore, hslot⟩ := canIssue_place h
  have legal : (decide (o.dst = 0) && decide (o.srcA = 0) && decide (o.srcB = 0) && decide (o.srcC = 0) &&
      decide (o.fld 0 12 = 0)) = true := by
    simp [noDst, noA, noB, noC, clean]
  have runs (body : State) := withRegs_legal x [] body legal (by simpa using operands)
  by_cases own : a.state = .openTile ∧ a.owner = o.slot.val
  · obtain ⟨opened, owner⟩ := own
    refine leaves_of_core (f := fun c => c.freeSet (o.fld 12 1)) rfl h (fun _ => rfl)
      ((runs _).trans ((if_neg on).trans ?freed)) fun t y ts ht => ?cleared
    case freed =>
      rw [hcore, opened, hslot]
      exact if_pos owner
    case cleared =>
      have set (j : Nat) : (t.core o.core).accSet j = ((s.core o.core).freeSet (o.fld 12 1)).accSet j := by
        rw [ht]
        rfl
      refine ⟨?_, fun j hj => ?_⟩
      · rw [set, accSet_freeSet_same, if_pos ⟨opened, owner⟩]
      · rw [set, accSet_freeSet_other _ hj]
  · refine leaves_unchanged rfl h ((runs _).trans ((if_neg on).trans ?kept)) fun t y ts ht => ?same
    case kept =>
      cases state : a.state with
      | free => rw [hcore, state]
      | openTile =>
        rw [hcore, state, hslot]
        exact if_neg fun owner => own ⟨state, owner⟩
      | draining => exact absurd state notDraining
    case same =>
      have set (j : Nat) : (t.core o.core).accSet j = (s.core o.core).accSet j := by
        rw [ht]
        rfl
      exact ⟨by rw [set, if_neg own], fun j _ => set j⟩

end

/-! ### The end of a drain (R90, R91, R114) -/

/-- A core in which the drain of a set has ended. -/
def drained (set : Nat) (c : Core) : Core :=
  let a := c.accSet set
  let full : TqEntry := { state := .ready, sheet := (c.entry a.entry).sheet, vals := a.acc, tag := a.tag, sat := a.sat }
  { c with tq := SMap.put c.tq a.entry full }.freeSet set

theorem core_beside (s u : State) (n : Nat) : (s.beside u).core n = u.core n := rfl

theorem tray_beside (s u : State) (n k : Nat) : (s.beside u).tray n k = u.tray n k := rfl

/-- The state in which the drain of a core's set has ended. -/
def drainEnded (s : State) (core set : Nat) : State :=
  (s.mapCore core (drained set)).mapTray core ((s.core core).accSet set).owner (fun t => t.dropCommit set)

section
variable {s : State} {core set : Nat}

/-- The drain of a final set ends while the sheet of its entry is resident. -/
theorem doDrainEnd_eq (state : ((s.core core).accSet set).state = .draining) (final : ((s.core core).accSet set).final = true)
    (sheet : ((s.core core).sheet? ((s.core core).entry ((s.core core).accSet set).entry).sheet).isSome = true) :
    doDrainEnd core set s = drainEnded s core set := by
  simp [doDrainEnd, drainEnded, State.mapCore, drained, state, final, sheet]

theorem core_drainEnded : ∃ ts, (drainEnded s core set).core core = { drained set (s.core core) with trays := ts } :=
  ⟨_, by rw [drainEnded, State.mapTray, core_mapCore_same, core_mapCore_same]⟩

theorem entry_drainEnded (i : Nat) : ((drainEnded s core set).core core).entry i = (drained set (s.core core)).entry i := by
  obtain ⟨ts, e⟩ := core_drainEnded (s := s) (core := core) (set := set)
  rw [e]
  rfl

theorem accSet_drainEnded (j : Nat) : ((drainEnded s core set).core core).accSet j = ((s.core core).freeSet set).accSet j := by
  obtain ⟨ts, e⟩ := core_drainEnded (s := s) (core := core) (set := set)
  rw [e]
  rfl

theorem tray_drainEnded {y : Tray} (h : s.tray core ((s.core core).accSet set).owner = some y) :
    (drainEnded s core set).tray core ((s.core core).accSet set).owner = some (y.dropCommit set) := by
  have before : (s.mapCore core (drained set)).tray core ((s.core core).accSet set).owner = some y := by
    rw [State.tray, core_mapCore_same]
    exact h
  rw [drainEnded, tray_mapTray_same, before]
  rfl

theorem dropCommit_pend (t : Tray) (set : Nat) {p : Pend} (h : p ∈ (t.dropCommit set).pend) (q : Nat) : p.kind ≠ .matrix set (some q) := by
  intro kind
  simp [Tray.dropCommit, kind] at h

end

/-- A drain that ends fills its entry, frees its set, and takes the committing instruction out of the owner's scoreboard (R89). -/
theorem drainEnd_done {s : State} {core : Fin 192} (running : s.clocked = true) (set : Fin 2) :
    let a := (s.core core).accSet set
    let e := (s.core core).entry a.entry
    a.state = .draining → a.final = true → ((s.core core).sheet? e.sheet).isSome = true →
    ∃ t, exec (.accumulatorDrainEnd core set) s = .next t ∧ t.mem = s.mem ∧
      (t.core core).entry a.entry = { state := .ready, sheet := e.sheet, vals := a.acc, tag := a.tag, sat := a.sat } ∧
      (t.core core).accSet set = {} ∧ (∀ j, j ≠ set.val → (t.core core).accSet j = (s.core core).accSet j) ∧
      ∀ y, s.tray core a.owner = some y → ∃ z, t.tray core a.owner = some z ∧ z.regs = y.regs ∧ z.preds = y.preds ∧
        ∀ p ∈ z.pend, ∀ q, p.kind ≠ .matrix set (some q) := by
  intro a e state final sheet
  have ends : exec (.accumulatorDrainEnd core set) s = .next (s.beside (drainEnded s core set)) := by
    rw [← doDrainEnd_eq state final sheet, ← onClock_running s _ running]
    rfl
  have core_eq : (s.beside (drainEnded s core set)).core core = (drainEnded s core set).core core := core_beside s _ core
  refine ⟨_, ends, ?memory, ?entry, ?set, fun j hj => ?other, fun y hy => ⟨y.dropCommit set, ?tray, rfl, rfl, ?pend⟩⟩
  case memory => rw [beside_mem, drainEnded, mapTray_mem, mapCore_mem]
  case entry =>
    rw [core_eq, entry_drainEnded]
    exact SMap.get_put_same (s.core core).tq a.entry _ _
  case set => rw [core_eq, accSet_drainEnded, accSet_freeSet_same]
  case other => rw [core_eq, accSet_drainEnded, accSet_freeSet_other _ hj]
  case tray => rw [tray_beside, tray_drainEnded hy]
  case pend => exact fun p hp q => dropCommit_pend y set hp q

/-! ### Sugar cycles (R100) -/

/-- The state in which a sugar cycle of a core has been counted. -/
def sugarCounted (s : State) (core : Nat) : State :=
  (s.mapCore core fun c => { c with mopIdle := c.mopIdle + 1 }).rbump Fld.CO_MX_ACTIVITY_SUGAR 1 core

/-- What queues are charged (R101) is apart from everything that a sugar cycle shows. -/
def charged (s u : State) (m : SMap Nat) : State := s.beside { u with sugar := m }

section
variable (s u : State) (m : SMap Nat)

theorem mem_charged : (charged s u m).mem = u.mem := rfl

theorem core_charged (n : Nat) : (charged s u m).core n = u.core n := rfl

theorem rget_charged (f : Fld) (i : Nat) : (charged s u m).rget f i = u.rget f i := rfl

end

/-- A sugar cycle is counted, and charged to a queue. -/
theorem sugarCycle_eq {s : State} {core : Fin 192} (running : s.clocked = true)
    (used : ((s.core core).accSet 0).state ≠ .free ∨ ((s.core core).accSet 1).state ≠ .free) (cores : coresRun s = true)
    (tail : (s.core core).mopIdle < sugarTail s core) :
    ∃ m, exec (.sugarCycle core) s = .next (charged s (sugarCounted s core) m) := by
  have busy : (((s.core core).accSet 0).state != .free || ((s.core core).accSet 1).state != .free) = true := by
    simpa using used
  have inside : (((s.core core).accSet 0).state != .free || ((s.core core).accSet 1).state != .free) &&
      decide ((s.core core).mopIdle < sugarTail s core) && coresRun s := by
    rw [busy, decide_eq_true tail, cores]
    rfl
  have cycle : exec (.sugarCycle core) s = .next (s.onClock (doSugarCycle core s)) := rfl
  exact ⟨_, cycle.trans (congrArg Host.Outcome.next ((onClock_running s _ running).trans (congrArg s.beside (if_pos inside))))⟩

theorem mem_sugarCounted (s : State) (core : Nat) : (sugarCounted s core).mem = s.mem := by
  rw [sugarCounted, rbump_mem, mapCore_mem]

theorem core_sugarCounted (s : State) (core : Nat) :
    (sugarCounted s core).core core = { s.core core with mopIdle := (s.core core).mopIdle + 1 } := by
  rw [sugarCounted, core_rbump, core_mapCore_same]

theorem rget_sugarCounted (s : State) (core : Nat) : (sugarCounted s core).rget Fld.CO_MX_ACTIVITY_SUGAR core =
    min (s.rget Fld.CO_MX_ACTIVITY_SUGAR core + 1) (2 ^ Fld.CO_MX_ACTIVITY_SUGAR.len - 1) :=
  rget_rbump_same _ _ 1 core 0 (by decide)

/-- An array cycle inside the tail with a set in use is counted as a sugar cycle. -/
theorem sugarCycle_counted {s : State} {core : Fin 192} (running : s.clocked = true)
    (used : ((s.core core).accSet 0).state ≠ .free ∨ ((s.core core).accSet 1).state ≠ .free) (cores : coresRun s = true)
    (tail : (s.core core).mopIdle < sugarTail s core) :
    ∃ t, exec (.sugarCycle core) s = .next t ∧ t.mem = s.mem ∧ (t.core core).mopIdle = (s.core core).mopIdle + 1 ∧
      t.rget Fld.CO_MX_ACTIVITY_SUGAR core = min (s.rget Fld.CO_MX_ACTIVITY_SUGAR core + 1) (2 ^ Fld.CO_MX_ACTIVITY_SUGAR.len - 1) ∧
      (t.core core).trays = (s.core core).trays := by
  obtain ⟨m, cycle⟩ := sugarCycle_eq running used cores tail
  have after := (core_charged s (sugarCounted s core) m core).trans (core_sugarCounted s core)
  exact ⟨_, cycle, (mem_charged s _ m).trans (mem_sugarCounted s core),
    by rw [after], (rget_charged s _ m _ core).trans (rget_sugarCounted s core), by rw [after]⟩

/-- An array cycle past the tail counts nothing. -/
theorem sugarCycle_past {s : State} {core : Fin 192} (running : s.clocked = true) (tail : sugarTail s core ≤ (s.core core).mopIdle) :
    ∃ t, exec (.sugarCycle core) s = .next t ∧ t.regs = s.regs ∧ t.sugar = s.sugar := by
  refine ⟨_, rfl, ?_⟩
  rw [onClock_running s _ running]
  simp [doSugarCycle, Nat.not_lt.mpr tail, State.beside]

theorem rowsEntriesSets : RowsEntriesSets := fun _ _ _ h on noA noB noC =>
  ⟨rhclr_leaves h on noA noB noC, trd_inFlight h on noA noB noC, tqdrop_leaves h on noA noB noC, aclr_leaves h on noA noB noC⟩

theorem drainAndSugar : DrainAndSugar := fun _ _ running =>
  ⟨drainEnd_done running, sugarCycle_counted running, sugarCycle_past running⟩

/-- Settles O18: rows, entries and sets, the end of a drain, and sugar cycles. -/
theorem tilesAndRows : Obligations.TilesAndRows := ⟨rowsEntriesSets, drainAndSugar⟩

end Sys2Proof.Proofs.TilesAndRows
end

section
/-!
Rules for a list of writes to memory (R142, R151) and for numbers packed from bit 0 upward (R108): what each byte holds after the
writes, what else they leave, and the fields that a packed number reads back.
-/
open Sys2Proof Sys2Proof.Machine Sys2Proof.Claims

namespace Sys2Proof.Proofs.MemoryWrites

/-! ### A list of writes -/

/-- The writes of a list, in its order: address, length in bytes, value. -/
def writeAll (ws : List (Nat × Nat × Nat)) (s : State) : State := ws.foldl (fun (s : State) w => s.write w.1 w.2.1 w.2.2) s

@[simp] theorem writeAll_nil (s : State) : writeAll [] s = s := rfl

@[simp] theorem writeAll_cons (w : Nat × Nat × Nat) (ws : List (Nat × Nat × Nat)) (s : State) :
    writeAll (w :: ws) s = writeAll ws (s.write w.1 w.2.1 w.2.2) := rfl

theorem writeAll_frame (ws : List (Nat × Nat × Nat)) (s : State) : ∃ m p, writeAll ws s = { s with mem := m, poison := p } := by
  refine foldl_keeps (fun t : State => ∃ m p, t = { s with mem := m, poison := p }) _ ?_ ws s ⟨_, _, rfl⟩
  rintro _ w ⟨m, p, rfl⟩
  obtain ⟨p', e⟩ := write_frame { s with mem := m, poison := p } w.1 w.2.1 w.2.2
  exact ⟨_, p', e⟩

theorem memWf_writeAll (ws : List (Nat × Nat × Nat)) {s : State} (h : s.memWf = true) : (writeAll ws s).memWf = true :=
  foldl_keeps (fun t : State => t.memWf = true) _ (fun t w ht => memWf_write t w.1 w.2.1 w.2.2 ht) ws s h

theorem byte_writeAll_outside (a : Nat) (ws : List (Nat × Nat × Nat)) :
    ∀ s : State, (∀ w ∈ ws, a < w.1 ∨ w.1 + w.2.1 ≤ a) → (writeAll ws s).byte a = s.byte a := by
  induction ws with
  | nil => exact fun _ _ => rfl
  | cons w ws ih =>
    intro s outside
    rw [writeAll_cons, ih _ fun v hv => outside v (List.mem_cons_of_mem _ hv),
      byte_write_outside _ _ _ _ _ (outside w List.mem_cons_self)]

theorem overlaps_eq_false (a b : Nat × Nat) : overlaps a b = false ↔ b.1 + b.2 ≤ a.1 ∨ a.1 + a.2 ≤ b.1 := by
  simp only [overlaps, Bool.and_eq_false_iff, decide_eq_false_iff_not, Nat.not_lt]

/-- Where no two writes meet, each stands in memory after all of them. -/
theorem byte_writeAll_inside {w : Nat × Nat × Nat} {i : Nat} (hi : i < w.2.1) (ws : List (Nat × Nat × Nat)) :
    ∀ s : State, ws.Pairwise (fun v w => overlaps (v.1, v.2.1) (w.1, w.2.1) = false) → w ∈ ws →
      (writeAll ws s).byte (w.1 + i) = BitVec.ofNat 8 (w.2.2 >>> (8 * i)) := by
  induction ws with
  | nil => exact fun _ _ hw => absurd hw List.not_mem_nil
  | cons v ws ih =>
    intro s apart hw
    obtain ⟨first, rest⟩ := List.pairwise_cons.mp apart
    rw [writeAll_cons]
    rcases List.mem_cons.mp hw with rfl | later
    · have outside : ∀ u ∈ ws, w.1 + i < u.1 ∨ u.1 + u.2.1 ≤ w.1 + i := by
        intro u hu
        have := (overlaps_eq_false _ _).mp (first u hu)
        dsimp only at this
        omega
      rw [byte_writeAll_outside _ ws _ outside, byte_write_inside _ _ _ _ _ hi]
    · exact ih _ rest later

/-! ### Numbers packed from bit 0 upward (R108) -/

theorem packRow_cons (w f : Nat) (fs : List Nat) : packRow w (f :: fs) = 2 ^ w * packRow w fs + f := by
  rw [packRow, List.foldr_cons, Nat.add_comm, Nat.mul_comm]
  rfl

theorem packRow_lt {w : Nat} {fs : List Nat} (h : ∀ f ∈ fs, f < 2 ^ w) : packRow w fs < 2 ^ (w * fs.length) := by
  induction fs with
  | nil => simp [packRow]
  | cons f fs ih =>
    have small := h f List.mem_cons_self
    have rest := ih fun g hg => h g (List.mem_cons_of_mem _ hg)
    calc packRow w (f :: fs) = 2 ^ w * packRow w fs + f := packRow_cons w f fs
      _ < 2 ^ w * (packRow w fs + 1) := by rw [Nat.mul_succ]; omega
      _ ≤ 2 ^ w * 2 ^ (w * fs.length) := Nat.mul_le_mul_left _ rest
      _ = 2 ^ (w * (f :: fs).length) := by rw [← Nat.pow_add, List.length_cons, Nat.mul_succ, Nat.add_comm]

/-- A bit of a packed number is the bit of its field. -/
theorem testBit_packRow {w : Nat} {fs : List Nat} (h : ∀ f ∈ fs, f < 2 ^ w) {j : Nat} (hj : j < w) (i : Nat) :
    (packRow w fs).testBit (w * i + j) = (fs.getD i 0).testBit j := by
  induction fs generalizing i with
  | nil => simp [packRow]
  | cons f fs ih =>
    rw [packRow_cons, Nat.testBit_two_pow_mul_add _ (h f List.mem_cons_self)]
    cases i with
    | zero => simp [hj]
    | succ i =>
      have above : ¬(w * (i + 1) + j < w) := by rw [Nat.mul_succ]; omega
      have place : w * (i + 1) + j - w = w * i + j := by rw [Nat.mul_succ]; omega
      rw [if_neg above, place, ih fun g hg => h g (List.mem_cons_of_mem _ hg), List.getD_cons_succ]

theorem getD_mem {α : Type} {l : List α} {i : Nat} (h : i < l.length) (d : α) : l.getD i d ∈ l := by
  rw [List.getD_eq_getElem?_getD, List.getElem?_eq_getElem h, Option.getD_some]
  exact List.getElem_mem h

/-- A field of a packed number reads back. -/
theorem bits_packRow {w : Nat} {fs : List Nat} (h : ∀ f ∈ fs, f < 2 ^ w) {i : Nat} (hi : i < fs.length) :
    bits (packRow w fs) (w * i) w = fs.getD i 0 := by
  have small : fs.getD i 0 < 2 ^ w := h _ (getD_mem hi 0)
  apply Nat.eq_of_testBit_eq
  intro j
  rw [bits_testBit]
  by_cases inside : j < w
  · rw [testBit_packRow h inside, decide_eq_true inside, Bool.true_and]
  · rw [Nat.testBit_lt_two_pow (Nat.lt_of_lt_of_le small (Nat.pow_le_pow_right (by decide) (Nat.not_lt.mp inside)))]
    simp [inside]

/-- Bytes of numbers packed in whole bytes are bytes of the numbers. -/
theorem byte_packRow {k : Nat} {vs : List Nat} (h : ∀ v ∈ vs, v < 2 ^ (8 * k)) {i : Nat} (hi : i < k) (r : Nat) :
    BitVec.ofNat 8 (packRow (8 * k) vs >>> (8 * (r * k + i))) = BitVec.ofNat 8 (vs.getD r 0 >>> (8 * i)) := by
  apply BitVec.eq_of_getLsbD_eq
  intro j hj
  have place : 8 * (r * k + i) + j = 8 * k * r + (8 * i + j) := by rw [Nat.mul_add, Nat.mul_comm r, Nat.mul_assoc, Nat.add_assoc]
  simp only [BitVec.getLsbD_ofNat, Nat.testBit_shiftRight, place, testBit_packRow h (show 8 * i + j < 8 * k by omega)]

end Sys2Proof.Proofs.MemoryWrites
end

section
/-!
Proofs of the statement about the results of the vector engine (R125, R129, R142, R149, R151, R164), O20: streams in memory, the
completion of an instruction, and the digits of a slice.
-/
open Sys2Proof Sys2Proof.Machine Sys2Proof.Claims Sys2Proof.Proofs.TrayIssue Sys2Proof.Proofs.LaneResults
  Sys2Proof.Proofs.MatrixProducts Sys2Proof.Proofs.TilesAndRows Sys2Proof.Proofs.MemoryWrites

namespace Sys2Proof.Proofs.VectorResults

/-! ### Elements of a row (R142) -/

/-- The element formats: 2 or 4 bits, or whole bytes. -/
theorem width_cases (d : Stream) : d.width = 2 ∨ d.width = 4 ∨ (8 ≤ d.width ∧ 8 * (d.width / 8) = d.width) := by
  unfold Stream.width
  cases VFmt.ofStream d <;> decide

/-- An element narrower than a byte lies in one byte. -/
theorem narrow_inside {w : Nat} (hw : w = 2 ∨ w = 4) (c : Nat) : c * w % 8 + w ≤ 8 := by
  rcases hw with rfl | rfl <;> omega

theorem element_end_le {w c cols : Nat} (hc : c < cols) : c * w + w ≤ cols * w := by
  rw [← Nat.succ_mul]
  exact Nat.mul_le_mul_right w hc

/-- A field inside one byte of a number is that field of the number. -/
theorem bits_byte (v k lo len : Nat) (h : lo + len ≤ 8) : bits (BitVec.ofNat 8 (v >>> (8 * k))).toNat lo len = bits v (8 * k + lo) len := by
  apply Nat.eq_of_testBit_eq
  intro j
  rw [bits_testBit, bits_testBit, BitVec.toNat_ofNat, Nat.testBit_mod_two_pow, Nat.testBit_shiftRight, Nat.add_assoc]
  by_cases inside : j < len
  · rw [decide_eq_true (show lo + j < 8 by omega), Bool.true_and]
  · simp [inside]

/-- An element of a stream is a field of the number that its row's bytes spell. -/
theorem elemField_of_row {s : State} {base : Nat} {d : Stream} {r c v : Nat} (hc : c < d.cols)
    (row : ∀ i, i < d.rowBytes d.width →
      s.byte (base + d.offset + r * d.pitchBytes d.width + i) = BitVec.ofNat 8 (v >>> (8 * i))) :
    elemField s base d r c = bits v (d.width * c) d.width := by
  have inRow : c * d.width + d.width ≤ d.cols * d.width := element_end_le hc
  unfold Stream.rowBytes at row
  unfold elemField
  dsimp only
  split
  · next narrow =>
    have small : d.width = 2 ∨ d.width = 4 := by
      rcases width_cases d with h | h | h <;> omega
    rw [row _ (by omega), bits_byte _ _ _ _ (narrow_inside small c), Nat.div_add_mod, Nat.mul_comm c]
  · next wide =>
    have whole : 8 * (d.width / 8) = d.width := by
      rcases width_cases d with h | h | h <;> omega
    have place : 8 * (c * (d.width / 8)) = d.width * c := by rw [Nat.mul_left_comm, whole, Nat.mul_comm]
    rw [readLE_of_bytes s (d.width / 8) _ (v >>> (d.width * c)) fun i hi => ?_, whole, bits]
    rw [Nat.add_assoc, row _ (by rw [Nat.mul_comm c d.width] at inRow; omega), Nat.mul_add, place, Nat.shiftRight_add]

/-! ### Rows of a stream (R142) -/

/-- A row's number fits in its bytes. -/
theorem row_lt {d : Stream} {row : List Nat} (len : row.length = d.cols) (small : ∀ f ∈ row, f < 2 ^ d.width) :
    packRow d.width row < 2 ^ (8 * d.rowBytes d.width) := by
  refine Nat.lt_of_lt_of_le (packRow_lt small) (Nat.pow_le_pow_right (by decide) ?_)
  rw [len, Nat.mul_comm]
  unfold Stream.rowBytes
  omega

/-- Rows that lie end to end are written as one packed number. -/
theorem streamWrites_whole {base : Nat} {d : Stream} {rows : List (List Nat)} (h : d.pitchBytes d.width = d.rowBytes d.width) :
    streamWrites base d rows =
      [(base + d.offset, d.rowBytes d.width * rows.length, packRow (8 * d.rowBytes d.width) (rows.map (packRow d.width)))] := by
  have digit : 256 ^ d.rowBytes d.width = 2 ^ (8 * d.rowBytes d.width) := (Nat.pow_mul 2 8 _).symm
  unfold streamWrites
  dsimp only
  rw [if_pos h, digit]
  rfl

/-- Rows that lie apart are written one by one. -/
theorem streamWrites_rows {base : Nat} {d : Stream} {rows : List (List Nat)} (h : d.pitchBytes d.width ≠ d.rowBytes d.width) :
    streamWrites base d rows = (rows.map (packRow d.width)).zipIdx.map
      (fun p => (base + d.offset + p.2 * d.pitchBytes d.width, d.rowBytes d.width, p.1)) := if_neg h

/-- The writes of rows that do not run into each other are apart. -/
theorem rowWrites_apart {a rb pitch : Nat} (h : rb ≤ pitch) (vs : List Nat) :
    (vs.zipIdx.map (fun p => (a + p.2 * pitch, rb, p.1))).Pairwise (fun v w => overlaps (v.1, v.2.1) (w.1, w.2.1) = false) := by
  rw [List.pairwise_iff_getElem]
  intro i j hi hj before
  have next : (i + 1) * pitch ≤ j * pitch := Nat.mul_le_mul_right pitch before
  rw [Nat.succ_mul] at next
  simp only [List.getElem_map, List.getElem_zipIdx, overlaps_eq_false, Nat.zero_add]
  omega

/-- After a stream is written, each of its rows' bytes spell the row's packed number. -/
theorem byte_streamWrites (s : State) (base : Nat) {d : Stream} {rows : List (List Nat)}
    (apart : d.rowBytes d.width ≤ d.pitchBytes d.width)
    (legal : ∀ row ∈ rows, row.length = d.cols ∧ ∀ f ∈ row, f < 2 ^ d.width) {r i : Nat} (hr : r < rows.length)
    (hi : i < d.rowBytes d.width) :
    (writeAll (streamWrites base d rows) s).byte (base + d.offset + r * d.pitchBytes d.width + i) =
      BitVec.ofNat 8 (packRow d.width (rows.getD r []) >>> (8 * i)) := by
  have value : (rows.map (packRow d.width)).getD r 0 = packRow d.width (rows.getD r []) := by simp [hr]
  by_cases whole : d.pitchBytes d.width = d.rowBytes d.width
  · have small : ∀ v ∈ rows.map (packRow d.width), v < 2 ^ (8 * d.rowBytes d.width) := by
      intro v hv
      obtain ⟨row, hrow, rfl⟩ := List.mem_map.mp hv
      obtain ⟨len, fields⟩ := legal row hrow
      exact row_lt len fields
    have inside : r * d.rowBytes d.width + i < d.rowBytes d.width * rows.length := by
      have := element_end_le (w := d.rowBytes d.width) hr
      rw [Nat.mul_comm _ rows.length]
      omega
    rw [streamWrites_whole whole, whole, writeAll_cons, writeAll_nil, Nat.add_assoc, byte_write_inside _ _ _ _ _ inside,
      byte_packRow small hi, value]
  · have member : (base + d.offset + r * d.pitchBytes d.width, d.rowBytes d.width, packRow d.width (rows.getD r [])) ∈
        streamWrites base d rows := by
      rw [streamWrites_rows whole, List.mem_map]
      refine ⟨(packRow d.width (rows.getD r []), r), ?_, rfl⟩
      rw [List.mk_mem_zipIdx_iff_getElem?]
      simp [hr]
    refine byte_writeAll_inside (w := (_, _, _)) hi _ s ?_ member
    rw [streamWrites_rows whole]
    exact rowWrites_apart apart _

theorem streamReadsBack : StreamReadsBack := by
  intro s base d rows apart _ legal r c hr hc
  obtain ⟨len, small⟩ := legal _ (getD_mem hr [])
  exact (elemField_of_row hc fun i hi => byte_streamWrites s base apart legal hr hi).trans (bits_packRow small (len ▸ hc))

/-! ### Registers and tables of a result (R151, R164) -/

/-- A tray with a result's registers written. -/
def writeRegs (ws : List LaneWrite) (t : Tray) : Tray := ws.foldl Tray.applyWrite t

theorem writeRegs_preds (ws : List LaneWrite) (t : Tray) : (writeRegs ws t).preds = t.preds :=
  foldl_keeps (fun u : Tray => u.preds = t.preds) _ (fun u w hu => (applyWrite_preds u w).trans hu) ws t rfl

/-- The last write of a register in a lane stands in it. -/
theorem reg_writeRegs (ws : List LaneWrite) (k : Nat) {l : Nat} (hl : l < 32) : ∀ t : Tray,
    (writeRegs ws t).reg k l =
      (ws.reverse.find? (fun w => w.reg == k && Mask.has w.lanes l)).elim (t.reg k l) (fun w => w.vals.getD l 0) := by
  induction ws with
  | nil => exact fun _ => rfl
  | cons w ws ih =>
    intro t
    have later := ih (t.applyWrite w)
    rw [writeRegs, List.foldl_cons, List.reverse_cons, List.find?_append]
    rw [writeRegs, reg_applyWrite _ _ _ hl] at later
    rw [later]
    cases ws.reverse.find? (fun w => w.reg == k && Mask.has w.lanes l) with
    | some v => rfl
    | none =>
      rw [Option.none_or, List.find?_singleton]
      by_cases named : k = w.reg ∧ Mask.has w.lanes l = true
      · have hit : (w.reg == k && Mask.has w.lanes l) = true := by
          rw [Bool.and_eq_true, beq_iff_eq]
          exact ⟨named.1.symm, named.2⟩
        rw [if_pos named, if_pos hit]
        rfl
      · have other : ¬((w.reg == k && Mask.has w.lanes l) = true) := by
          rw [Bool.and_eq_true, beq_iff_eq]
          exact fun h => named ⟨h.1.symm, h.2⟩
        rw [if_neg named, if_neg other]

/-- A core with a result's table loaded, or invalidated. -/
def loadTable (context : Nat) (c : Core) : Option (Nat × Option (List Nat)) → Core
  | some (i, some words) => { c with tables := SMap.put c.tables i { valid := true, tag := context, words := words } }
  | some (i, none) => { c with tables := SMap.del c.tables i }
  | none => c

/-! ### The completion (R149, R151, R164) -/

/-- A started entry's writes stand in memory, and what it lost and sent across is counted. -/
def stored (s : State) (core : Nat) (e : VEntry) (r : VResult) : State :=
  ((writeAll r.writes s).addCrumbs core e.launch r.crumbs).rbump Fld.CO_VE_ACTIVITY_CROSS r.cross core

/-- The result's table is in the core. -/
def tableDone (s : State) (core context : Nat) : Option (Nat × Option (List Nat)) → State
  | none => s
  | some tb => s.mapCore core (fun c => loadTable context c (some tb))

/-- The state in which an entry of a launch of `context` has completed. -/
def completed (s : State) (core context : Nat) (e : VEntry) (r : VResult) : State :=
  dropEntry ((tableDone (stored s core e r) core context r.table).mapTray core e.slot (writeRegs r.regs)) core e

section
variable {s : State} {core : Nat} {e : VEntry} {r : VResult} {L : Launch}

theorem stored_frame (s : State) (core : Nat) (e : VEntry) (r : VResult) :
    ∃ g, stored s core e r = { writeAll r.writes s with regs := g } := by
  obtain ⟨g, h⟩ := addCrumbs_frame (writeAll r.writes s) core e.launch r.crumbs
  rw [stored, h]
  exact ⟨_, rfl⟩

theorem launch_stored (n : Nat) : (stored s core e r).launch n = s.launch n := by
  obtain ⟨g, h⟩ := stored_frame s core e r
  obtain ⟨m, p, h'⟩ := writeAll_frame r.writes s
  rw [h, h']
  rfl

theorem core_stored (n : Nat) : (stored s core e r).core n = s.core n := by
  obtain ⟨g, h⟩ := stored_frame s core e r
  obtain ⟨m, p, h'⟩ := writeAll_frame r.writes s
  rw [h, h']
  rfl

/-- The oldest entry, once started, completes while its launch is there. -/
theorem doVeComplete_eq (head : (s.core core).veq.head? = some e) (result : e.result = some r) (launch : s.launch e.launch = some L) :
    doVeComplete core s = completed s core L.context e r := by
  have same : (stored s core e r).launch e.launch = some L := (launch_stored _).trans launch
  unfold stored writeAll at same
  unfold doVeComplete completed tableDone stored writeAll
  simp only [head, result, same]
  rcases r.table with _ | ⟨i, _ | words⟩ <;> rfl

theorem completed_frame (s : State) (core context : Nat) (e : VEntry) (r : VResult) :
    ∃ c g, completed s core context e r = { writeAll r.writes s with cores := c, regs := g } := by
  obtain ⟨g, h⟩ := stored_frame s core e r
  unfold completed
  rw [h]
  cases r.table with
  | none => exact ⟨_, g, rfl⟩
  | some tb => exact ⟨_, g, rfl⟩

theorem core_tableDone (context : Nat) (tb : Option (Nat × Option (List Nat))) :
    (tableDone s core context tb).core core = loadTable context (s.core core) tb := by
  cases tb with
  | none => rfl
  | some tb => exact core_mapCore_same _ _ _

/-- The core after the completion. -/
theorem core_completed (context : Nat) : ∃ ts, (completed s core context e r).core core =
    { loadTable context (s.core core) r.table with
      veq := (loadTable context (s.core core) r.table).veq.filter (fun x => x.serial != e.serial), trays := ts } := by
  unfold completed dropEntry State.mapTray
  dsimp only
  rw [core_mapCore_same, core_mapCore_same, core_mapCore_same, core_tableDone, core_stored]
  exact ⟨_, rfl⟩

theorem table_completed (context i : Nat) :
    ((completed s core context e r).core core).table i = (loadTable context (s.core core) r.table).table i := by
  obtain ⟨ts, h⟩ := core_completed (s := s) (core := core) (e := e) (r := r) context
  rw [h]
  rfl

theorem serial_completed (context : Nat) : ∀ q ∈ ((completed s core context e r).core core).veq, q.serial ≠ e.serial := by
  obtain ⟨ts, h⟩ := core_completed (s := s) (core := core) (e := e) (r := r) context
  rw [h]
  intro q hq
  simpa using (List.mem_filter.mp hq).2

theorem trays_loadTable (context : Nat) (c : Core) (tb : Option (Nat × Option (List Nat))) : (loadTable context c tb).trays = c.trays := by
  rcases tb with _ | ⟨i, _ | words⟩ <;> rfl

theorem tray_completed (context : Nat) {y : Tray} (h : s.tray core e.slot = some y) :
    (completed s core context e r).tray core e.slot =
      some { writeRegs r.regs y with pend := (writeRegs r.regs y).pend.filter (fun p => p.kind != .external e.serial) } := by
  have before : (tableDone (stored s core e r) core context r.table).tray core e.slot = some y := by
    rw [State.tray, core_tableDone, core_stored, Core.tray, trays_loadTable]
    exact h
  have written : ((tableDone (stored s core e r) core context r.table).mapTray core e.slot (writeRegs r.regs)).tray core e.slot =
      some (writeRegs r.regs y) := by
    rw [tray_mapTray_same, before]
    rfl
  unfold completed dropEntry
  dsimp only
  rw [tray_mapTray_same, State.tray, core_mapCore_same]
  exact congrArg (Option.map _) written

theorem byte_completed (context a : Nat) : (completed s core context e r).byte a = (writeAll r.writes s).byte a := by
  obtain ⟨c, g, h⟩ := completed_frame s core context e r
  rw [h]
  rfl

theorem memWf_completed (context : Nat) (h : s.memWf = true) : (completed s core context e r).memWf = true := by
  obtain ⟨c, g, h'⟩ := completed_frame s core context e r
  rw [h']
  exact memWf_writeAll r.writes h

end

theorem exec_veInstructionComplete (core : Fin 192) (s : State) :
    exec (.veInstructionComplete core) s = .next (s.onClock (doVeComplete core s)) := rfl

theorem vectorComplete : VectorComplete := by
  intro s core e r L running head result wf launch
  have run : exec (.veInstructionComplete core) s = .next (s.beside (completed s core L.context e r)) := by
    rw [exec_veInstructionComplete, onClock_running s _ running, doVeComplete_eq head result launch]
  refine ⟨_, run, memWf_completed _ wf, serial_completed _, fun a outside => ?other, fun apart w hw i hi => ?writes,
    fun i words loaded => ?table, fun i dropped => ?noTable, fun y hy => ?tray⟩
  case other => exact (byte_completed _ a).trans (byte_writeAll_outside a _ s outside)
  case writes => exact (byte_completed _ _).trans (byte_writeAll_inside hi _ s apart hw)
  case table =>
    rw [core_beside, table_completed, loaded, loadTable, Core.table, SMap.get_put_same]
  case noTable =>
    rw [core_beside, table_completed, dropped, loadTable, Core.table, SMap.get_del_same]
  case tray =>
    refine ⟨_, tray_completed _ hy, writeRegs_preds _ _, fun p hp => ?_, fun k l hl => ?_⟩
    · simpa using (List.mem_filter.mp hp).2
    · refine (reg_writeRegs r.regs k hl y).trans ?_
      cases r.regs.reverse.find? (fun w => w.reg == k && Mask.has w.lanes l) <;> rfl

/-! ### The digits of a slice (R125, R129) -/

/-- The balanced digit of an integer to the base 256. -/
def balancedDigit (m : Int) : Int := if m % 256 ≥ 128 then m % 256 - 256 else m % 256

theorem digitsOf_succ (n : Nat) (m : Int) :
    digitsOf (n + 2) m = balancedDigit m :: digitsOf (n + 1) ((m - balancedDigit m) / 256) := rfl

theorem balancedDigit_bounds (m : Int) : -128 ≤ balancedDigit m ∧ balancedDigit m ≤ 127 := by
  unfold balancedDigit
  split <;> omega

theorem balancedDigit_add (m : Int) : balancedDigit m + 256 * ((m - balancedDigit m) / 256) = m := by
  unfold balancedDigit
  split <;> omega

theorem sliceDigits : SliceDigits := by
  intro n
  induction n with
  | zero => simp [digitsOf]
  | succ n ih =>
    intro m
    obtain ⟨len, balanced, sum⟩ := ih ((m - balancedDigit m) / 256)
    rw [digitsOf_succ, List.length_cons, len, List.foldr_cons, sum]
    refine ⟨rfl, fun i hi => ?_, balancedDigit_add m⟩
    cases i with
    | zero => exact balancedDigit_bounds m
    | succ i => exact balanced i (Nat.lt_of_succ_lt_succ hi)

/-- Settles O20: streams read back, completions write their results, and the digits of a slice sum to it. -/
theorem vectorResults : Obligations.VectorResults := ⟨streamReadsBack, vectorComplete, sliceDigits⟩

end Sys2Proof.Proofs.VectorResults
end

section
/-!
Proofs of the statement about the vector engine's queue (R144, R145, R149, R152 to R156, R161), O19: the issue of a VEC instruction
that opens an entry, what a lone elementwise instruction or reduction computes, and its start.
-/
open Sys2Proof Sys2Proof.Machine Sys2Proof.Claims Sys2Proof.Proofs.TrayIssue Sys2Proof.Proofs.TilesAndRows

namespace Sys2Proof.Proofs.VectorQueue

/-! ### The entry that an instruction opens (R145, R147, R149) -/

theorem openEntry_eq_none {s : State} {core slot : Nat} (h : chainOpen s core slot = false) : openEntry (s.core core) slot = none := by
  rw [openEntry, List.find?_eq_none]
  exact List.any_eq_false.mp h

/-- The entry of an instruction that a lane of the tray governs. -/
def newEntry (x : Ctx) (v : VInstr) (chain : Bool) (lane : Nat) (ecc : Ecc) : VEntry :=
  { serial := x.serial, slot := x.slot, sheet := x.t.sheet, launch := x.L.serial, members := [v], closed := !chain
    lane := some lane, tableEcc := ecc }

/-- The core with an entry at the end of its queue; entries that do nothing leave the queue. -/
def withEntry (e : VEntry) (c : Core) : Core := { c with veq := (c.veq ++ [e]).filter (fun q => !(q.closed && q.lane.isNone)) }

theorem getLast?_withEntry (c : Core) {e : VEntry} (lane : e.lane.isNone = false) : (withEntry e c).veq.getLast? = some e := by
  simp [withEntry, List.filter_append, lane]

/-- The registers that an instruction writes when it completes. -/
def resultRegs (v : VInstr) : List Nat :=
  (if v.regC ≠ codeZero then (if v.prec = 0 then [v.regC] else [v.regC, v.regC + 1]) else []) ++
    (if v.regB ≠ codeZero then [v.regB] else [])

/-- The instruction on the scoreboard: its registers wait for its entry. -/
def entryPend (x : Ctx) (v : VInstr) : Pend :=
  { serial := x.serial, kind := .external x.serial, longLatency := true, regs := resultRegs v }

/-- The context after an entry has joined the queue and the core has taken a number for it. -/
def queuedCtx (x : Ctx) (e : VEntry) : Ctx := Ctx.bumpSerial { x with s := x.s.mapCore x.core (withEntry e) }

theorem queuedCtx_keepsTrays (x : Ctx) (e : VEntry) : KeepsTrays x.s (queuedCtx x e).s :=
  (mapCore_keepsTrays x.s x.core (f := withEntry e) rfl).trans (bumpSerial_keepsTrays { x with s := x.s.mapCore x.core (withEntry e) })

theorem veq_queuedCtx (x : Ctx) (e : VEntry) : ((queuedCtx x e).s.core x.core).veq = (withEntry e (x.s.core x.core)).veq := by
  unfold queuedCtx Ctx.bumpSerial
  dsimp only
  rw [core_mapCore_same, core_mapCore_same]

/-- With no chain open, an instruction without CIN opens an entry and issues. -/
theorem enqueue_opens {x : Ctx} (noChain : openEntry (x.s.core x.core) x.slot = none) (v : VInstr) (chain : Bool) (lane : Nat)
    (ecc : Ecc) :
    enqueue x v chain false (some lane) ecc =
      (queuedCtx x (newEntry x v chain lane ecc)).issueWith (if v.imm then 2 else 1) (some (entryPend x v)) := by
  unfold enqueue
  simp only [noChain]
  rfl

/-! ### The registers of a result (R154, R161) -/

/-- A reduction that writes a scalar names a register of its launch, so not ZERO. -/
theorem scalar_ne_zero {o : TrayOp} {op : Nat} {L : Launch} (few : L.regs ≤ 128) (legal : vLegal o op L = true)
    (scalar : isReduction op = true ∧ o.dst.toNat = codeZero) : o.srcC.toNat ≠ codeZero := by
  intro zero
  obtain ⟨reduction, noDst⟩ := scalar
  have narrow : legalDst L codeZero = false := decide_eq_false (Nat.not_lt.mpr (Nat.le_trans few (by decide)))
  have wide : legalDst64 L codeZero = false := rfl
  simp [vLegal, reduction, noDst, zero, narrow, wide] at legal

theorem resultRegs_vInstr {x : Ctx} {o : TrayOp} {op : Nat} (lane : Nat) (few : x.L.regs ≤ 128) (legal : vLegal o op x.L = true) :
    resultRegs (vInstr x o op lane) = redRegs o op ++ countRegs o := by
  have count : (if (vInstr x o op lane).regB ≠ codeZero then [(vInstr x o op lane).regB] else []) = countRegs o := by
    unfold vInstr countRegs
    by_cases tile : o.vTsrc = true <;> simp [tile]
  rw [resultRegs, count]
  congr 1
  unfold vInstr redRegs
  by_cases scalar : isReduction op = true ∧ o.dst.toNat = codeZero
  · simp [scalar, scalar_ne_zero few legal scalar]
  · simp [scalar]

/-! ### Issue (R145, R149) -/

/-- Every VEC row is issued by the one shared operation. -/
theorem exec_vecRows (o : TrayOp) (s : State) : ∀ r ∈ vecRows o, exec r.1 s = .next (s.onClock (vIssue o r.2 s)) := by
  intro r hr
  simp only [vecRows, List.mem_cons, List.not_mem_nil, or_false] at hr
  rcases hr with rfl | rfl | rfl | rfl | rfl | rfl | rfl | rfl | rfl | rfl | rfl | rfl | rfl | rfl | rfl | rfl | rfl | rfl | rfl |
    rfl | rfl | rfl | rfl | rfl | rfl | rfl | rfl | rfl | rfl | rfl | rfl <;> rfl

/-- Where no chain is open, a VEC instruction is issued as any other. -/
theorem issueAny_eq_issueTray {o : TrayOp} {s u : State} {x : Ctx} {body : Ctx → State} (h : CanIssue o s x) (hb : body x = u) :
    issueAny o s body = issueTray o s fun _ => u := by
  obtain ⟨ctx, noBreak, clean, ecc, noChain⟩ := h
  rw [issueAny_body o s x body ctx noBreak clean ecc, issueTray_body o s x _ ctx noBreak clean ecc noChain, hb]

theorem canIssue_openEntry {o : TrayOp} {s : State} {x : Ctx} (h : CanIssue o s x) : openEntry (s.core x.core) x.slot = none := by
  obtain ⟨-, hcore, hslot⟩ := canIssue_place h
  obtain ⟨-, -, -, -, noChain⟩ := h
  rw [hcore, hslot, openEntry_eq_none noChain]

section
variable {o : TrayOp} {op : Nat} {s : State} {x : Ctx} {l : Nat}

/-- The entry that a VEC word opens for its governing lane. -/
def opened (o : TrayOp) (op : Nat) (x : Ctx) (l : Nat) : VEntry := newEntry x (vInstr x o op l) o.vChain l o.unitEcc

/-- A legal VEC instruction without CIN, with room in the queue, opens an entry. -/
theorem vIssue_opens (h : CanIssue o s x) (lowest : Mask.lowest x.on = some l) (noCin : o.vCin = false)
    (room : veUsed (s.core o.core) < 8) (legal : vLegal o op x.L = true) (dynamic : vDynLegal (vInstr x o op l) = true)
    (tile : o.vTsrc = true → tileOwned (s.core o.core) x.t.sheet o.vTq = true)
    (operands : x.clear (x.guards ++ (vReads o op ++ redRegs o op ++ countRegs o)) = true) :
    vIssue o op s = issueTray o s fun _ =>
      (queuedCtx x (opened o op x l)).issueWith (if o.vImm then 2 else 1) (some (entryPend x (vInstr x o op l))) := by
  have noChain := canIssue_openEntry h
  obtain ⟨rfl, hcore, -⟩ := canIssue_place h
  rw [← hcore] at room tile
  have owned : (o.vTsrc && !(tileOwned (x.s.core x.core) x.t.sheet o.vTq)) = false := by simpa using tile
  refine issueAny_eq_issueTray h ?_
  simp only [noChain, lowest, noCin, legal, dynamic, owned, Nat.not_le.mpr room, if_false, Bool.not_true, Bool.not_false,
    Bool.and_true, Bool.false_eq_true]
  rw [withRegs_run x _ _ operands, enqueue_opens noChain]
  rfl

end

theorem vectorIssue : VectorIssue := by
  intro o s x l h lowest noCin room few r row legal dynamic tile operands
  have issues := exec_vecRows o s r row
  rw [vIssue_opens h lowest noCin room legal dynamic tile operands] at issues
  obtain ⟨rfl, hcore, hslot⟩ := canIssue_place h
  obtain ⟨t, y, ht, only, hy, issued, ts, core⟩ := issue_done issues h (queuedCtx_keepsTrays x (opened o r.2 x l)) rfl
  have last : (t.core o.core).veq.getLast? = some (opened o r.2 x l) := by
    rw [core, ← hcore]
    exact (congrArg List.getLast? (veq_queuedCtx x _)).trans (getLast?_withEntry _ rfl)
  exact ⟨t, y, ht, only, hy, issued.regs, issued.preds, _, _, last, rfl, rfl, rfl, hslot, rfl, rfl, issued.pend, rfl,
    resultRegs_vInstr l few legal⟩

/-! ### What a lone instruction computes (R144, R152 to R156) -/

theorem isReduction_iff (op : Nat) : isReduction op = true ↔ op = 0x20 ∨ op = 0x21 ∨ op = 0x22 := by
  simp [isReduction, or_assoc]

theorem map_zipIdx_range {α β : Type} (f : Nat → α) (g : α × Nat → β) (n : Nat) :
    ((List.range n).map f).zipIdx.map g = (List.range n).map fun i => g (f i, i) :=
  List.ext_getElem (by simp) (by simp)

/-- The rows of elements that a lone elementwise instruction or reduction writes to its destination. -/
def resultRows (v : VEnv) (m : VInstr) (d : Stream) : List (List Nat) :=
  (List.range (chainShape [m]).1).map fun i =>
    if isReduction m.op then
      [(sinkAt v m d (reduceRow m.prec m.op ((List.range (chainShape [m]).2).map fun j => operandOf v m m.srcA 0 i j)) i).bits]
    else (List.range (chainShape [m]).2).map fun j =>
      (sinkAt v m d (elementValue v m i j) (i * (chainShape [m]).2 + j)).bits

section
variable (v : VEnv) {m : VInstr} {d : Stream}

/-- The first member of an elementwise chain takes its operands from its streams. -/
theorem memberAt_elementwise (op : m.op < 0x16) (r c : Nat) : memberAt v m none r c = elementValue v m r c := by
  unfold memberAt
  dsimp only
  split
  case h_5 => rfl
  all_goals omega

/-- Elementwise instructions and reductions are no stage instructions. -/
theorem evalEntry_lone (op : m.op < 0x16 ∨ isReduction m.op = true) : evalEntry v [m] = some (evalStream v [m]) := by
  rw [isReduction_iff] at op
  unfold evalEntry
  dsimp only
  split
  case h_6 => rfl
  all_goals omega

theorem writes_reduction (dst : m.dst = some d) (op : isReduction m.op = true) :
    (evalStream v [m]).writes = streamWrites v.base d (resultRows v m d) := by
  simp [evalStream, resultRows, dst, op, map_zipIdx_range, operandOf, Function.comp_def]

theorem writes_elementwise (dst : m.dst = some d) (op : m.op < 0x16) :
    (evalStream v [m]).writes = streamWrites v.base d (resultRows v m d) := by
  have other : isReduction m.op = false := by
    rw [← Bool.not_eq_true, isReduction_iff]
    omega
  simp [evalStream, resultRows, dst, other, chainAt, memberAt_elementwise v op, Function.comp_def]

end

/-! ### Start (R149, R161) -/

/-- The core in which an entry has started with its result: its tiles are released (R161; at the start, as
SPEC.md's assumption 28 deduces), and the entry stays in the queue. -/
def startedCore (e : VEntry) (r : VResult) (c : Core) : Core :=
  { releaseTiles c e with
    veq := (releaseTiles c e).veq.map fun q => if q.serial = e.serial then { q with result := some r } else q }

theorem exec_veInstructionStart (core : Fin 192) (s : State) :
    exec (.veInstructionStart core) s = .next (s.onClock (doVeStart core s)) := rfl

theorem mem_headEntry {c : Core} {e : VEntry} (h : headEntry c = some e) : e ∈ c.veq := List.mem_of_find?_eq_some h

section
variable {s : State} {core : Nat} {e : VEntry} {m : VInstr} {h : Sheet} {L : Launch} {r : VResult} {c : Core}

/-- An entry of one instruction that may start, and computes a result, starts. -/
theorem doVeStart_eq (may : MayStart s core e m h L) (result : evalEntry (vEnv s core h L) [m] = some r) :
    doVeStart core s = s.mapCore core (startedCore e r) := by
  obtain ⟨-, cores, head, lone, closed, clean, sheet, launch, free, status, tile⟩ := may
  have counted : tableEccCount s core e = s := by simp [tableEccCount, clean]
  have owned : ([m].filter (fun m => m.tsrc)).any (fun m => !(tileOwned (s.core core) e.sheet m.tq)) = false := by
    simpa using fun tsrc => (tile tsrc).1
  have ready : ([m].filter (fun m => m.tsrc)).any (fun m => ((s.core core).entry m.tq).state != TqState.ready) = false := by
    simpa using fun tsrc => (tile tsrc).2
  unfold vEnv at result
  unfold doVeStart
  simp only [head, lone, sheet, launch, closed, cores, owned, ready, free, status, counted, result]
  rfl

theorem releaseTiles_lone (lone : e.members = [m]) :
    releaseTiles c e = if m.tsrc ∧ m.rel then c.freeEntry m.tq else c := by
  simp [releaseTiles, lone, Core.freeEntry]

theorem veq_startedCore (lone : e.members = [m]) (he : e ∈ c.veq) : { e with result := some r } ∈ (startedCore e r c).veq := by
  have same : (releaseTiles c e).veq = c.veq := by
    rw [releaseTiles_lone lone]
    split <;> rfl
  rw [startedCore, same, List.mem_map]
  exact ⟨e, he, if_pos rfl⟩

theorem entry_startedCore (lone : e.members = [m]) (tile : m.tsrc = true) (rel : m.rel = true) :
    ((startedCore e r c).entry m.tq).state = .free := by
  have freed : (startedCore e r c).entry m.tq = (c.freeEntry m.tq).entry m.tq := by
    rw [startedCore, releaseTiles_lone lone, if_pos ⟨tile, rel⟩]
    rfl
  rw [freed, entry_freeEntry_same]

end

theorem vectorStart : VectorStart := by
  intro s core e m h L d may dst op
  let r := evalStream (vEnv s core h L) [m]
  have starts : doVeStart core s = s.mapCore core (startedCore e r) := doVeStart_eq may (evalEntry_lone _ op)
  have writes : r.writes = streamWrites (h.addr core 0) d (resultRows (vEnv s core h L) m d) :=
    op.elim (writes_elementwise _ dst) (writes_reduction _ dst)
  obtain ⟨running, -, head, lone, -⟩ := may
  have run := exec_veInstructionStart core s
  rw [onClock_running s _ running, starts] at run
  refine ⟨_, { e with result := some r }, r, run, rfl, ?queue, rfl, rfl, writes, fun tile rel => ?freed⟩
  case queue =>
    rw [core_beside, core_mapCore_same]
    exact veq_startedCore lone (mem_headEntry head)
  case freed => rw [core_beside, core_mapCore_same, entry_startedCore lone tile rel]

/-- Settles O19: VEC instructions enter the queue, and an elementwise instruction or reduction that starts computes its elements. -/
theorem vectorQueue : Obligations.VectorQueue := ⟨vectorIssue, vectorStart⟩

end Sys2Proof.Proofs.VectorQueue
end
